-- ==== Sys2Proof/Word.lean ====
section
/-! DEFINITION. The word types of the NY64: a register is 32 bits (00 R10), a DRAM or array byte is 8 bits,
little-endian (00 R3). -/
namespace Sys2Proof

/-- A BAR0 register word (R10). -/
abbrev Word := BitVec 32
/-- One byte of DRAM, of a configuration bank or of the keeping store. -/
abbrev Byte := BitVec 8
/-- A frame number (R8). -/
abbrev Sfn := BitVec 32

end Sys2Proof
end

