-- ==== Sys2Proof/Syntax.lean ====
section
/-! DEFINITION. The commands and events of the NY64: one constructor per row of spec/opcode_table.json, with the row's
operands. An operand that names a tile, engine, channel or port is a Fin; what an agent outside the block supplies
(converter codes, received messages, error syndromes) is carried by the event. -/
namespace Sys2Proof

/-- The path a command packet came by (13 R308): 0 Caravan, 1 bring-up mailbox, 2 management mailbox. -/
inductive Path where
  | caravan | mailbox | mgmt
  deriving DecidableEq, Repr

/-- What a command keeps of its packet (13 R304, R308): the path, the TAG and the effective or resolved SFN. -/
structure Hdr where
  path : Path
  tag : BitVec 16
  sfn : Sfn
  deriving DecidableEq, Repr

/-- One access request at the memory controller (10 R245, R247, R257): the requesting port 0 to 11, the line, and for
a write the bytes with their enables. `waited` is set once the request has been counted as waiting on credit. -/
structure MemReq where
  port : Fin 12
  line : Nat
  /-- None for a read; for a write, 64 entries, none for a byte whose enable is clear. -/
  data : Option (List (Option Byte))
  waited : Bool
  deriving DecidableEq, Repr

/-- A word of the line just read that fails its check (10 R246): its index, its syndrome, and whether it can be
corrected. -/
structure EccHit where
  word : Fin 8
  syndrome : BitVec 8
  correctable : Bool
  deriving DecidableEq, Repr

/-- What one attempt of a full training found on a channel (11 R267, R270): which of the 64 delay points passed on each
of the 24 lanes, for the read capture and the write launch delay, and for the command/address delay; and the lanes that
had a passing point at step 7, the array check. -/
structure ChannelResult where
  rd : List (BitVec 64)
  wr : List (BitVec 64)
  ca : BitVec 64
  array : BitVec 24
  deriving DecidableEq, Repr

/-- A line that fails the compare of a WRITE_READ (11 R277, R279): its pass and D, the first failing word and what was
read there, the lanes in error of that burst, and the bit errors of each lane over the line. -/
structure LineFail where
  pass : Nat
  d : Nat
  word : Fin 8
  actual : BitVec 64
  lanes : BitVec 24
  errs : List Nat
  deriving DecidableEq, Repr

/-- The points of a lane's sweep that passed (11 R272): point i lies at its old centre − 24 + i. -/
abbrev LaneSweep := BitVec 49

/-- What of a Skewaost message R348 checks: the CRC-16 received after its payload, or how many of its characters were
invalid. -/
inductive LineCheck where
  | crc (c : BitVec 16) | badChars (n : Nat)
  deriving DecidableEq, Repr

/-- The point of a journaled page write at which the keeping die lost all power (18 R393, R398): never, in step 1 with
the journal page torn or whole, in step 2, in step 3, or in step 4 before the marker cleared. -/
inductive KeepCut where
  | none | journalTorn | journalWhole | marked | targetTorn | targetDone
  deriving DecidableEq, Repr

/-- A configuration-space write that the manual gives an effect (12 R283, R300, R280). -/
inductive CfgSpaceWrite where
  | busMaster (on : Bool) | memorySpace (on : Bool) | msixEnable (on : Bool) | functionMask (on : Bool)
  | d3hot (on : Bool) | maxPayload (code : BitVec 2) | relaxedOrdering (on : Bool)
  /-- Max_Read_Request_Size: 128 shifted left by the code. -/
  | maxReadRequest (code : BitVec 3)
  /-- ECRC generation and checking of AER. -/
  | ecrc (generate check : Bool)
  /-- Bits written as 1 clear those of the AER status words, of uncorrectable and of correctable errors. -/
  | aerStatus (uncorrectable correctable : Word)
  /-- An address written to BAR0 and BAR1, or to BAR2 and BAR3. -/
  | bar0 (addr : BitVec 64) | bar2 (addr : BitVec 64)
  deriving DecidableEq, Repr

/-- The far side of a crossing FIFO (01 R23). -/
inductive CrossingStage where
  | lane (t : Fin 64) | engine (e : Fin 96) | dma
  deriving DecidableEq, Repr

/-- A local-memory or DMA outcome of the operator that ends (08 R215, R216). -/
inductive LmemCheck where
  | clean | corrected | uncorrectable | dmaError
  deriving DecidableEq, Repr

/-- One command or event of the NY64: the rows of spec/opcode_table.json in their order. -/
inductive Instr where
  | tick
  | engineStopPoint
  | quietWindowOpen
  | quietWindowClose
  | replayEnd
  | shadowLockEnd
  /-- The 64 packet words and their path (R304). -/
  | packetArrival (path : Path) (words : List Word)
  | caravanFetch
  /-- Whether the ring-entry read completed without error, and its words. -/
  | caravanFetchDone (ok : Bool) (words : List Word)
  | replyPost
  | msiXMessage (vector : Fin 512)
  | enableSet
  | enableClear
  | cmdqTailWrite (v : Word)
  | cmdqRplConsWrite (v : Word)
  | mboxGo (mgmt : Bool)
  | mboxNext (mgmt : Bool)
  | nop (h : Hdr)
  | readRegs (h : Hdr) (addr count : Word)
  | writeRegs (h : Hdr) (addr : Word) (vals : List Word)
  | readMap (h : Hdr) (ofs count : Word)
  | setTime (h : Hdr) (v : BitVec 64)
  | writeCfg (h : Hdr) (ofs : Word) (vals : List Word)
  | commitShadow (h : Hdr) (bytes crc : Word)
  /-- The first 64-byte unit of the shadow bank with a parity error, if the reading found one. -/
  | commitChecksEnd (parity : Option (BitVec 17))
  | swapConfig (h : Hdr)
  | cfgStatus (h : Hdr)
  | start (h : Hdr)
  | stop (h : Hdr)
  | tableLoad (h : Hdr) (table : Word) (base : BitVec 64) (crc : Option Word)
  /-- The oldest TABLE_LOAD check in progress ends. -/
  | tableLoadCheckEnd (hits : List (Nat × EccHit) := [])
  | tableSave (h : Hdr) (table : Word) (dest : BitVec 64) (withCrc : Bool)
  /-- The save of the named table completes. -/
  | tableSaveCopyEnd (table : Word) (hits : List (Nat × EccHit) := [])
  | replay (h : Hdr) (rawBase rawStride sideBase : BitVec 64) (n : Word) (loop : Bool)
  | holdFreeze (h : Hdr) (post : Word)
  | holdFrozen
  | holdRelease (h : Hdr) (force : Bool)
  | shutterCal (h : Hdr) (mask : BitVec 64)
  | shutterMove (h : Hdr) (mask : BitVec 64) (close : Bool)
  | hkSelfcal (h : Hdr)
  | dacLincal (h : Hdr) (tile : Fin 64) (tapA tapB : Bool)
  | blendSet (h : Hdr) (mask : BitVec 64) (k : Word)
  | memTrain (h : Hdr) (mode : BitVec 2) (mask : BitVec 8) (eyeMin : BitVec 7) (mts period : Word)
  /-- What each of the eight channels would show at each of five attempts, in their order: the device makes as many of
  them as R270 has it make. -/
  | memTrainEnd (first second : List ChannelResult) (later : List (List ChannelResult))
  | memDiag (h : Hdr) (mode pattern : BitVec 2) (invertAlt : Bool) (passes mask : BitVec 8)
      (start length : BitVec 64) (seed : Word)
  /-- The oldest run ends: lines that failed the compare (WRITE_READ), and word checks as pass, D and hit. -/
  | memDiagEnd (failed : List LineFail) (hits : List (Nat × Nat × EccHit))
  | memResume (h : Hdr) (mode : Bool)
  | keepRead (h : Hdr) (addr bytes : Word)
  | keepWrite (h : Hdr) (addr bytes : Word) (data : List Word)
  | keepRingAppend (h : Hdr) (ring : BitVec 8) (payload : List Word)
  | keepRingRead (h : Hdr) (ring : BitVec 8) (age : Word)
  | keepProtect (h : Hdr) (bp : BitVec 2)
  | keepScrub (h : Hdr)
  | keepScrubEnd
  /-- VKEEP in mV as checked at the start. -/
  | keepPageWriteStart (vkeep : BitVec 16)
  | keepPageWriteEnd
  | keepVkeepRetry (vkeep : BitVec 16)
  | keepSettlement
  | keepRingIndexBuilt
  | counterAppendTimer
  | syncJoin (h : Hdr) (follow : Bool)
  | syncStatus (h : Hdr)
  | syncAssignId (h : Hdr) (id : BitVec 12) (tree : Bool)
  | errAck (h : Hdr) (classes : BitVec 3)
  | powerState (h : Hdr) (low : Bool)
  | lowReached
  | lowExitDone
  | resetBlock (h : Hdr) (blockType inst : BitVec 16)
  | registerWrite (addr : Word) (v : Word) (be : BitVec 4)
  /-- A host access of BAR0 without data of its own: a read, or a write that is dropped. -/
  | bar0UnimplementedAccess (addr : Word) (write : Bool) (be : BitVec 4 := 0xF)
  | shadowWindowWrite (ofs : Word) (v : Word) (be : BitVec 4)
  | tickParkPeriodWrite (v : Word)
  | memcHashWrite (i : Fin 9) (v : Word)
  | errCapValidWrite (cls : Fin 3)
  | hostStrConsWrite (m : Fin 32) (v : Word)
  | hostStrConsCurWrite (m : Fin 32) (hi : Bool) (v : Word)
  /-- A read of `len` bytes, or a write of the bytes given (none: enable clear), at BAR2 offset `d`; with the checks
  of the words read (a read, or the read half of a partial-word write). -/
  | bar2Access (d : Nat) (write : Option (List (Option Byte))) (len : Nat) (hits : List (Nat × EccHit) := [])
  | firmwareWindowWrite (ofs : Word) (v : Word)
  | fwGo
  | configSpaceWrite (w : CfgSpaceWrite)
  | linkUp (speed : BitVec 3) (width : BitVec 5)
  | linkDown
  | hotReset
  | linkDisable
  | functionLevelReset
  | flrComplete
  | linkChange (speed : BitVec 3) (width : BitVec 5)
  | deliveryStart (m : Fin 32)
  | deliveryEnd (m : Fin 32) (hits : List (Nat × EccHit) := [])
  | holdPart (hits : List (Nat × EccHit) := [])
  /-- The requests that reached the controller since the last access, in order, and the checks of the words read. -/
  | memAccessIssue (arrivals : List MemReq) (hits : List EccHit)
  | dramCaparError (ch : Fin 8)
  | refreshDue (ch : Fin 8) (sc rk : Bool)
  /-- The banks that hold a pending request, and those that hold one of an RT-class port. -/
  | refreshIssue (ch : Fin 8) (sc rk : Bool) (busy busyRt : BitVec 16)
  | dramTempRead (ch : Fin 8) (range : BitVec 4) (trefipb : BitVec 16)
  | incrSweepStart (ch : Fin 8)
  | incrSweepEnd (ch : Fin 8) (rd wr : List LaneSweep)
  | pllUnlock (q : Fin 4)
  | crossing (stage : CrossingStage)
  | vddaMeasure (mv : Vector (BitVec 16) 4)
  | qtempMeasure (t : Vector Word 4)
  | brefRampEnd (t : Fin 64)
  | brefRampDownEnd (t : Fin 64)
  /-- Whether TCFG was low in the 1,000 ns before the break (R91). -/
  | tcfgTransactionStart (t : Fin 64) (lineLow : Bool)
  /-- The tile's answer: 8 bits of a write or 24 of a read, right-aligned (R90). -/
  | tcfgTransactionEnd (t : Fin 64) (answer : BitVec 24)
  | prepareEnd (t : Fin 64)
  | prepTimeout (t : Fin 64)
  | tcfgHostGo (t : Fin 64) (addr : BitVec 6)
  | unmask (t : Fin 64)
  | cbOvc (t : Fin 64)
  | brefFault (t : Fin 64)
  /-- The 512 codes of each tap, the two reset samples, the TSTAT level, the tap pixels (2 × slot + tap) whose
  counter-bias word is late, and whether a sample would be lost because the row buffer is full (R145); here and in the
  other rows that read DRAM, the lines in which a word read failed its check, with the word (R246). -/
  | laneRow (t : Fin 64) (codesA codesB : List (BitVec 16)) (rstA rstB : BitVec 16) (tstat : Bool)
      (late : List Nat) (bufferFull : Bool) (hits : List (Nat × EccHit) := [])
  | laneFrameEnd (t : Fin 64) (hits : List (Nat × EccHit) := [])
  | laneDeadline (t : Fin 64)
  /-- The samples of the blanking interval (R120): REF_L and REF_H of each tap, the thermistor, and the four points of
  the weight measurement when one was made. -/
  | blankingWorkEnd (t : Fin 64) (refLA refHA refLB refHB thermistor : List (BitVec 16))
      (points : List (List (BitVec 16)))
  | calDue (t : Fin 64)
  | abandonHoldoffEnd (t : Fin 64)
  | calStart (t : Fin 64)
  | closeUnconfirmed (t : Fin 64)
  | accumEnd (t : Fin 64)
  | computeEnd (t : Fin 64)
  | openUnconfirmed (t : Fin 64)
  | traverseEnd (t : Fin 64)
  /-- The sense codes of the sixteen groups at one instant of the grid. -/
  | senseSample (codes : List (BitVec 12))
  | pullinStart (t : Fin 64)
  | pullinEnd (t : Fin 64)
  | openCoil (t : Fin 64)
  | noMove (t : Fin 64)
  | releaseEnd (t : Fin 64)
  | gapEnd (t : Fin 64)
  | shutFaultClr (hi : Bool) (mask : Word)
  | slotStart (e : Fin 96)
  | operatorEnd (e : Fin 96) (check : LmemCheck) (hits : List (Nat × EccHit) := [])
  | slotEnd (e : Fin 96)
  | hkEntryDelayEnd (c : Bool)
  /-- The raw codes of the conversions not yet sampled. -/
  | hkEntryEnd (c : Bool) (codes : List (BitVec 14))
  | hkInjectedEnd (c : Bool) (codes : List (BitVec 14))
  | hkPassEnd
  | trig
  | selfcal
  | hkSelfcalStart
  /-- The sums of 512 conversions of REF_L and REF_H on HKC0 and HKC1 (R366). -/
  | hkSelfcalEnd (sl0 sh0 sl1 sh1 : Nat)
  /-- Port 0 is SYU, ports 1 to 4 are SYD0 to SYD3. -/
  | syncRxUp (port : Fin 5)
  | syncRxDown (port : Fin 5)
  | tickMessageSend
  /-- Arrival time in 1/8 ns, the line check and the fields of R348. -/
  | tickMessage (a : Int) (line : LineCheck) (sfn : Sfn) (lead period : Word) (depth : Byte) (holdover : Bool)
  | missedTick
  | dlyReqSend (t : Int)
  /-- The port, the sequence number, and TURN: the time of the answer less that of the request, in 1/8 ns. -/
  | dlyReq (port : Fin 4) (seq : BitVec 16) (turn : Word)
  | dlyRsp (t : Int) (line : LineCheck) (seq : BitVec 16) (turn : Word)
  | idSet (line : LineCheck) (id : BitVec 12) (tree : Bool)
  | idDone (port : Fin 4) (count : BitVec 16) (truncated : Bool)
  | assignTimeout
  | spcGo (sel : BitVec 4) (hold : Bool) (count : BitVec 16)
  | spcAbort
  | spcPop
  | spcTxdataWrite (v : Word)
  | spcWordEnd (rx : Word)
  | spcResume
  /-- The command word and the whole data words received, and whether bits of an incomplete word followed. -/
  | sptWrite (cmd : Word) (data : List Word) (partialWord : Bool)
  | sptRead (cmd : Word)
  | sptFetch (cmd : Word)
  | perstAssert
  | resetNAssert
  | brownout
  | supplyLoss (cut : KeepCut)
  | resetRelease (bootsel : BitVec 2)
  /-- The image header as read, and whether checks 3 and 4 of R440 pass on the whole image. -/
  | firmwareCheckEnd (header : List Byte) (keyOk sigOk : Bool)
  | pllLock (q : Fin 4)
  /-- The offset in the active bank divided by 64. -/
  | cfgParityError (ofs64 : BitVec 17)
  | endpointReady
  /-- The command word, or none where the frame ended before a whole one. -/
  | sptBadFrame (cmd : Option Word)
  deriving DecidableEq, Repr

end Sys2Proof
end

