-- ==== Sys2Proof/Decode.lean ====
section
/-! DEFINITION. The decoder of the rows of spec/opcode_table.json that give bits: none of them does, so no word spells a
command. -/
namespace Sys2Proof

/-- The command that a word spells by the table's bits. The table gives no row any bits, so the answer is always none. -/
def decodeTableWord (_nbits _w : Nat) : Option Instr := none

end Sys2Proof
end

