-- ==== Sys2Proof/Config.lean ====
section
/-! DEFINITION. What an implementation fixes, and the free values: constants without a body, so that nothing can be
proved of the value they give. Each is applied to the plain counter or address it depends on. -/
namespace Sys2Proof.Config

/-- The 64-bit serial number from fuses (12 R283, 20 R443): a value each part has and the manual does not give.
Free value: log entry 4. -/
opaque serial : BitVec 64
/-- Content of a DRAM byte whose content the manual calls undefined: after a full training (R271), under changed
masks (R250), in a save copy cut off (R319). The first argument is the DRAM epoch. Free value: log entry 6. -/
opaque dramByte : Nat → Nat → Byte
/-- Content of a local-memory byte at the start of a period (R38, R191). The arguments are the free counter at the
start of the period, the engine and the byte. Free value: log entry 7. -/
opaque lmemByte : Nat → Nat → Nat → Byte
/-- Whether a word a stage was writing in the period of a freeze reached DRAM (R261). Free value: log entry 8. -/
opaque reached : Nat → Nat → Bool
/-- The trim a follower in LOCKED applies (R353): the manual limits it and does not give it. Free value: log entry 9. -/
opaque trim : Nat → Int
/-- A bit of a RADIO32 word that a radiometric entry outside its range makes undefined (R217) and any other 32-bit
value the manual leaves undefined. Free value: log entry 10. -/
opaque word : Nat → Word

end Sys2Proof.Config
end

