-- ==== Sys2Proof/Machine/Bits.lean ====
section
/-! DEFINITION. Number formats of 00 R2 to R8: bit fields, rounding, clamping, little-endian bytes, saturating counters,
frame-number arithmetic, and the check codes the manual names (CRC-32 of 13 R316, CRC-16 of 15 R348). -/
namespace Sys2Proof.Machine

/-- Field [hi:lo] of a value (R3). -/
def bits (v hi lo : Nat) : Nat := v / 2 ^ lo % 2 ^ (hi + 1 - lo)

/-- A value as a two's complement number of `w` bits (R4). -/
def toSigned (w v : Nat) : Int :=
  if v % 2 ^ w < 2 ^ (w - 1) then (v % 2 ^ w : Nat) else ((v % 2 ^ w : Nat) : Int) - 2 ^ w

/-- The low `w` bits of an integer (R5, "mod 2^k"). -/
def wrap (w : Nat) (x : Int) : Nat := (x % (2 ^ w : Nat)).toNat

/-- Rounded division, half away from zero (R6). -/
def rndDiv (n d : Int) : Int :=
  if n * d < 0 then -(((2 * n.natAbs + d.natAbs) / (2 * d.natAbs) : Nat) : Int)
  else ((2 * n.natAbs + d.natAbs) / (2 * d.natAbs) : Nat)

/-- rnd_shr(x, n) (R6). -/
def rndShr (x : Int) (n : Nat) : Int := rndDiv x (2 ^ n : Nat)

/-- The arithmetic shift ">>" (R6): rounded toward minus infinity. -/
def sar (x : Int) (n : Nat) : Int := x / (2 ^ n : Nat)

/-- clamp(x, lo, hi) (R5). -/
def clamp (x lo hi : Int) : Int := if x < lo then lo else if hi < x then hi else x

def clampNat (x hi : Nat) : Nat := if hi < x then hi else x

/-- ceil(a / b). -/
def ceilDiv (a b : Nat) : Nat := (a + b - 1) / b

/-- A counter that saturates at its all-ones value. -/
def satAdd {w : Nat} (x : BitVec w) (n : Nat) : BitVec w :=
  if x.toNat + n < 2 ^ w then BitVec.ofNat w (x.toNat + n) else BitVec.allOnes w

def satInc {w : Nat} (x : BitVec w) : BitVec w := satAdd x 1

/-- A value clamped into a register field of `w` bits. -/
def satNat (w n : Nat) : BitVec w := if n < 2 ^ w then BitVec.ofNat w n else BitVec.allOnes w

/-- The little-endian number of a list of bytes (R3). -/
def leNat : List Byte → Nat
  | [] => 0
  | b :: r => b.toNat + 256 * leNat r

/-- `n` little-endian bytes of a number (R3). -/
def leBytes : Nat → Nat → List Byte
  | 0, _ => []
  | n + 1, v => BitVec.ofNat 8 v :: leBytes n (v / 256)

def beBytes (n v : Nat) : List Byte := (leBytes n v).reverse

/-- The little-endian bytes of a signed number. -/
def leInt (n : Nat) (v : Int) : List Byte := leBytes n (wrap (8 * n) v)

def word (n : Nat) : Word := BitVec.ofNat 32 n

/-- The bytes of 32-bit words. -/
def wordsBytes (ws : List Word) : List Byte := ws.flatMap fun w => leBytes 4 w.toNat

/-- 32-bit words of bytes, the last one padded with zero bytes. -/
def bytesWords : List Byte → List Word
  | a :: b :: c :: d :: r => word (leNat [a, b, c, d]) :: bytesWords r
  | [] => []
  | l => [word (leNat l)]

def lo32 {w : Nat} (x : BitVec w) : Word := BitVec.ofNat 32 x.toNat
def hi32 {w : Nat} (x : BitVec w) : Word := BitVec.ofNat 32 (x.toNat / 2 ^ 32)
/-- A 64-bit quantity of a low and a high word (R14). -/
def pair64 (lo hi : Word) : BitVec 64 := BitVec.ofNat 64 (lo.toNat + 2 ^ 32 * hi.toNat)

/-- Whether bit `i` of a mask is set. -/
def hasBit {w : Nat} (m : BitVec w) (i : Nat) : Bool := m.getLsbD i

def setBit {w : Nat} (m : BitVec w) (i : Nat) : BitVec w := m ||| BitVec.ofNat w (2 ^ i)
def clrBit {w : Nat} (m : BitVec w) (i : Nat) : BitVec w := m &&& ~~~(BitVec.ofNat w (2 ^ i))

/-- The indices of the bits set in a mask, ascending. -/
def maskList {w : Nat} (m : BitVec w) : List Nat := (List.range w).filter fun i => m.getLsbD i

def popcount {w : Nat} (m : BitVec w) : Nat := (maskList m).length

/-- The parity of a number below 2^64. -/
def parity (n : Nat) : Bool := ((List.range 64).filter fun i => n.testBit i).length % 2 = 1

/-- A register word of fields, each a value at a bit place. -/
def fields (l : List (Nat × Nat)) : Word := word (l.foldl (fun a p => a + p.1 * 2 ^ p.2) 0)

/-! ### Frame numbers (R8) -/

/-- The SFN after a given one. -/
def sfnNext (a : Sfn) : Sfn := if a.toNat + 1 < 0xFFFFFFFF then a + 1 else 0

/-- (b − a) mod 0xFFFF_FFFF. -/
def sfnDiff (b a : Sfn) : Nat := (b.toNat + 0xFFFFFFFF - a.toNat) % 0xFFFFFFFF

def sfnAdd (a : Sfn) (n : Nat) : Sfn := BitVec.ofNat 32 ((a.toNat + n) % 0xFFFFFFFF)

/-- Frame a precedes frame b (R8). -/
def sfnBefore (a b : Sfn) : Bool := 1 ≤ sfnDiff b a && sfnDiff b a ≤ 0x7FFFFFFF

/-! ### Check codes -/

def crc32Bit (c : BitVec 32) : BitVec 32 :=
  if c.getLsbD 0 then (c >>> 1) ^^^ 0xEDB88320#32 else c >>> 1

def crc32Byte (c : BitVec 32) (b : Byte) : BitVec 32 :=
  (List.range 8).foldl (fun x _ => crc32Bit x) (c ^^^ b.zeroExtend 32)

/-- The CRC-32 of R316: IEEE polynomial, reflected, initial value and final XOR all ones. -/
def crc32 (l : List Byte) : BitVec 32 := ~~~(l.foldl crc32Byte 0xFFFFFFFF#32)

def crc16Bit (c : BitVec 16) : BitVec 16 := if c.getLsbD 15 then (c <<< 1) ^^^ 0x1021#16 else c <<< 1

def crc16Byte (c : BitVec 16) (b : Byte) : BitVec 16 :=
  (List.range 8).foldl (fun x _ => crc16Bit x) (c ^^^ (b.zeroExtend 16 <<< 8))

/-- The CRC-16 of R348: polynomial 0x1021, initial value all ones, not reflected, no final XOR. -/
def crc16 (l : List Byte) : BitVec 16 := l.foldl crc16Byte 0xFFFF#16

/-! ### Vectors indexed by a number -/

def vget {α : Type} {n : Nat} (v : Vector α n) (i : Nat) (d : α) : α := v[i]?.getD d

def vset {α : Type} {n : Nat} (v : Vector α n) (i : Nat) (x : α) : Vector α n := v.setIfInBounds i x

def vmod {α : Type} {n : Nat} (v : Vector α n) (i : Nat) (f : α → α) : Vector α n :=
  if h : i < n then v.set i (f v[i]) else v

/-- Apply `f` to the state for each member of a list, in order. -/
def forEach {α σ : Type} (l : List α) (f : α → σ → σ) (s : σ) : σ := l.foldl (fun s a => f a s) s

end Sys2Proof.Machine
end

