-- ==== Sys2Proof/Machine/Mem.lean ====
section
/-! DEFINITION. Sparse byte memory in one canonical form: cells with strictly rising addresses, none equal to what an
unlisted address reads as. `d` gives what an unlisted address reads as. -/
namespace Sys2Proof.Machine

/-- The byte at an address. -/
def readCell (d : Nat → Byte) : List Host.Cell → Nat → Byte
  | [], a => d a
  | (k, b) :: r, a => if a < k then d a else if a = k then b else readCell d r a

/-- Write one byte, keeping the canonical form. -/
def writeCell (d : Nat → Byte) : List Host.Cell → Nat → Byte → List Host.Cell
  | [], a, b => if b = d a then [] else [(a, b)]
  | (k, c) :: r, a, b =>
    if a < k then (if b = d a then (k, c) :: r else (a, b) :: (k, c) :: r)
    else if a = k then (if b = d a then r else (k, b) :: r)
    else (k, c) :: writeCell d r a b

/-- All addresses of the list exceed a bound, rising strictly, and no cell equals the default. -/
def cellsAbove (d : Nat → Byte) : Option Nat → List Host.Cell → Bool
  | _, [] => true
  | lo, (k, b) :: r => (match lo with | none => true | some l => decide (l < k)) && decide (b ≠ d k)
      && cellsAbove d (some k) r

/-- The canonical form of a sparse memory. -/
def Memory.wf (d : Nat → Byte) (m : List Host.Cell) : Bool := cellsAbove d none m

/-- `n` bytes from an address upwards. -/
def readCells (d : Nat → Byte) (m : List Host.Cell) (a n : Nat) : List Byte :=
  (List.range n).map fun i => readCell d m (a + i)

/-- Write a list of bytes from an address upwards. -/
def writeCells (d : Nat → Byte) : List Host.Cell → Nat → List Byte → List Host.Cell
  | m, _, [] => m
  | m, a, b :: r => writeCells d (writeCell d m a b) (a + 1) r

/-- Write the bytes whose enable is set. -/
def writeEnabled (d : Nat → Byte) : List Host.Cell → Nat → List (Option Byte) → List Host.Cell
  | m, _, [] => m
  | m, a, none :: r => writeEnabled d m (a + 1) r
  | m, a, some b :: r => writeEnabled d (writeCell d m a b) (a + 1) r

/-- What an unlisted byte of a configuration bank or of the firmware window reads as (14 R333). -/
def zeroByte (_ : Nat) : Byte := 0
/-- What an erased byte of the keeping array reads as (18 R404). -/
def erasedByte (_ : Nat) : Byte := 0xFF
/-- What an unlisted DRAM byte reads as: zero in the first epoch, and a free value after content became undefined
(log entry 6). -/
def dramByteOf (epoch a : Nat) : Byte := if epoch = 0 then 0 else Config.dramByte (2 * epoch) a

end Sys2Proof.Machine
end

