-- ==== Sys2Proof/Machine/State.lean ====
section
/-! DEFINITION. The state of the NY64 as plain data: every register, FIFO, buffer, counter, mode and pin that the
manual gives, each where its chapter puts it, with the model's own fields (the queue of waiting commands, the output
log, the free counter and the clock) marked. `State.reset` is the machine in OFF, before a release from reset. -/
namespace Sys2Proof.Machine

/-- Why the machine stops with a fault. -/
inductive Fault where
  /-- Raised by `execMemAccessIssue` for a line at or above the installed capacity: 10 R248 names no such DRAM byte.
  Safe: the manual gives no access there an effect. -/
  | lineOutsideCapacity
  deriving DecidableEq, Repr

/-- Why a command is refused. -/
inductive Refusal where
  /-- Raised by an arm of `exec` whose command has no meaning yet. Safe. -/
  | notModelled (mnemonic : String)
  deriving DecidableEq, Repr

/-- A character of a Skewaost line (R347, R348): Kx.y, or a data byte. -/
inductive SyncChar where
  | k (x y : Nat) | d (b : Byte)
  deriving DecidableEq, Repr

/-- What the device sends out of its pins and ports, in order: the model's own log of outputs. -/
inductive Emit where
  /-- A posted PCI Express write, with or without Relaxed Ordering (R299, R311). -/
  | hostWrite (ro : Bool) (addr : Nat) (bytes : List Byte)
  /-- A read of a command-ring entry or, under a smaller Max_Read_Request_Size, of a part of it (R280, R310). -/
  | hostRead (addr bytes : Nat)
  /-- An MSI-X message: its vector, and the address and data of its table entry (R300). -/
  | msix (vector addr : Nat) (data : Word)
  /-- The data returned to a host read of BAR0 or BAR2. -/
  | readData (bytes : List Byte)
  /-- A TCFG command word on tile t (R90). -/
  | tcfg (tile : Nat) (cmd : Word)
  /-- An LSYNC pulse of the given number of pixel clocks on tile t (R85). -/
  | lsync (tile : Nat) (clocks : Nat)
  /-- A counter-bias DAC, tap A false and tap B true, loads a code in the blanking interval (R120). -/
  | cbCode (tile : Nat) (tapB : Bool) (code : Nat)
  /-- The characters of a Skewaost message on a port (0 SYU, 1 to 4 SYD0 to SYD3; R348). -/
  | sync (port : Nat) (chars : List SyncChar)
  /-- A word sent on SPC_DO (R380). -/
  | spcWord (w : Word)
  /-- The words sent on SPT_DO in a FETCH frame (R386). -/
  | sptWords (ws : List Word)
  /-- The select of the serial master was released (R382). -/
  | spcRelease (sel : Nat)
  deriving DecidableEq, Repr

/-- A command of the timed queue with its parameter words; its header carries the frame it executes at (R53, R56). -/
structure Queued where
  hdr : Hdr
  opcode : Byte
  params : List Word
  /-- Its number in acceptance order. -/
  acc : Nat
  deriving DecidableEq, Repr

/-- One 64-word reply part on its path (R308). -/
structure ReplyPart where
  hdr : Hdr
  opcode : Byte
  status : BitVec 16
  part : Nat
  last : Bool
  words : List Word
  deriving DecidableEq, Repr

/-! ### Timing and the TICK block (02) -/

/-- The clock of the tick domain: nanoseconds since the firmware started, and at the last tick (model's own); and the
DEV_TIME count of R9, R442, R453. -/
structure Clock where
  now : Nat
  lastTick : Nat
  devTime : BitVec 64
  deriving DecidableEq, Repr

/-- The TICK registers (R70) with the state behind them. -/
structure TickBlk where
  running : Bool
  imaging : Bool
  replaying : Bool
  sfn : Sfn
  period : Word
  parkPeriod : Word
  tableTouch : Bool
  shadowDrop : Bool
  lateSeen : Bool
  overrunSeen : Bool
  ovrLane : BitVec 32
  ovrEng : BitVec 32
  ovrDma : BitVec 32
  ovrLast : Sfn
  lateCnt : BitVec 32
  replayOfs : BitVec 32
  /-- The timed queue in acceptance order (R55, R56); the number of the next packet accepted, and that of the command
  under way. -/
  queue : List Queued
  accNext : Nat
  accNow : Option Nat
  /-- Frame flags of the events of the present period, due in the next header (R57). -/
  lateNext : Bool
  missedNext : Bool
  skippedNext : Bool
  /-- Frame flags of frames k, k−1 and k−2 (R295), from the newest. -/
  flags : List (BitVec 32)
  /-- DEV_TIME at the ticks of frames k, k−1, k−2 (R294) and the period each was read under. -/
  stamps : List (BitVec 64 × Word)
  /-- Whether frames k, k−1, k−2 were read, with the SFN that outputs of the frame carry (R68). -/
  frames : List (Option Sfn)
  /-- Ticks since STOP (R60): the device becomes PARKED two ticks after it. -/
  stopping : Option Nat
  /-- Tiles whose frame a crossing FIFO of their lane has marked OVERRUN in the present period (R23). -/
  crossLanes : BitVec 64
  /-- Tiles marked OVERRUN by engines for the frame the engines process, and for the frame DMA delivers (R49). -/
  engOvrTiles : BitVec 64
  dmaOvrTiles : BitVec 64
  deriving DecidableEq, Repr

/-- The replay source (R66, R320). -/
structure ReplaySrc where
  hdr : Hdr
  rawBase : Nat
  rawStride : Nat
  sideBase : Nat
  n : Nat
  loop : Bool
  /-- Index of the recorded frame that the present frame plays, frames played, and frames played as LOS. -/
  at_ : Nat
  played : Nat
  badMagic : Nat
  firstSfn : Sfn
  /-- The side record of the frame being played, as read at its tick. -/
  side : List Byte
  deriving DecidableEq, Repr

/-! ### Tile ports (03) -/

inductive PortState where
  | off | prepare | ready | imaging | fault
  deriving DecidableEq, Repr

/-- BREF pin of R74: off, ramping up, held at CODE, ramping down. -/
inductive BrefPin where
  | off | rampUp | atCode | rampDown
  deriving DecidableEq, Repr

/-- CBA and CBB of R74: both legs at 0 V, CB_IDLE, or per-pixel codes. -/
inductive CbPin where
  | zero | idle | pixel
  deriving DecidableEq, Repr

/-- What a TCFG transaction is for (R81, R92). -/
inductive TcfgKind where
  | listWrite (entry : Nat) | listVerify (entry : Nat) | check (entry : Nat) | host
  deriving DecidableEq, Repr

/-- A TCFG transaction: its purpose, the retries already made, whether a line fault replaced it, and whether it is
not to be judged (a preparation restarted under it, R77). -/
structure TcfgTrans where
  kind : TcfgKind
  retries : Nat
  lineFault : Bool
  unjudged : Bool
  deriving DecidableEq, Repr

/-- A tile port (R74 to R101). -/
structure Port where
  state : PortState
  bref : BrefPin
  pclk : Bool
  cb : CbPin
  /-- Preparation (R81, R83): start tick and time, the time the pixel clock started, next list entry, whether its verify
  read is next, whether the park pulse of step 4 is sent, and the time at which step 5 is reached. -/
  kp : Sfn
  kpTicks : Nat
  kpTime : Nat
  clkAt : Nat
  entry : Nat
  verify : Bool
  prepDone : Bool
  doneAt : Nat
  trans : Option TcfgTrans
  /-- Retries still due, and those that came due in this TCFG window and follow in the next; whether a host read has
  run in this window (R91, R92). -/
  retryDue : List TcfgTrans
  retryLater : List TcfgTrans
  hostWin : Bool
  checkAt : Nat
  checkDone : Bool
  /-- Frames since the port became IMAGING after a mismatch (R93). -/
  sinceMismatch : Option Nat
  repreparing : Bool
  reprepNext : Bool
  faultNext : Bool
  /-- Causes of the frame in progress, causes that stand on every frame, causes that stand from the next tick, of the
  last frame, whether it had LOS, and whether the frame before it had. -/
  causeNow : BitVec 8
  causeStand : BitVec 8
  causeNext : BitVec 8
  los : Bool
  prevLos : Bool
  losCause : BitVec 8
  tstatLevel : Bool
  masked : Bool
  unmaskNext : Bool
  wholeRun : Nat
  activeRows : Nat
  transitions : Nat
  rows : Nat
  rstRun : Nat
  lastSummary : BitVec 8
  stuckSeen : Bool
  chatterSeen : Bool
  losSticky : BitVec 8
  chatterCnt : BitVec 32
  retryCnt : BitVec 16
  failCnt : BitVec 16
  mismatchCnt : BitVec 16
  reprepCnt : BitVec 16
  losCnt : BitVec 32
  hostAddr : BitVec 6
  hostReq : BitVec 6
  hostData : BitVec 16
  hostDone : Bool
  hostOk : Bool
  hostPending : Bool
  /-- The port entered IMAGING and no frame has been read since (R126, R142). -/
  firstFrame : Bool
  deriving DecidableEq, Repr

/-! ### Split readout (04) -/

/-- One tap: latched weight and injection factors, results held for the next tick, and the code its DAC presents. -/
structure Tap where
  w : BitVec 20
  ofs : BitVec 32
  gain : BitVec 32
  heldW : Option (BitVec 20)
  held : Option (BitVec 32 × BitVec 32)
  injOk : Bool
  /-- Whether the last injection since PREPARE was accepted; none before the first (R126). -/
  injPrev : Option Bool
  wcalSfn : Sfn
  dac : BitVec 12
  deriving DecidableEq, Repr

/-- A DAC_LINCAL under way (R125): per tap, whether named and the result word once measured. -/
structure Lincal where
  hdr : Hdr
  tile : Nat
  namedA : Bool
  namedB : Bool
  resA : Option Word
  resB : Option Word
  deriving DecidableEq, Repr

/-- The readout registers of a tile (R129) less those of its taps. -/
structure Rdo where
  tSub : BitVec 32
  heldSub : Option (BitVec 32)
  thOk : Bool
  thPrev : Option Bool
  stale : Bool
  /-- The substrate reading latched is older than one period (R126, R166). -/
  subStale : Bool
  sat : Bool
  wcalTapB : Bool
  wcalOk : Bool
  wcalForced : Bool
  rsat : BitVec 20
  conv : BitVec 20
  rail : BitVec 20
  wMeas : BitVec 20
  resid : BitVec 10
  wcalAcc : BitVec 16
  wcalRej : BitVec 16
  injRej : BitVec 16
  thRej : BitVec 16
  /-- Whether the blanking work of the period has run. -/
  blankDone : Bool
  deriving DecidableEq, Repr

/-! ### Correction lanes (05) -/

/-- What the lane does with the frame of the period. -/
inductive LaneMode where
  | idle | read | placeholder
  deriving DecidableEq, Repr

/-- A pixel in the line buffers (R140): its stage-4 result, whether G marks it bad. -/
structure PixY where
  y : BitVec 16
  bad : Bool
  deriving DecidableEq, Repr

/-- The running counts and sums of a frame (R116, R147, R158, R159). -/
structure Acc where
  rsat : Nat
  conv : Nat
  rail : Nat
  nValid : Nat
  nInvalid : Nat
  min : BitVec 16
  max : BitVec 16
  bad : Nat
  norep : Nat
  clipLo : Nat
  clipHi : Nat
  motion : Nat
  sum : Nat
  hist : List Nat
  /-- Blind sums and counts of each column (R134). -/
  blindS : List Int
  blindN : List Nat
  /-- Variance sums of R158. -/
  vn : Nat
  v1 : Int
  v2 : Nat
  deriving DecidableEq, Repr

/-- The lane's work on the frame of the present period: empty at every tick (R38). -/
structure LaneWork where
  mode : LaneMode
  held : Bool
  fresh : Bool
  row : Nat
  /-- Counter-bias words fetched ahead of the row, at most 512 (R108). -/
  cbBuf : List (BitVec 16)
  /-- A measurement of the quadrant's supply up to this tile's readout end lay outside the limit (R475). -/
  supplyBad : Bool
  done : Bool
  stopped : Bool
  late : Bool
  overrun : Bool
  staleHk : Bool
  /-- Column offsets B[c] once row 7 has ended, the blind failure of R135. -/
  b : List Int
  blindFail : Bool
  /-- X′ of the blind rows read, none where R was a saturation code, oldest row first (R136). -/
  blind : List (List (Option Int))
  /-- Line buffers: the two rows before the next one (R140). -/
  prev2 : List PixY
  prev1 : List PixY
  acc : Acc
  deriving DecidableEq, Repr

/-- A table of a tile: its current base, and the write base of the frame while a save is pending (R146). -/
structure TblBase where
  base : BitVec 64
  write : BitVec 64
  deriving DecidableEq, Repr

/-- The lane registers of a tile (R150) with its table bases. -/
structure Lane where
  work : LaneWork
  housing : BitVec 32
  dt : BitVec 32
  status : BitVec 8
  blindOkA : Bool
  blindOkB : Bool
  saveFail : Bool
  corrSlot : BitVec 8
  meanA : BitVec 32
  meanB : BitVec 32
  bad : BitVec 20
  norep : BitVec 20
  clipLo : BitVec 20
  clipHi : BitVec 20
  motion : BitVec 20
  heldCnt : BitVec 32
  blindFailCnt : BitVec 32
  tblLate : BitVec 32
  cb : TblBase
  o : BitVec 64
  g : BitVec 64
  d : BitVec 64
  t : TblBase
  /-- The next frame read is fresh (R142). -/
  freshNext : Bool
  /-- The previous frame was read and corrected, and had SAT or the blind failure (R476); it was HELD (R142). -/
  prevRead : Bool
  prevSat : Bool
  prevBlind : Bool
  prevHeld : Bool
  /-- The previous frame was written under the present set (R143). -/
  prevSameSet : Bool
  /-- Status bytes of frames k−1 and k−2 for the streams (R149), newest first. -/
  statusPipe : List (BitVec 8)
  deriving DecidableEq, Repr

/-! ### Drift and flat field (06) -/

inductive CalPhase where
  | idle | close | accum | compute | open | traverse
  deriving DecidableEq, Repr

/-- The flat-field unit of a tile and its registers (R156 to R171). -/
structure Cal where
  phase : CalPhase
  index : Nat
  slot : Nat
  due : Bool
  dueAt : Sfn
  requested : Bool
  abandoning : Bool
  lastCause : BitVec 4
  abandonSeen : Bool
  k : BitVec 7
  kUsed : Nat
  tcal : BitVec 32
  tcalSet : Bool
  tcalHeld : BitVec 32
  dueSfn : Sfn
  lastSfn : Sfn
  doneCnt : BitVec 16
  abandCnt : BitVec 16
  varC : BitVec 32
  varO : BitVec 32
  spread : BitVec 32
  level : BitVec 32
  poison : BitVec 20
  target : BitVec 64
  /-- Running figures of the calibration: VAR of its last CLOSE and OPEN frames, n_0, ΣV_0, max and min V_0, ΣT_f,
  poisoned pixels, L and SPREAD, the first HELD frame, whether it reached COMPUTE, the COMPUTE tick and its time. -/
  curVarC : BitVec 32
  curVarO : BitVec 32
  n0 : Nat
  sv0 : Int
  max0 : Int
  min0 : Int
  stf : Nat
  poisoned : Nat
  curLevel : Int
  curSpread : Nat
  firstHeld : Sfn
  computed : Bool
  computeSfn : Sfn
  computeTime : BitVec 64
  /-- A calibration completed since the port entered IMAGING (R166.3); one has ended since the block's reset. -/
  doneSince : Bool
  ended : Bool
  /-- The 256-frame hold-off of R166 is in force. -/
  holdoff : Bool
  /-- The frame of the period is finished, with LOS, OVERRUN, and its VAR (R157). -/
  frameDone : Bool
  frameLos : Bool
  frameOvr : Bool
  frameVar : BitVec 32
  /-- A drive fault stood on the tile's coil as the frame ended, whatever this tick clears (R164, R185). -/
  faultHeld : Bool
  /-- The cause of the abandonment under way (R165). -/
  causeNext : BitVec 4
  deriving DecidableEq, Repr

/-- A SHUTTER_CAL under way (R167, R168): its number in acceptance order, the tiles still awaited and the records of
those done, in order of completion. -/
structure CalReq where
  hdr : Hdr
  acc : Nat
  awaited : BitVec 64
  records : List (Nat × List Word)
  deriving DecidableEq, Repr

/-- A tile: port, taps, readout, lane and flat-field unit. -/
structure Tile where
  port : Port
  tapA : Tap
  tapB : Tap
  rdo : Rdo
  lane : Lane
  cal : Cal
  deriving DecidableEq, Repr

/-- A quadrant (01 R24, R475; 03 R100; 04 R123). -/
structure Quad where
  locked : Bool
  /-- Powered down in LOW, until the PLL has relocked (R430, R431). -/
  down : Bool
  mv : BitVec 16
  temp : Word
  supplyOk : Option Bool
  /-- A measurement of the period, before readout end, lay outside the limit (R475). -/
  supplyBad : Bool
  ptr : BitVec 5
  /-- The quadrant has measured a tap in the present blanking interval. -/
  measured : Bool
  deriving DecidableEq, Repr

/-! ### Shutter drive (07) -/

inductive CoilState where
  | open | wait | pullin | hold | release | gap | fault
  deriving DecidableEq, Repr

/-- A request to a coil: close or open, and the SHUTTER_MOVE that issued it, if one did (R177, R186). -/
structure CoilReq where
  close : Bool
  move : Option Nat
  deriving DecidableEq, Repr

/-- A coil and its registers (R176 to R189). -/
structure Coil where
  state : CoilState
  /-- Requests issued at a tick and not yet taken, oldest first (R56, R177). -/
  requests : List CoilReq
  /-- The SHUTTER_MOVE whose request was taken last; none where the flat-field unit asked (R186). -/
  move : Option Nat
  /-- A close request to be taken again when the release ends; a retry that follows the release. -/
  closeAgain : Bool
  retryAfter : Bool
  /-- The fault standing; whether a group fault is among those latched since the last clearing; what follows at the next
  sample, FAULT or the release (R183, R184). -/
  fault : BitVec 4
  groupLatched : Bool
  faultAfter : Bool
  releaseAfter : Bool
  /-- Level of SH_LSG (R173, R176). -/
  lsg : Bool
  retry : BitVec 3
  /-- The present pull-in: samples taken, suspended, moved, and the dip test's codes, sum, maximum (R181). -/
  n : Nat
  suspended : Bool
  moved : Bool
  opened : Bool
  codes : List Nat
  fmax : Option Nat
  filt : BitVec 12
  deferred : Bool
  result : BitVec 2
  newResult : Bool
  stateByte : BitVec 8
  dipByte : BitVec 8
  dipT : BitVec 20
  actCnt : BitVec 32
  faultCnt : BitVec 16
  retryCnt : BitVec 16
  clearNext : Bool
  /-- Lifetime totals kept for the coil counter rings (18 R407, R408). -/
  lifeAct : BitVec 32
  lifeFaults : BitVec 16
  lifeRetries : BitVec 16
  deriving DecidableEq, Repr

/-- A shutter group (R180, R183, R189). -/
structure Group where
  raw : BitVec 12
  hsg : Bool
  /-- Sample of the chopping period, none while the high-side switch is idle. -/
  chop : Option Nat
  /-- The HSG turns off for the rest of the chopping period, as of the last sample and as of the one before it. -/
  hsgOff : Bool
  offWas : Bool
  fullRun : Nat
  deriving DecidableEq, Repr

/-- A SHUTTER_MOVE under way (R186): its number, its direction, the coils that have not yet taken its request, and what
its pull-ins have recorded, as tile, result and DIP_T (R321). -/
structure MoveReq where
  id : Nat
  hdr : Hdr
  mask : BitVec 64
  close : Bool
  waiting : BitVec 64
  results : List (Nat × Nat × Nat)
  deriving DecidableEq, Repr

structure Shut where
  coils : Vector Coil 64
  groups : Vector Group 16
  deferCnt : BitVec 32
  /-- Samples taken on the grid since the tick of SFN 0, and the one at which a coil last entered PULLIN. -/
  sample : Nat
  lastPullin : Option Nat
  moves : List MoveReq
  /-- The number of the next SHUTTER_MOVE; the model's own. -/
  nextMove : Nat
  deriving DecidableEq, Repr

/-! ### Stream engines (08) -/

/-- A stream engine: local memory as the bytes written since the period began, the slot under way, its registers. -/
structure Eng where
  lmem : List (Nat × Byte)
  lmemEpoch : Nat
  /-- Index in the engine's slot list of the next slot; the running slot of the Piste, its pass and operator. -/
  next : Nat
  running : Option Nat
  pass : Nat
  op : Nat
  opsEnded : Bool
  stopped : Bool
  slotReg : BitVec 12
  finishNs : BitVec 32
  /-- Finish of the last slot that ended in the present period, and the bytes the last producer wrote to a buffer
  (R200, R209). -/
  finishNow : Nat
  produced : List (Nat × Nat)
  lateMax : BitVec 32
  abandonedNow : Bool
  faultCause : BitVec 4
  faultSlot : BitVec 12
  faultValid : Bool
  faultSfn : Sfn
  abandonCnt : BitVec 16
  faultCnt : BitVec 16
  eccCorr : BitVec 16
  eccUncorr : BitVec 16
  runOvf : BitVec 16
  clOvf : BitVec 16
  /-- RUN_OVF and CL_OVF have counted the running slot (R207, R216). -/
  runCapped : Bool
  clCapped : Bool
  dmaBytes : BitVec 64
  dmaNow : Nat
  lateSeen : Bool
  abandonSeen : Bool
  faultSeen : Bool
  eccSeen : Bool
  capSeen : Bool
  ovfNow : Bool
  deriving DecidableEq, Repr

/-- How a slot of the Piste ended in the present period (R42, R214, R215). -/
inductive SlotFate where
  | finished | faulted | abandoned
  deriving DecidableEq, Repr

/-- The engine period of a frame: the fate of each slot that has ended, and the event records appended, as slot and
bytes (R230). -/
structure EngPeriod where
  active : Bool
  fates : List (Nat × SlotFate)
  events : List (Nat × List Byte)
  deriving DecidableEq, Repr

/-! ### The hold buffer (09) -/

inductive HoldState where
  | none | recording | pending | frozen
  deriving DecidableEq, Repr

/-- A recorded frame (R238): the index entry the device keeps, and its pieces in ascending slot and pass order as
offset and length. -/
structure HoldFrame where
  sfn : Sfn
  flags : BitVec 32
  start : Nat
  bytes : Nat
  pieces : Nat
  no : Nat
  /-- FRAME_FLAGS and PERIOD_NS of the frame, for its header (R294). -/
  frameFlags : BitVec 32
  period : Word
  deriving DecidableEq, Repr

structure Hold where
  state : HoldState
  delivering : Bool
  incompleteSeen : Bool
  overSeen : Bool
  endSfn : Sfn
  tailSfn : Sfn
  headSfn : Sfn
  framesReg : BitVec 32
  cursor : BitVec 64
  incompleteCnt : BitVec 16
  overCnt : BitVec 16
  /-- Frames recorded since the buffer became active, and those retained, oldest first. -/
  count : Nat
  retained : List HoldFrame
  /-- The frame being recorded in the present engine period: H at its first piece, pieces so far, charged lines, and
  the pieces placed as (slot, pass, start, length). -/
  nowStart : Nat
  nowCharged : Nat
  nowPieces : List (Nat × Nat × Nat × Nat)
  /-- The frame the engines process is not recorded: the record began after it (R240, R241). -/
  skipNow : Bool
  /-- Pieces of the retained frames as (frame number, slot, pass, start, length). -/
  pieces : List (Nat × Nat × Nat × Nat × Nat)
  waiting : List Hdr
  /-- Delivery (R301): frames left, the pieces of the frame already sent, the part index, and bytes of the period. -/
  toSend : Nat
  piecesSent : Nat
  part : Nat
  sentNow : Nat
  /-- A part has had to wait in the present period: it is retried in the next (R301). -/
  waitNow : Bool
  /-- Frames whose index entries wait for the controller to serve again, as index and frame (R238, R241). -/
  indexDue : List HoldFrame
  deriving DecidableEq, Repr

/-! ### Memory (10, 11) -/

/-- DRAM: the bytes that differ from what an unlisted address reads as, addresses strictly rising; the epoch counts the
events that made all content undefined (R250, R271). -/
structure Dram where
  cells : List (Nat × Byte)
  epoch : Nat
  deriving DecidableEq, Repr

/-- One entry of the command trace (R265), with the time it was issued. -/
structure TraceEnt where
  cmd : BitVec 4
  channel : BitVec 3
  sc : Bool
  rk : Bool
  bank : BitVec 4
  col : BitVec 5
  port : BitVec 4
  row : BitVec 18
  time : Nat
  deriving DecidableEq, Repr

/-- A requester port (R255, R256). -/
structure ReqPort where
  credit : Int
  lines : BitVec 32
  linesNow : BitVec 32
  wait : BitVec 32
  deriving DecidableEq, Repr

/-- A request at the controller (R251, R257): whether it is a line of a BAR2 access of the host, whether it writes into a
table in use (02 R65), and for the host's the checks of the words read. -/
structure PendReq where
  req : MemReq
  host : Bool
  touch : Bool
  hits : List EccHit
  deriving DecidableEq, Repr

/-- A BAR2 read of the host that waits for its lines (12 R286, R287): address, length within the capacity, lines left,
and the bytes read so far; zeros follow for what lies past the capacity. -/
structure HostRead where
  addr : Nat
  len : Nat
  left : Nat
  got : List Byte
  past : Nat
  deriving DecidableEq, Repr

/-- A MEM_TRAIN under way (R274, R275); of a full one, the rate it starts at, and whether it may step down. -/
structure TrainRun where
  hdr : Hdr
  full : Bool
  mask : BitVec 8
  eyeMin : Nat
  left : BitVec 8
  rate : Nat
  steps : Bool
  deriving DecidableEq, Repr

/-- A MEM_DIAG under way (R276, R277). -/
structure DiagRun where
  hdr : Hdr
  mode : BitVec 2
  pattern : BitVec 2
  invertAlt : Bool
  passes : Nat
  mask : BitVec 8
  start : Nat
  length : Nat
  seed : Word
  deriving DecidableEq, Repr

structure Memc where
  trained : Bool
  frozen : Bool
  mapLock : Bool
  quiet : Bool
  selfRefresh : Bool
  capacity : BitVec 2
  ranks : Bool
  mts : BitVec 16
  /-- The data rate that the devices were last trained at (R244, R478). -/
  rate : BitVec 16
  hashBad : Bool
  mapDrop : Bool
  frozenAccess : Bool
  forcedRef : Bool
  hash : Vector (BitVec 30) 9
  frzCause : BitVec 2
  frzChannel : BitVec 3
  frzPort : BitVec 4
  frzSyndrome : BitVec 8
  frzWord : BitVec 3
  frzSfn : Sfn
  frzAddr : BitVec 64
  frzCnt : BitVec 32
  frzTrace : List TraceEnt
  ports : Vector ReqPort 12
  reqs : List PendReq
  /-- BAR2 reads in the order of their arrival, the first of them being served. -/
  hostReads : List HostRead
  /-- Port of each class served last (R257). -/
  lastPort : Vector (Fin 12) 3
  /-- DIAG is served while FROZEN (R263). -/
  diagServed : Bool
  quietOpenedAt : Nat
  quietLen : Nat
  /-- A sweep of the present window has been made (R275). -/
  sweptWindow : Bool
  train : List TrainRun
  diag : List DiagRun
  /-- Periodic retraining (R275): channels in rotation, frames between sweeps, EYE_MIN, the next channel, frames since
  the last sweep. -/
  perMask : BitVec 8
  perPeriod : Nat
  perEyeMin : Nat
  perNext : Nat
  perSince : Nat
  /-- The channel swept in the present quiet window. -/
  sweeping : Option (Fin 8)
  sweepPeriodic : Bool
  /-- Words that lanes and engines wrote in the present period, with the bytes they replaced, newest first (R261). -/
  undo : List (Nat × List Byte)
  deriving DecidableEq, Repr

structure Memch where
  trained : Bool
  freezeSrc : Bool
  corrSeen : Bool
  corr : BitVec 32
  uncorr : BitVec 32
  capar : BitVec 32
  corrAddr : BitVec 64
  rmw : BitVec 32
  forced : BitVec 32
  /-- Debt and banks left in the round of sub-channel and rank 2 × sc + rk (R252, R253). -/
  debt : Vector Int 4
  round : Vector (BitVec 16) 4
  rawWait : BitVec 32
  range : BitVec 4
  trefipb : BitVec 16
  trace : List TraceEnt
  busy : Bool
  periodic : Bool
  helperDrop : Bool
  lostSeen : Bool
  rdMin : BitVec 7
  wrMin : BitVec 7
  caEye : BitVec 7
  verdict : BitVec 2
  clipped : Bool
  lost : Bool
  trnSfn : Sfn
  pattern : BitVec 2
  invertAlt : Bool
  seed : Word
  eyeRd : Vector (BitVec 8) 24
  eyeWr : Vector (BitVec 8) 24
  cmpErr : Vector (BitVec 16) 24
  cmpAddr : BitVec 64
  cmpLanes : BitVec 24
  cmpWord : BitVec 3
  cmpExp : BitVec 64
  cmpAct : BitVec 64
  user : Vector Word 16
  /-- Read capture and write launch delay of each lane, in 1/64 UI, and the command/address delay (R267). -/
  rdDelay : Vector Int 24
  wrDelay : Vector Int 24
  caDelay : Int
  deriving DecidableEq, Repr

/-! ### Host port (12) and Caravan (13) -/

/-- The delivery in progress on a stream (R297, R299): the frame, whether its extent was placed, where, and its
length. -/
structure Delivery where
  sfn : Sfn
  start : Nat
  len : Nat
  deriving DecidableEq, Repr

structure Stream where
  prod : Word
  cons : Word
  dropCnt : Word
  w : BitVec 64
  consCur : BitVec 64
  consCurLo : Word
  waiting : Bool
  dropSince : Word
  sinceIrq : Nat
  entries : Nat
  delivery : Option Delivery
  /-- The stream of the period's frame is posted or dropped; for EVENT, that of the frame the engines process. -/
  doneNow : Bool
  /-- The stream restarted at a swap and delivers nothing of the frames read before it (R303), with the ticks left. -/
  hush : Nat
  deriving DecidableEq, Repr

structure HostPort where
  linkUp : Bool
  speed : BitVec 3
  width : BitVec 5
  bme : Bool
  mse : Bool
  roEn : Bool
  msixEn : Bool
  funcMask : Bool
  d3hot : Bool
  mps : BitVec 2
  /-- Max_Read_Request_Size; the enables of ECRC and the sticky status words of AER (R280, R288). -/
  mrrs : BitVec 3
  ecrcGen : Bool
  ecrcCheck : Bool
  aerUncorr : Word
  aerCorr : Word
  /-- The addresses in BAR0 with BAR1, and in BAR2 with BAR3 (R284, R286). -/
  bar0 : BitVec 64
  bar2 : BitVec 64
  wasDown : Bool
  flr : Bool
  cfgReady : Bool
  addrMiss : Bool
  bar2Miss : Bool
  linkDownSeen : Bool
  linkChangeSeen : Bool
  dropSeen : Bool
  consBad : Bool
  missOfs : BitVec 26
  missWrite : Bool
  missBar0 : BitVec 16
  missBar2 : BitVec 16
  tickIrqDiv : BitVec 16
  linkDownCnt : BitVec 16
  linkChangeCnt : BitVec 16
  streams : Vector Stream 32
  /-- MSI-X table words that differ from their reset value, by word index, and the PBA. -/
  msixTable : List (Nat × Word)
  pba : BitVec 512
  deriving DecidableEq, Repr

structure Mbox where
  cmd : Vector Word 64
  rpl : Vector Word 64
  busy : Bool
  done : Bool
  /-- Parts still to be shown (R313). -/
  parts : List ReplyPart
  deriving DecidableEq, Repr

/-- A TABLE_LOAD whose region is being checked (R318). -/
structure LoadCheck where
  q : Queued
  eff : Word
  region : Nat × Nat
  deriving DecidableEq, Repr

structure Cmdq where
  enable : Bool
  irqEvery : BitVec 13
  cfgBad : Bool
  tailBad : Bool
  consBad : Bool
  rplLost : Bool
  mboxBusy : Bool
  fetchErr : Bool
  ringSize : BitVec 13
  ringBase : BitVec 64
  tail : Word
  head : Word
  rplSize : BitVec 13
  rplBase : BitVec 64
  rplProd : Word
  rplCons : Word
  rplWb : BitVec 64
  lostCnt : BitVec 32
  rejAccept : BitVec 16
  rejExec : BitVec 16
  execCnt : BitVec 32
  mbox : Mbox
  spt : Mbox
  /-- The parts held, at most 64, and those that wait for a place among them (R311). -/
  held : List ReplyPart
  behind : List ReplyPart
  fetching : Bool
  sinceIrq : Nat
  checks : List LoadCheck
  deriving DecidableEq, Repr

/-! ### Configuration sets (14) -/

/-- A commit under way (R334, R338). -/
structure Commit where
  hdr : Hdr
  bytes : Nat
  crc : Word
  against : Nat
  changed : Bool
  trained : Bool
  /-- The trained rate in MT/s and the usable payload rate of the link in MB/s at the effective tick (R334, R281). -/
  mts : Nat
  rate : Nat
  deriving DecidableEq, Repr

/-- A TABLE_SAVE under way (R146, R319): the command and its tick, the table word, the base of the saved copy, the
destination, whether it is a copy through CTRL, and whether a CRC is asked for. -/
structure Save where
  hdr : Hdr
  at_ : Sfn
  table : Word
  base : BitVec 64
  dest : BitVec 64
  /-- Length of the table. -/
  bytes : Nat
  copy : Bool
  crc : Bool
  deriving DecidableEq, Repr

structure CfgBanks where
  active : List (Nat × Byte)
  shadow : List (Nat × Byte)
  hasActive : Bool
  /-- Counts the swaps, so that a commit knows the set it was made against (R58). -/
  generation : Nat
  commit : Option Commit
  committed : Bool
  committedCrc : Word
  committedBytes : Nat
  committedAgainst : Nat
  activeCrc : Word
  activeSfn : Sfn
  lastReason : Byte
  /-- Ticks since the active set became active (R133), and those of the former set at the swap (R58). -/
  n : Nat
  prevN : Nat
  hadPrev : Bool
  locked : Bool
  /-- A parity error stands in the active bank (R425). -/
  parityBad : Bool
  /-- Current bases of named DRAM buffers and their write base in the present period (R146, R318, R319). -/
  dbufBase : List (Nat × TblBase)
  /-- The bases that buffers take at the next tick: a TABLE_LOAD or TABLE_SAVE of this tick serves the slots that
  process its frame, in the period after it (R318, R319). -/
  dbufNext : List (Nat × TblBase)
  saves : List Save
  deriving DecidableEq, Repr

/-! ### Housekeeping converter (16) -/

/-- What a converter does (R372, R374): nothing, waits an entry's delay, or converts. -/
inductive HkPhase where
  | idle | delay | convert
  deriving DecidableEq, Repr

structure HkConv where
  phase : HkPhase
  entry : Nat
  /-- Samples kept of the entry: their count and sum. -/
  taken : Nat
  sum : Nat
  /-- Injected entries still to convert at this tick, in order. -/
  inject : List Nat
  /-- The tick found a conversion of the table entry under way: it ends before the injected ones begin (R374). -/
  cut : Bool
  doneTable : Bool
  ofs : BitVec 16
  gain : BitVec 16
  calOk : Bool
  deriving DecidableEq, Repr

structure Hkadc where
  passRunning : Bool
  pending : Bool
  calibrating : Bool
  calRequested : Bool
  calReply : List Hdr
  /-- The tick source has fired at the tick under way (R373). -/
  trigNow : Bool
  /-- The injected conversions of the last tick were skipped, and counted (R367). -/
  skipped : Bool
  /-- The table restarts at the next tick (R376). -/
  restartNext : Bool
  c0 : HkConv
  c1 : HkConv
  missedSeen : Bool
  skipSeen : Bool
  openSeen : Bool
  calRejSeen : Bool
  selfcalDrop : Bool
  missedCnt : BitVec 32
  skipCnt : BitVec 32
  passCnt : BitVec 32
  openMask : BitVec 48
  calSfn : Sfn
  slots : Vector (Word × Sfn) 64
  /-- Written in the present period (R375). -/
  fresh : BitVec 64
  latched : Vector Word 64
  stale : BitVec 64
  deriving DecidableEq, Repr

/-! ### Serial ports (17) -/

structure Spc where
  busy : Bool
  stalled : Bool
  sel : BitVec 4
  asserted : Bool
  left : Nat
  hold : Bool
  aborting : Bool
  resetting : Bool
  tx : List Word
  rx : List Word
  cmdDrop : Bool
  txDrop : Bool
  doneCnt : BitVec 16
  abortedCnt : BitVec 16
  cfg0 : Vector Word 16
  cfg1 : Vector Word 16
  deriving DecidableEq, Repr

structure Spt where
  selected : Bool
  busy : Bool
  done : Bool
  miss : Bool
  bits : BitVec 6
  cpol : Bool
  cpha : Bool
  lsbFirst : Bool
  busyDrop : Bool
  framing : BitVec 16
  badcmd : BitVec 16
  words : BitVec 5
  buffer : List Word
  deriving DecidableEq, Repr

/-! ### Keeping store (18) -/

/-- Who asked for a keeping-store work item, and what it answers (R323, R409). -/
inductive KeepWork where
  | read (h : Hdr) (addr bytes : Nat)
  | write (h : Hdr) (addr : Nat) (data : List Byte)
  | append (h : Hdr) (ring : Nat) (payload : List Byte)
  | ringRead (h : Hdr) (ring age : Nat)
  | protect (h : Hdr) (bp : BitVec 2)
  | scrub (h : Hdr)
  /-- A write the device requests: an append to a ring (R170, R408). -/
  | own (ring : Nat) (payload : List Byte)
  deriving DecidableEq, Repr

/-- The page writes left of the item at the head of the queue, as page and bytes merged at their offsets (R393), and its
result. Page 4,096 stands for the status page, its content being BP (R402). -/
structure KeepBusy where
  pages : List (Nat × List (Nat × Byte))
  /-- The page under write: journal content is the merged page. -/
  now : Option (Nat × List Byte)
  seq : Word
  slot : Nat
  /-- A scrub's counts (R401): groups corrected on pages it rewrites, and groups uncorrectable. -/
  corrected : Nat
  uncorrectable : Nat
  deriving DecidableEq, Repr

structure KeepRing where
  seq : Word
  slot : BitVec 8
  empty : Bool
  valid : BitVec 9
  deriving DecidableEq, Repr

structure Keep where
  array : List (Nat × Byte)
  /-- Groups whose check cells show an error: address, and whether it can be corrected (R400). -/
  badGroups : List (Nat × Bool)
  bp : BitVec 2
  lifeWrites : Nat
  /-- The journal page last in use: marker, CRC good, written since its marker was cleared, page, content (R398). -/
  jMarker : Bool
  jGood : Bool
  jWritten : Bool
  jPage : BitVec 12
  jData : List Byte
  jStatus : Bool
  ready : Bool
  settled : Bool
  vkeepOk : Bool
  dupseq : Bool
  corrSeen : Bool
  uncorrSeen : Bool
  protectHit : Bool
  vkeepLow : Bool
  action : BitVec 2
  page : BitVec 12
  corrCnt : BitVec 16
  uncorrCnt : BitVec 16
  writeCnt : BitVec 32
  refVkeep : BitVec 16
  refProtect : BitVec 16
  dupRing : BitVec 8
  dupSlot : BitVec 8
  vkeepMv : BitVec 16
  rings : Vector KeepRing 80
  /-- Slots treated as invalid (R405.4), as ring and slot. -/
  voided : List (Nat × Nat)
  queue : List KeepWork
  current : Option KeepBusy
  scrubbing : Bool
  retryWait : Bool
  /-- JRNL_BAD of the last settlement is to be raised once the main die runs (R398). -/
  badDue : Bool
  /-- Nanoseconds since the last counter append, and the lifetime totals outside OFF and in IMAGING (R408). -/
  appendAge : Nat
  onNs : Nat
  imagingNs : Nat
  powerUps : Word
  freezes : Word
  completions : Word
  discards : Word
  /-- Lifetime calibration counts of each tile. -/
  calCount : Vector Word 64
  calAband : Vector Word 64
  /-- Error log: errors of each class since its last entry, and the time of that entry (R408). -/
  logCount : Vector Word 3
  logAt : Vector (Option Nat) 3
  deriving DecidableEq, Repr

/-! ### Skewaost (15) -/

inductive SyncState where
  | root | locked | holdover
  deriving DecidableEq, Repr

/-- A message judged for rejoin (R356): its candidate tick in 1/8 ns, SFN, period and depth. -/
structure RejoinMsg where
  t : Int
  sfn : Sfn
  period : Nat
  deriving DecidableEq, Repr

/-- A tree assignment (R360): who started it, the next ID, the port awaited, the count so far, truncation. -/
structure Assign where
  hdr : Option Hdr
  next : Nat
  port : Option Nat
  count : Nat
  truncated : Bool
  deriving DecidableEq, Repr

structure Sync where
  state : SyncState
  follow : Bool
  cause : BitVec 3
  depth : BitVec 4
  up : BitVec 5
  aboveHoldover : Bool
  dnEn : BitVec 4
  id : BitVec 12
  idNext : Option (BitVec 12)
  d : BitVec 20
  dValid : Bool
  meas : List Nat
  rejects : Nat
  reqSeq : BitVec 16
  reqTime : Option Int
  trim : BitVec 32
  phaseErr : BitVec 32
  early : BitVec 32
  earlyNow : Bool
  miss : BitVec 16
  offwin : BitVec 16
  crc : BitVec 16
  code : BitVec 16
  slip : BitVec 16
  holdover : BitVec 16
  slipSfn : Sfn
  earlySeen : Bool
  holdoverSeen : Bool
  slipSeen : Bool
  periodMismatch : Bool
  depthExceeded : Bool
  freqLimit : Bool
  assignTimeout : Bool
  dlyReject : Bool
  /-- T_prev in 1/8 ns, the tick placed by an accepted message, and whether its message had HOLDOVER set. -/
  tPrev : Int
  placed : Option Int
  placedHoldover : Bool
  missedRun : Nat
  periodRun : Nat
  depthRun : Nat
  limitRun : Nat
  enterNext : Option (BitVec 3)
  rejoin : List RejoinMsg
  /-- A rejoin placed: the tick T_up, S_up, and whether it slips. -/
  adopt : Option (Int × Sfn × Bool)
  slipFrames : List Sfn
  assign : Option Assign
  deriving DecidableEq, Repr

/-! ### Errors (19), power and startup (20) -/

/-- Capture, count, SFN and INFO words of a class (R413, R426). -/
structure ErrClass where
  code : Byte
  unit : Byte
  aux : Byte
  valid : Bool
  count : BitVec 24
  more : Bool
  ovf : Bool
  sfn : Sfn
  info : Word
  total : Word
  deriving DecidableEq, Repr

/-- An error as its rule raises it (R412). -/
structure ErrRec where
  cls : Nat
  code : Byte
  unit : Byte
  aux : Byte
  info : Word
  deriving DecidableEq, Repr

structure Err where
  cls : Vector ErrClass 3
  /-- FROZEN_CAUSE (R426); the cause due at the next tick; the state to return to; STOP while FROZEN (R422). -/
  frozenCause : BitVec 2
  freezeNext : BitVec 2
  frozenFromImaging : Bool
  stopWhileFrozen : Bool
  /-- Errors of the tick under way, gathered to be raised in the order of R414; none between steps (the model's own). -/
  batch : Option (List ErrRec)
  deriving DecidableEq, Repr

inductive Power where
  | off | parked | imaging | frozen | low
  deriving DecidableEq, Repr

inductive BootPhase where
  | rom | flash | hostWait | verify | train | hkcal | ready | failed
  deriving DecidableEq, Repr

structure Dev where
  power : Power
  transition : Option Hdr
  phase : BootPhase
  failCause : BitVec 3
  fromHost : Bool
  bootsel : BitVec 2
  hostAttempts : BitVec 8
  fwVersion : Word
  porCause : Bool
  brownoutCause : Bool
  resetNCause : Bool
  perstCause : Bool
  /-- Causes of the reset under way, set in DEV_RESET_CAUSE at release (R443). -/
  pend : BitVec 4
  fwDrop : Bool
  sigFailSeen : Bool
  fwWindow : List (Nat × Byte)
  released : Bool
  coreOk : Bool
  sramOk : Bool
  io18Ok : Bool
  lowCnt : Word
  qtempOver : Bool
  /-- MAX_MTS of the boot image (R271) and its subsystem IDs (R283, R439). -/
  maxMts : BitVec 16
  subsysVid : BitVec 16
  subsysId : BitVec 16
  deriving DecidableEq, Repr

/-- The installed DRAM: 16, 32 or 64 GiB (10 R243). -/
inductive DramSize where
  | gib16 | gib32 | gib64
  deriving DecidableEq, Repr

/-- What the board and the part fix, and no step changes: the DRAM installed, one or two ranks a channel (10 R243), and
the GRADE fuse of DEV_ID, false NY64-C and true NY64-X (20 R443). DESIGN CHOICE at reset: log entries 3 and 4. -/
structure Board where
  dram : DramSize
  twoRanks : Bool
  gradeX : Bool
  deriving DecidableEq, Repr

/-- The state of the NY64. -/
structure State where
  /-- Commands waiting, first in first out. -/
  pending : List Instr
  /-- Outputs sent, newest first (the model's own log). -/
  out : List Emit
  /-- The free counter: advanced whenever a free value is taken (the model's own). -/
  free : Nat
  board : Board
  clock : Clock
  dev : Dev
  err : Err
  tick : TickBlk
  replay : Option ReplaySrc
  /-- The side records written beside the RAW24 frames of the raw ring (R66, R67), by slot: the manual names no address
  for them (log entry 12). -/
  sides : List (Nat × List Byte)
  cmdq : Cmdq
  host : HostPort
  hold : Hold
  memc : Memc
  memch : Vector Memch 8
  dram : Dram
  cfg : CfgBanks
  tiles : Vector Tile 64
  quads : Vector Quad 4
  lincals : List Lincal
  calReqs : List CalReq
  shut : Shut
  engs : Vector Eng 96
  eng : EngPeriod
  hk : Hkadc
  spc : Spc
  spt : Spt
  keep : Keep
  sync : Sync
  deriving DecidableEq, Repr

/-! ### The state after reset: every field at the value its register table gives, and log entry 5 for the others. -/

/-- Hash masks at reset (R244, R265): each channel and bank bit from its home bit. -/
def hashReset : Vector (BitVec 30) 9 :=
  Vector.ofFn fun i => if i.val < 8 then BitVec.ofNat 30 (2 ^ i.val) else 0#30

def Board.reset : Board :=
  { dram := .gib32, twoRanks := false, gradeX := false }

def Clock.reset : Clock :=
  { now := 0, lastTick := 0, devTime := 0#64 }

def Dev.reset : Dev :=
  { power := .off, transition := none, phase := .rom, failCause := 0#3, fromHost := false, bootsel := 0#2,
    hostAttempts := 0#8, fwVersion := 0#32, porCause := false, brownoutCause := false, resetNCause := false,
    perstCause := false, pend := 1#4, fwDrop := false, sigFailSeen := false, fwWindow := [], released := false,
    coreOk := false, sramOk := false, io18Ok := false, lowCnt := 0#32, qtempOver := false, maxMts := 0#16,
    subsysVid := 0#16, subsysId := 0#16 }

def ErrClass.reset : ErrClass :=
  { code := 0#8, unit := 0#8, aux := 0#8, valid := false, count := 0#24, more := false, ovf := false,
    sfn := 0#32, info := 0#32, total := 0#32 }

def Err.reset : Err :=
  { cls := Vector.replicate 3 ErrClass.reset, frozenCause := 0#2, freezeNext := 0#2, frozenFromImaging := false,
    stopWhileFrozen := false, batch := none }

def TickBlk.reset : TickBlk :=
  { running := false, imaging := false, replaying := false, sfn := 0#32, period := 0x00FE502B#32,
    parkPeriod := 0x00FE502B#32, tableTouch := false, shadowDrop := false, lateSeen := false,
    overrunSeen := false, ovrLane := 0#32, ovrEng := 0#32, ovrDma := 0#32, ovrLast := 0#32, lateCnt := 0#32,
    replayOfs := 0#32, queue := [], accNext := 0, accNow := none, lateNext := false, missedNext := false, skippedNext := false, flags := [],
    stamps := [], frames := [], stopping := none, crossLanes := 0#64, engOvrTiles := 0#64, dmaOvrTiles := 0#64 }

def Mbox.reset : Mbox :=
  { cmd := Vector.replicate 64 0#32, rpl := Vector.replicate 64 0#32, busy := false, done := false, parts := [] }

def Cmdq.reset : Cmdq :=
  { enable := false, irqEvery := 1#13, cfgBad := false, tailBad := false, consBad := false, rplLost := false,
    mboxBusy := false, fetchErr := false, ringSize := 0#13, ringBase := 0#64, tail := 0#32, head := 0#32,
    rplSize := 0#13, rplBase := 0#64, rplProd := 0#32, rplCons := 0#32, rplWb := 0#64, lostCnt := 0#32,
    rejAccept := 0#16, rejExec := 0#16, execCnt := 0#32, mbox := Mbox.reset, spt := Mbox.reset, held := [], behind := [],
    fetching := false, sinceIrq := 0, checks := [] }

def Stream.reset : Stream :=
  { prod := 0#32, cons := 0#32, dropCnt := 0#32, w := 0#64, consCur := 0#64, consCurLo := 0#32, waiting := false,
    dropSince := 0#32, sinceIrq := 0, entries := 0, delivery := none, doneNow := false, hush := 0 }

def HostPort.reset : HostPort :=
  { linkUp := false, speed := 0#3, width := 0#5, bme := false, mse := false, roEn := false, msixEn := false,
    funcMask := false, d3hot := false, mps := 0#2, mrrs := 2#3, ecrcGen := false, ecrcCheck := false,
    aerUncorr := 0#32, aerCorr := 0#32, bar0 := 0#64, bar2 := 0#64, wasDown := false, flr := false, cfgReady := false,
    addrMiss := false, bar2Miss := false, linkDownSeen := false, linkChangeSeen := false, dropSeen := false,
    consBad := false, missOfs := 0#26, missWrite := false, missBar0 := 0#16, missBar2 := 0#16,
    tickIrqDiv := 0#16, linkDownCnt := 0#16, linkChangeCnt := 0#16, streams := Vector.replicate 32 Stream.reset,
    msixTable := [], pba := 0#512 }

def Hold.reset : Hold :=
  { state := .none, delivering := false, incompleteSeen := false, overSeen := false, endSfn := 0#32,
    tailSfn := 0#32, headSfn := 0#32, framesReg := 0#32, cursor := 0#64, incompleteCnt := 0#16, overCnt := 0#16,
    count := 0, retained := [], nowStart := 0, nowCharged := 0, nowPieces := [], skipNow := false, pieces := [],
    waiting := [], toSend := 0, piecesSent := 0, part := 0, sentNow := 0, waitNow := false, indexDue := [] }

def ReqPort.reset : ReqPort :=
  { credit := 0, lines := 0#32, linesNow := 0#32, wait := 0#32 }

def Memc.reset : Memc :=
  { trained := false, frozen := false, mapLock := false, quiet := false, selfRefresh := false, capacity := 0#2,
    ranks := false, mts := 0#16, rate := 0#16, hashBad := false, mapDrop := false, frozenAccess := false, forcedRef := false,
    hash := hashReset, frzCause := 0#2, frzChannel := 0#3, frzPort := 0#4, frzSyndrome := 0#8, frzWord := 0#3,
    frzSfn := 0#32, frzAddr := 0#64, frzCnt := 0#32, frzTrace := [], ports := Vector.replicate 12 ReqPort.reset,
    reqs := [], hostReads := [], lastPort := Vector.replicate 3 0, diagServed := false, quietOpenedAt := 0, quietLen := 0,
    sweptWindow := false, train := [], diag := [], perMask := 0#8, perPeriod := 0, perEyeMin := 0, perNext := 0,
    perSince := 0, sweeping := none, sweepPeriodic := false, undo := [] }

def Memch.reset : Memch :=
  { trained := false, freezeSrc := false, corrSeen := false, corr := 0#32, uncorr := 0#32, capar := 0#32,
    corrAddr := 0#64, rmw := 0#32, forced := 0#32, debt := Vector.replicate 4 0,
    round := Vector.replicate 4 0#16, rawWait := 0#32, range := 0#4, trefipb := 0#16, trace := [], busy := false,
    periodic := false, helperDrop := false, lostSeen := false, rdMin := 0#7, wrMin := 0#7, caEye := 0#7,
    verdict := 0#2, clipped := false, lost := false, trnSfn := 0#32, pattern := 0#2, invertAlt := false,
    seed := 0#32, eyeRd := Vector.replicate 24 0#8, eyeWr := Vector.replicate 24 0#8,
    cmpErr := Vector.replicate 24 0#16, cmpAddr := 0xFFFFFFFFFFFFFFFF#64, cmpLanes := 0#24, cmpWord := 0#3,
    cmpExp := 0#64, cmpAct := 0#64, user := Vector.replicate 16 0#32, rdDelay := Vector.replicate 24 0,
    wrDelay := Vector.replicate 24 0, caDelay := 0 }

def Dram.reset : Dram :=
  { cells := [], epoch := 0 }

def CfgBanks.reset : CfgBanks :=
  { active := [], shadow := [], hasActive := false, generation := 0, commit := none, committed := false,
    committedCrc := 0#32, committedBytes := 0, committedAgainst := 0, activeCrc := 0#32, activeSfn := 0#32,
    lastReason := 0#8, n := 0, prevN := 0, hadPrev := false, locked := false, parityBad := false, dbufBase := [],
    dbufNext := [], saves := [] }

def Port.reset : Port :=
  { state := .off, bref := .off, pclk := false, cb := .zero, kp := 0#32, kpTicks := 0, kpTime := 0, clkAt := 0,
    entry := 0, verify := false, prepDone := false, doneAt := 0, trans := none, retryDue := [],
    retryLater := [], hostWin := false, checkAt := 0, checkDone := false,
    sinceMismatch := none, repreparing := false, reprepNext := false, faultNext := false, causeNow := 0#8,
    causeStand := 0#8, causeNext := 0#8, los := false, prevLos := false, losCause := 0#8, tstatLevel := false, masked := false,
    unmaskNext := false, wholeRun := 0, activeRows := 0, transitions := 0, rows := 0, rstRun := 0,
    lastSummary := 0#8, stuckSeen := false, chatterSeen := false, losSticky := 0#8, chatterCnt := 0#32,
    retryCnt := 0#16, failCnt := 0#16, mismatchCnt := 0#16, reprepCnt := 0#16, losCnt := 0#32, hostAddr := 0#6,
    hostReq := 0#6, hostData := 0#16, hostDone := false, hostOk := false, hostPending := false,
    firstFrame := false }

def Tap.reset : Tap :=
  { w := 0#20, ofs := 0#32, gain := 0x00010000#32, heldW := none, held := none, injOk := false, injPrev := none,
    wcalSfn := 0#32, dac := 0#12 }

def Rdo.reset : Rdo :=
  { tSub := 0#32, heldSub := none, thOk := false, thPrev := none, stale := false, subStale := false,
    sat := false, wcalTapB := false, wcalOk := false, wcalForced := false, rsat := 0#20, conv := 0#20,
    rail := 0#20, wMeas := 0#20, resid := 0#10, wcalAcc := 0#16, wcalRej := 0#16, injRej := 0#16, thRej := 0#16,
    blankDone := false }

def Acc.reset : Acc :=
  { rsat := 0, conv := 0, rail := 0, nValid := 0, nInvalid := 0, min := 0#16, max := 0#16, bad := 0, norep := 0,
    clipLo := 0, clipHi := 0, motion := 0, sum := 0, hist := [], blindS := [], blindN := [], vn := 0, v1 := 0,
    v2 := 0 }

def LaneWork.reset : LaneWork :=
  { mode := .idle, held := false, fresh := false, row := 0, cbBuf := [], supplyBad := false,
    done := false, stopped := false, late := false,
    overrun := false, staleHk := false, b := [], blindFail := false, blind := [], prev2 := [], prev1 := [],
    acc := Acc.reset }

def TblBase.reset : TblBase :=
  { base := 0#64, write := 0#64 }

def Lane.reset : Lane :=
  { work := LaneWork.reset, housing := 0#32, dt := 0#32, status := 0#8, blindOkA := false, blindOkB := false,
    saveFail := false, corrSlot := 0#8, meanA := 0#32, meanB := 0#32, bad := 0#20, norep := 0#20, clipLo := 0#20,
    clipHi := 0#20, motion := 0#20, heldCnt := 0#32, blindFailCnt := 0#32, tblLate := 0#32, cb := TblBase.reset,
    o := 0#64, g := 0#64, d := 0#64, t := TblBase.reset, freshNext := false, prevRead := false, prevSat := false,
    prevBlind := false, prevHeld := false, prevSameSet := false, statusPipe := [] }

def Cal.reset : Cal :=
  { phase := .idle, index := 0, slot := 0, due := false, dueAt := 0#32, requested := false, abandoning := false,
    lastCause := 0#4, abandonSeen := false, k := 0#7, kUsed := 0, tcal := 0#32, tcalSet := false,
    tcalHeld := 0#32, dueSfn := 0#32, lastSfn := 0#32, doneCnt := 0#16, abandCnt := 0#16, varC := 0#32,
    varO := 0#32, spread := 0#32, level := 0#32, poison := 0#20, target := 0#64, curVarC := 0#32,
    curVarO := 0#32, n0 := 0, sv0 := 0, max0 := 0, min0 := 0, stf := 0, poisoned := 0, curLevel := 0,
    curSpread := 0, firstHeld := 0#32, computed := false, computeSfn := 0#32, computeTime := 0#64,
    doneSince := false, ended := false, holdoff := false, frameDone := false, frameLos := false,
    frameOvr := false, frameVar := 0#32, faultHeld := false, causeNext := 0#4 }

def Tile.reset : Tile :=
  { port := Port.reset, tapA := Tap.reset, tapB := Tap.reset, rdo := Rdo.reset, lane := Lane.reset,
    cal := Cal.reset }

def Quad.reset : Quad :=
  { locked := false, down := false, mv := 0#16, temp := 0#32, supplyOk := none, supplyBad := false, ptr := 0#5,
    measured := false }

def Coil.reset : Coil :=
  { state := .open, requests := [], move := none, closeAgain := false, retryAfter := false, fault := 0#4,
    groupLatched := false, faultAfter := false, releaseAfter := false, lsg := false,
    retry := 0#3, n := 0, suspended := false, moved := false, opened := false, codes := [],
    fmax := none, filt := 0#12, deferred := false, result := 0#2, newResult := false, stateByte := 0#8,
    dipByte := 0#8, dipT := 0#20, actCnt := 0#32, faultCnt := 0#16, retryCnt := 0#16, clearNext := false,
    lifeAct := 0#32, lifeFaults := 0#16, lifeRetries := 0#16 }

def Group.reset : Group :=
  { raw := 0#12, hsg := false, chop := none, hsgOff := false, offWas := false, fullRun := 0 }

def Shut.reset : Shut :=
  { coils := Vector.replicate 64 Coil.reset, groups := Vector.replicate 16 Group.reset, deferCnt := 0#32,
    sample := 0, lastPullin := none, moves := [], nextMove := 0 }

def Eng.reset : Eng :=
  { lmem := [], lmemEpoch := 0, next := 0, running := none, pass := 0, op := 0, opsEnded := false,
    stopped := false, slotReg := 0#12, finishNs := 0#32, finishNow := 0, produced := [], lateMax := 0#32,
    abandonedNow := false, faultCause := 0#4, faultSlot := 0#12, faultValid := false, faultSfn := 0#32,
    abandonCnt := 0#16, faultCnt := 0#16, eccCorr := 0#16, eccUncorr := 0#16, runOvf := 0#16, clOvf := 0#16, runCapped := false,
    clCapped := false,
    dmaBytes := 0#64, dmaNow := 0, lateSeen := false, abandonSeen := false, faultSeen := false, eccSeen := false,
    capSeen := false, ovfNow := false }

def EngPeriod.reset : EngPeriod :=
  { active := false, fates := [], events := [] }

def HkConv.reset : HkConv :=
  { phase := .idle, entry := 0, taken := 0, sum := 0, inject := [], cut := false, doneTable := false, ofs := 0#16,
    gain := 0x8000#16, calOk := false }

def Hkadc.reset : Hkadc :=
  { passRunning := false, pending := false, calibrating := false, calRequested := false, calReply := [],
    trigNow := false, skipped := false, restartNext := false, c0 := HkConv.reset, c1 := HkConv.reset, missedSeen := false,
    skipSeen := false, openSeen := false, calRejSeen := false, selfcalDrop := false, missedCnt := 0#32,
    skipCnt := 0#32, passCnt := 0#32, openMask := 0#48, calSfn := 0#32,
    slots := Vector.replicate 64 ((0#32, 0#32)), fresh := 0#64, latched := Vector.replicate 64 0#32,
    stale := 0#64 }

def Spc.reset : Spc :=
  { busy := false, stalled := false, sel := 0#4, asserted := false, left := 0, hold := false, aborting := false,
    resetting := false, tx := [], rx := [], cmdDrop := false, txDrop := false, doneCnt := 0#16,
    abortedCnt := 0#16, cfg0 := Vector.replicate 16 0x0A0A0A03#32, cfg1 := Vector.replicate 16 8#32 }

def Spt.reset : Spt :=
  { selected := false, busy := false, done := false, miss := false, bits := 0x20#6, cpol := false, cpha := false,
    lsbFirst := false, busyDrop := false, framing := 0#16, badcmd := 0#16, words := 0#5, buffer := [] }

def KeepRing.reset : KeepRing :=
  { seq := 0#32, slot := 0#8, empty := true, valid := 0#9 }

def Keep.reset : Keep :=
  { array := [], badGroups := [], bp := 0#2, lifeWrites := 0, jMarker := false, jGood := false,
    jWritten := false, jPage := 0#12, jData := [], jStatus := false, ready := false, settled := false,
    vkeepOk := false, dupseq := false, corrSeen := false, uncorrSeen := false, protectHit := false,
    vkeepLow := false, action := 0#2, page := 0#12, corrCnt := 0#16, uncorrCnt := 0#16, writeCnt := 0#32,
    refVkeep := 0#16, refProtect := 0#16, dupRing := 0#8, dupSlot := 0#8, vkeepMv := 0#16,
    rings := Vector.replicate 80 KeepRing.reset, voided := [], queue := [], current := none, scrubbing := false,
    retryWait := false, badDue := false, appendAge := 0, onNs := 0, imagingNs := 0, powerUps := 0#32,
    freezes := 0#32, completions := 0#32, discards := 0#32, calCount := Vector.replicate 64 0#32,
    calAband := Vector.replicate 64 0#32, logCount := Vector.replicate 3 0#32, logAt := Vector.replicate 3 none }

def Sync.reset : Sync :=
  { state := .root, follow := false, cause := 0#3, depth := 0#4, up := 0#5, aboveHoldover := false,
    dnEn := 0xF#4, id := 0#12, idNext := none, d := 0#20, dValid := false, meas := [], rejects := 0,
    reqSeq := 0#16, reqTime := none, trim := 0#32, phaseErr := 0#32, early := 0#32, earlyNow := false,
    miss := 0#16, offwin := 0#16, crc := 0#16, code := 0#16, slip := 0#16, holdover := 0#16, slipSfn := 0#32,
    earlySeen := false, holdoverSeen := false, slipSeen := false, periodMismatch := false,
    depthExceeded := false, freqLimit := false, assignTimeout := false, dlyReject := false, tPrev := 0,
    placed := none, placedHoldover := false, missedRun := 0, periodRun := 0, depthRun := 0, limitRun := 0,
    enterNext := none, rejoin := [], adopt := none, slipFrames := [], assign := none }

/-- The machine right after reset: in OFF, before the boot ROM is released (R427, R437). -/
def State.reset : State :=
  { pending := [], out := [], free := 0, board := Board.reset, clock := Clock.reset, dev := Dev.reset,
    err := Err.reset, tick := TickBlk.reset, replay := none, sides := [], cmdq := Cmdq.reset,
    host := HostPort.reset, hold := Hold.reset, memc := Memc.reset, memch := Vector.replicate 8 Memch.reset,
    dram := Dram.reset, cfg := CfgBanks.reset, tiles := Vector.replicate 64 Tile.reset,
    quads := Vector.replicate 4 Quad.reset, lincals := [], calReqs := [], shut := Shut.reset,
    engs := Vector.replicate 96 Eng.reset, eng := EngPeriod.reset, hk := Hkadc.reset, spc := Spc.reset,
    spt := Spt.reset, keep := Keep.reset, sync := Sync.reset }

end Sys2Proof.Machine
end

