-- ==== Sys2Proof/Machine/Set.lean ====
section
/-! DEFINITION. Reading a configuration set where it lies in its bank (14 R327 to R332): the header, the directory, the
sections, the tile records, and which set each stage runs under (02 R58). -/
namespace Sys2Proof.Machine

/-- A configuration bank: the bytes that are not zero (R333). -/
abbrev Bank := List Host.Cell

namespace Bank

def u8 (b : Bank) (a : Nat) : Nat := (readCell zeroByte b a).toNat
def u16 (b : Bank) (a : Nat) : Nat := leNat (readCells zeroByte b a 2)
def u32 (b : Bank) (a : Nat) : Nat := leNat (readCells zeroByte b a 4)
def u64 (b : Bank) (a : Nat) : Nat := leNat (readCells zeroByte b a 8)
def s16 (b : Bank) (a : Nat) : Int := toSigned 16 (u16 b a)
def s32 (b : Bank) (a : Nat) : Int := toSigned 32 (u32 b a)

/-- Offset and size of section `s` (R327, R328). -/
def secOfs (b : Bank) (s : Nat) : Nat := u32 b (0x20 + 8 * s)
def secLen (b : Bank) (s : Nat) : Nat := u32 b (0x24 + 8 * s)

def setBytes (b : Bank) : Nat := u32 b 0x08
def setId (b : Bank) : Nat := u32 b 0x0C
def replayCharge (b : Bank) : Bool := (u32 b 0x10).testBit 0

/-- The Piste header (R41). -/
def piste (b : Bank) : Nat := secOfs b 0
def periodNs (b : Bank) : Nat := u32 b (piste b + 0x08)
def pclkKhz (b : Bank) : Nat := u32 b (piste b + 0x0C)
def nSlots (b : Bank) : Nat := u16 b (piste b + 0x10)
def nChains (b : Bank) : Nat := u16 b (piste b + 0x12)
def nRegions (b : Bank) : Nat := u16 b (piste b + 0x14)
def nQuiet (b : Bank) : Nat := u8 b (piste b + 0x16)
def slotOfs (b : Bank) : Nat := u32 b (piste b + 0x18)
def chainOfs (b : Bank) : Nat := u32 b (piste b + 0x1C)
def regionOfs (b : Bank) : Nat := u32 b (piste b + 0x20)
def quietOfs (b : Bank) : Nat := u32 b (piste b + 0x24)

/-- Quiet window i (R44): START_NS and LEN_NS. -/
def quiet (b : Bank) (i : Nat) : Nat × Nat :=
  let a := piste b + quietOfs b + 8 * i
  (u32 b a, u32 b (a + 4))
def quietTotal (b : Bank) : Nat := ((List.range (nQuiet b)).map fun i => (quiet b i).2).sum

/-- The tile record of tile t (R331). -/
def tileRec (b : Bank) (t : Nat) : Nat := secOfs b 1 + 512 * t
def tileWord (b : Bank) (t o : Nat) : Nat := u32 b (tileRec b t + o)
/-- ENABLE of TILE_SETUP (R101, R331). -/
def enabled (b : Bank) (t : Nat) : Bool := (tileWord b t 0).testBit 0
def enabledTiles (b : Bank) : List Nat := (List.range 64).filter fun t => enabled b t
def enabledMask (b : Bank) : BitVec 64 := (enabledTiles b).foldl setBit 0

/-- RINGS (R330). -/
def rings (b : Bank) : Nat := secOfs b 12
def corrBase (b : Bank) : Nat := u64 b (rings b)
def rawBase (b : Bank) : Nat := u64 b (rings b + 0x08)
def statsBase (b : Bank) : Nat := u64 b (rings b + 0x10)
def evtBase (b : Bank) : Nat := u64 b (rings b + 0x18)
def evtSlotBytes (b : Bank) : Nat := u32 b (rings b + 0x20)
def nCorr (b : Bank) : Nat := u16 b (rings b + 0x24)
def nRaw (b : Bank) : Nat := u16 b (rings b + 0x26)
def nStats (b : Bank) : Nat := u16 b (rings b + 0x28)
def tableDbuf (b : Bank) : Nat := u64 b (rings b + 0x30)

end Bank

/-- D_max, the largest delay among the enabled tiles (R36). -/
def maxDelay (b : Bank) : Nat := ((Bank.enabledTiles b).map fun t => bits (Bank.tileWord b t 4) 9 0).foldl max 0

/-- t_read_ns (R36). -/
def readNs (b : Bank) : Nat := 32 + maxDelay b + ceilDiv (409728 * 1000000) (Bank.pclkKhz b)

/-- The active set, if there is one (R340). -/
def activeSet (s : State) : Option Bank := if s.cfg.hasActive then some s.cfg.active else none

/-- The set the engines run under in the present period (R58): in the period of a swap, the former one. -/
def engineSet (s : State) : Option Bank :=
  if s.cfg.hasActive && 1 ≤ s.cfg.n then some s.cfg.active
  else if s.cfg.hadPrev then some s.cfg.shadow else none

/-- The set output DMA runs under in the present period (R58). -/
def dmaSet (s : State) : Option Bank :=
  if s.cfg.hasActive && 2 ≤ s.cfg.n then some s.cfg.active
  else if s.cfg.hadPrev then some s.cfg.shadow else none

/-- The enabled tiles of the active set; none without a set. -/
def activeTiles (s : State) : List Nat := match activeSet s with | some b => Bank.enabledTiles b | none => []
def tileEnabled (s : State) (t : Nat) : Bool := match activeSet s with | some b => Bank.enabled b t | none => false

end Sys2Proof.Machine
end

