-- ==== Sys2Proof/Machine/Ops.lean ====
section
/-! DEFINITION. The named operations the meanings share: outputs and MSI-X (12 R300), raising errors (19 R413, R414), the
error log (18 R408), replies on the three paths (13 R308 to R313), DRAM access (10), free values, and updates of one tile,
engine, channel or stream. -/
namespace Sys2Proof.Machine

/-! ### Updates of one indexed part -/

def tileOf (s : State) (t : Nat) : Tile := vget s.tiles t Tile.reset
def modTile (t : Nat) (f : Tile → Tile) (s : State) : State := { s with tiles := vmod s.tiles t f }
def modPort (t : Nat) (f : Port → Port) (s : State) : State := modTile t (fun x => { x with port := f x.port }) s
def modLane (t : Nat) (f : Lane → Lane) (s : State) : State := modTile t (fun x => { x with lane := f x.lane }) s
def modWork (t : Nat) (f : LaneWork → LaneWork) (s : State) : State := modLane t (fun x => { x with work := f x.work }) s
def modRdo (t : Nat) (f : Rdo → Rdo) (s : State) : State := modTile t (fun x => { x with rdo := f x.rdo }) s
def modCal (t : Nat) (f : Cal → Cal) (s : State) : State := modTile t (fun x => { x with cal := f x.cal }) s
/-- One tap of a tile: tap A is false, tap B true (R15). -/
def tapOf (x : Tile) (b : Bool) : Tap := if b then x.tapB else x.tapA
def modTap (t : Nat) (b : Bool) (f : Tap → Tap) (s : State) : State :=
  modTile t (fun x => if b then { x with tapB := f x.tapB } else { x with tapA := f x.tapA }) s
def engOf (s : State) (e : Nat) : Eng := vget s.engs e Eng.reset
def modEng (e : Nat) (f : Eng → Eng) (s : State) : State := { s with engs := vmod s.engs e f }
def chOf (s : State) (n : Nat) : Memch := vget s.memch n Memch.reset
def modCh (n : Nat) (f : Memch → Memch) (s : State) : State := { s with memch := vmod s.memch n f }
def streamOf (s : State) (m : Nat) : Stream := vget s.host.streams m Stream.reset
def modStream (m : Nat) (f : Stream → Stream) (s : State) : State :=
  { s with host := { s.host with streams := vmod s.host.streams m f } }
def coilOf (s : State) (t : Nat) : Coil := vget s.shut.coils t Coil.reset
def modCoil (t : Nat) (f : Coil → Coil) (s : State) : State :=
  { s with shut := { s.shut with coils := vmod s.shut.coils t f } }
def groupOf (s : State) (g : Nat) : Group := vget s.shut.groups g Group.reset
def modGroup (g : Nat) (f : Group → Group) (s : State) : State :=
  { s with shut := { s.shut with groups := vmod s.shut.groups g f } }
def quadOf (s : State) (q : Nat) : Quad := vget s.quads q Quad.reset
def modQuad (q : Nat) (f : Quad → Quad) (s : State) : State := { s with quads := vmod s.quads q f }
def modMemc (f : Memc → Memc) (s : State) : State := { s with memc := f s.memc }
def modHost (f : HostPort → HostPort) (s : State) : State := { s with host := f s.host }
def modCmdq (f : Cmdq → Cmdq) (s : State) : State := { s with cmdq := f s.cmdq }
def modTick (f : TickBlk → TickBlk) (s : State) : State := { s with tick := f s.tick }
def modKeep (f : Keep → Keep) (s : State) : State := { s with keep := f s.keep }
def modHk (f : Hkadc → Hkadc) (s : State) : State := { s with hk := f s.hk }
def modSync (f : Sync → Sync) (s : State) : State := { s with sync := f s.sync }
def modHold (f : Hold → Hold) (s : State) : State := { s with hold := f s.hold }
def modDev (f : Dev → Dev) (s : State) : State := { s with dev := f s.dev }
def modCfg (f : CfgBanks → CfgBanks) (s : State) : State := { s with cfg := f s.cfg }

/-! ### Outputs, free values -/

def emit (e : Emit) (s : State) : State := { s with out := e :: s.out }
/-- Take a free value: the counter goes on. -/
def bumpFree (s : State) : State := { s with free := s.free + 1 }

/-- A BAR request of the host: dropped during a function-level reset (R288). -/
def barAccess (f : State → State) (s : State) : State := if s.host.flr then s else f s

/-- The device may issue a request over PCI Express (R283, R289). -/
def canIssue (s : State) : Bool := s.host.linkUp && s.host.bme && !s.host.d3hot && !s.host.flr

/-- The programmed maximum payload size in bytes (R280, R303). -/
def hostMps (s : State) : Nat := 128 * 2 ^ s.host.mps.toNat

/-- The pieces of a write: none crosses a 4 KiB boundary or exceeds the maximum payload size (R299). -/
def writePieces : Nat → Nat → Nat → List Byte → List (Nat × List Byte)
  | 0, _, _, _ => []
  | _, _, _, [] => []
  | f + 1, mps, a, l =>
    let n := min mps (4096 - a % 4096)
    (a, l.take n) :: writePieces f mps (a + n) (l.drop n)

/-- Posted writes to host memory, with or without Relaxed Ordering (R299). -/
def hostWriteRo (ro : Bool) (a : Nat) (bs : List Byte) (s : State) : State :=
  forEach (writePieces bs.length (hostMps s) a bs) (fun p => emit (.hostWrite ro p.1 p.2)) s

def hostWrite (a : Nat) (bs : List Byte) (s : State) : State := hostWriteRo false a bs s

/-! ### MSI-X (R300) -/

/-- A word of the MSI-X table: at reset each vector control word has its mask bit set, as the standard gives (log
entry 11). -/
def msixWord (s : State) (i : Nat) : Word :=
  match s.host.msixTable.find? fun p => p.1 = i with
  | some p => p.2
  | none => if i % 4 = 3 then 1 else 0

/-- A message of the vector may not be sent now (R300). -/
def msixBlocked (v : Nat) (s : State) : Bool :=
  (msixWord s (4 * v + 3)).getLsbD 0 || s.host.funcMask || !s.host.msixEn || !canIssue s

def emitMsix (v : Nat) (s : State) : State :=
  emit (.msix v (leNat (leBytes 4 (msixWord s (4 * v)).toNat) + 2 ^ 32 * (msixWord s (4 * v + 1)).toNat)
    (msixWord s (4 * v + 2))) s

/-- A message falls due: it is sent, or its pending bit is set (R300). -/
def sendVector (v : Nat) (s : State) : State :=
  if msixBlocked v s then modHost (fun h => { h with pba := setBit h.pba v }) s else emitMsix v s

/-- The pending message of a vector is sent once nothing blocks it (R300). -/
def sendPending (v : Nat) (s : State) : State :=
  if s.host.pba.getLsbD v && !msixBlocked v s then
    emitMsix v (modHost (fun h => { h with pba := clrBit h.pba v }) s)
  else s

/-! ### Errors (19) -/

def mkErr (cls code unit aux : Nat) (info : Word) : ErrRec :=
  { cls, code := BitVec.ofNat 8 code, unit := BitVec.ofNat 8 unit, aux := BitVec.ofNat 8 aux, info }

def errOf (s : State) (c : Nat) : ErrClass := vget s.err.cls c ErrClass.reset
def modErr (c : Nat) (f : ErrClass → ErrClass) (s : State) : State :=
  { s with err := { s.err with cls := vmod s.err.cls c f } }

/-- The capture word of a class (R426). -/
def capWord (e : ErrClass) : Word :=
  fields [(e.code.toNat, 0), (e.unit.toNat, 8), (e.aux.toNat, 16), (e.valid.toNat, 31)]
/-- The count word of a class (R426). -/
def cntWord (e : ErrClass) : Word := fields [(e.count.toNat, 0), (e.more.toNat, 24), (e.ovf.toNat, 31)]

/-- MEMC_FRZ_CAUSE (R265). -/
def frzCauseWord (m : Memc) : Word :=
  fields [(m.frzCause.toNat, 0), (m.frzChannel.toNat, 2), (m.frzPort.toNat, 5), (m.frzSyndrome.toNat, 9),
    (m.frzWord.toNat, 17)]

/-- A write that the device itself requests takes its place in the keeping-store queue; a newer value of the same record
replaces a pending one whose write has not started (18 R409). The error log's entries are separate records. -/
def keepOwn (ring : Nat) (payload : List Byte) (s : State) : State :=
  modKeep (fun k =>
    let started := k.current.isSome
    let rec put : List KeepWork → Bool → List KeepWork
      | [], _ => [.own ring payload]
      | w :: r, busyHead =>
        match w with
        | .own r' _ => if r' = ring && ring ≠ 69 && !busyHead then .own ring payload :: r else w :: put r false
        | _ => w :: put r false
    { k with queue := put k.queue started }) s

/-- The error log is offered a capture (18 R408): a FATAL one is logged always, another if its class has not been logged
for 60 s. -/
def logCapture (c : Nat) (s : State) : State :=
  let last := vget s.keep.logAt c none
  let due := c = 0 || (match last with | none => true | some t => t + 60000000000 ≤ s.clock.now)
  if due then
    let e := errOf s c
    let frz := e.code = 0x01#8
    let payload := leBytes 1 c ++ leBytes 3 0 ++ leBytes 4 (vget s.keep.logCount c 0).toNat ++ leBytes 4 (capWord e).toNat
      ++ leBytes 4 (if frz then (frzCauseWord s.memc).toNat else 0) ++ leBytes 8 (if frz then s.memc.frzAddr.toNat else 0)
    modKeep (fun k => { k with logAt := vset k.logAt c (some s.clock.now), logCount := vset k.logCount c 0 })
      (keepOwn 69 payload s)
  else s

/-- Raise one error (R413). -/
def raiseOne (r : ErrRec) (s : State) : State :=
  let s := modKeep (fun k => { k with logCount := vmod k.logCount r.cls satInc }) s
  let e := errOf s r.cls
  if e.valid then
    modErr r.cls (fun e => { e with count := satInc e.count, more := true,
                                    ovf := e.ovf || e.count = 0xFFFFFE#24 || e.count = 0xFFFFFF#24,
                                    total := satInc e.total }) s
  else
    logCapture r.cls (sendVector r.cls
      (modErr r.cls (fun e => { e with code := r.code, unit := r.unit, aux := r.aux, valid := true, count := 1,
                                       more := false, ovf := false, sfn := s.tick.sfn, info := r.info,
                                       total := satInc e.total }) s))

/-- The order of errors raised at one clock: by class, then code, then UNIT (R414, R416). -/
def errBefore (a b : ErrRec) : Bool :=
  a.cls < b.cls || (a.cls = b.cls && (a.code.toNat < b.code.toNat || (a.code = b.code && a.unit.toNat ≤ b.unit.toNat)))

def insertErr (e : ErrRec) : List ErrRec → List ErrRec
  | [] => [e]
  | x :: r => if errBefore e x && !(errBefore x e) then e :: x :: r else x :: insertErr e r

/-- Raise the errors of one clock (R414): at a tick they are gathered first. -/
def raiseErrs (l : List ErrRec) (s : State) : State :=
  match s.err.batch with
  | some m => { s with err := { s.err with batch := some (m ++ l) } }
  | none => forEach (l.foldl (fun acc e => insertErr e acc) []) raiseOne s

def raiseErr (e : ErrRec) (s : State) : State := raiseErrs [e] s

/-- From here to `releaseBatch` every error raised belongs to one clock (R414). -/
def openBatch (s : State) : State := { s with err := { s.err with batch := some [] } }

/-- The errors gathered at a tick are raised in the order of R414. -/
def releaseBatch (s : State) : State :=
  match s.err.batch with
  | some m => raiseErrs m { s with err := { s.err with batch := none } }
  | none => s

/-- A FATAL error also brings FROZEN at the next tick (R427): the cause of the first stands (R417). -/
def freezeDue (cause : Nat) (s : State) : State :=
  { s with err := { s.err with freezeNext := if s.err.freezeNext = 0 then BitVec.ofNat 2 cause else s.err.freezeNext } }

/-! ### DRAM (10) -/

def dramDflt (s : State) : Nat → Byte := dramByteOf s.dram.epoch

/-- log2 of the installed capacity in bytes (R243). -/
def capacityLog2 (s : State) : Nat :=
  match s.board.dram with | .gib16 => 34 | .gib32 => 35 | .gib64 => 36

/-- Installed capacity in bytes (R243). -/
def capacity (s : State) : Nat := 2 ^ capacityLog2 s
/-- The 64 MiB kept for the control cores at the base of DRAM (01 R30). -/
def reserveBytes : Nat := 67108864

/-- The controller serves requests: it is trained, not frozen, not in self-refresh (R261, R264, R286). -/
def memServes (s : State) : Bool := s.memc.trained && !s.memc.frozen && !s.memc.selfRefresh

/-- The bytes that DRAM holds. -/
def dramHeld (s : State) (a n : Nat) : List Byte := readCells (dramDflt s) s.dram.cells a n

/-- A stage's read: a request of a frozen controller completes with an error and zero data (R261). -/
def dramRead (s : State) (a n : Nat) : List Byte := if memServes s then dramHeld s a n else List.replicate n 0

def dramU16 (s : State) (a : Nat) : Nat := leNat (dramRead s a 2)
def dramU32 (s : State) (a : Nat) : Nat := leNat (dramRead s a 4)
def dramU64 (s : State) (a : Nat) : Nat := leNat (dramRead s a 8)

/-- The bytes reach DRAM, whatever the controller serves. -/
def dramPut (a : Nat) (bs : List Byte) (s : State) : State :=
  { s with dram := { s.dram with cells := writeCells (dramDflt s) s.dram.cells a bs } }

/-- A write by the host, the control cores or DMA: dropped while the controller does not serve (R261). -/
def dramWrite (a : Nat) (bs : List Byte) (s : State) : State := if memServes s then dramPut a bs s else s

/-- The 8-byte words that `n` bytes from `a` lie in: the part of each, as address and length. -/
def wordParts (a n : Nat) : List (Nat × Nat) :=
  if n = 0 then []
  else (List.range ((a + n - 1) / 8 + 1 - a / 8)).map fun i =>
    let w := 8 * (a / 8 + i)
    (max a w, min (a + n) (w + 8) - max a w)

/-- Words that a lane or engine writes: what they replace is kept, word by word, until the next tick, for a freeze (R261). -/
def stageWrite (a : Nat) (bs : List Byte) (s : State) : State :=
  if memServes s then
    dramPut a bs (modMemc (fun m => { m with
      undo := (wordParts a bs.length).map (fun p => (p.1, dramHeld s p.1 p.2)) ++ m.undo }) s)
  else s

/-- Each word written in the period of a freeze holds its new value, or the value from before the period: which of the
two is free (R261, log entry 8). -/
def undoWrites (s : State) : State :=
  let s' := s.memc.undo.foldl (fun s p => if Config.reached s.free p.1 then s else dramPut p.1 p.2 s) s
  bumpFree (modMemc (fun m => { m with undo := [] }) s')

/-! ### Replies (13) -/

/-- Status codes of R307. -/
def stOk : BitVec 16 := 0
def stTruncated : BitVec 16 := 1
def stLate : BitVec 16 := 2
def stBusy : BitVec 16 := 3
def stRefused : BitVec 16 := 4
def stBadOpcode : BitVec 16 := 5
def stBadLength : BitVec 16 := 6
def stBadParam : BitVec 16 := 7
def stProtected : BitVec 16 := 8
def stFrozen : BitVec 16 := 9
def stNotReady : BitVec 16 := 10

def pathCode : Path → Nat
  | .caravan => 0
  | .mailbox => 1
  | .mgmt => 2

/-- The 64 words of a reply part (R308). -/
def replyWords (p : ReplyPart) (seq : Word) : List Word :=
  let body := p.words.take 60
  [fields [(p.opcode.toNat, 0), (body.length, 8), (p.hdr.tag.toNat, 16)],
   fields [(p.status.toNat, 0), (p.part, 16), (p.last.toNat, 24), (pathCode p.hdr.path, 25)], p.hdr.sfn, seq]
    ++ body ++ List.replicate (60 - body.length) 0

/-- There is room in the reply ring and the device may write to it (R311). -/
def replyRoom (s : State) : Bool :=
  s.cmdq.enable && canIssue s && decide ((s.cmdq.rplProd - s.cmdq.rplCons).toNat < s.cmdq.rplSize.toNat)

/-- Parts on the Caravan in their order: 64 are held, and the others wait behind them (R311; log entry 19). -/
def Cmdq.hold (c : Cmdq) (l : List ReplyPart) : Cmdq := { c with held := l.take 64, behind := l.drop 64 }

/-- Post the oldest held part, the writeback, and vector 3 when it falls due (R311). -/
def postHeld (s : State) : State :=
  match s.cmdq.held with
  | [] => s
  | p :: r =>
    if replyRoom s then
      let i := s.cmdq.rplProd
      let a := s.cmdq.rplBase.toNat + 256 * (i.toNat % s.cmdq.rplSize.toNat)
      let s := hostWrite a (wordsBytes (replyWords p i)) s
      let s := hostWrite s.cmdq.rplWb.toNat (leBytes 4 (i + 1).toNat ++ leBytes 4 s.cmdq.head.toNat ++ leBytes 8 0) s
      let n := s.cmdq.sinceIrq + 1
      let due := s.cmdq.irqEvery ≠ 0 && decide (s.cmdq.irqEvery.toNat ≤ n)
      let s := modCmdq (fun c => { c.hold (r ++ c.behind) with rplProd := i + 1, sinceIrq := if due then 0 else n }) s
      if due then sendVector 3 s else s
    else s

/-- Post held parts while there is room: at most `n` of them. -/
def postAll : Nat → State → State
  | 0, s => s
  | n + 1, s => if s.cmdq.held.isEmpty || !replyRoom s then s else postAll n (postHeld s)

def mboxOf (s : State) (mgmt : Bool) : Mbox := if mgmt then s.cmdq.spt else s.cmdq.mbox
def modMbox (mgmt : Bool) (f : Mbox → Mbox) (s : State) : State :=
  modCmdq (fun c => if mgmt then { c with spt := f c.spt } else { c with mbox := f c.mbox }) s

/-- Show the next reply part in a mailbox's RPL window (R313). -/
def mboxShow (mgmt : Bool) (s : State) : State :=
  match (mboxOf s mgmt).parts with
  | [] => s
  | p :: r =>
    let s := modMbox mgmt (fun m => { m with rpl := Vector.ofFn fun i : Fin 64 => (replyWords p 0).getD i.val 0,
                                             done := true, parts := r, busy := m.busy && !p.last }) s
    if mgmt || !s.host.msixEn then s else sendVector 3 s

/-- The parts of a reply go out on the path of their command (R308, R309, R312, R313). -/
def sendParts (h : Hdr) (ps : List ReplyPart) (s : State) : State :=
  match h.path with
  | .caravan =>
    if s.cmdq.enable then postAll ps.length (modCmdq (fun c => c.hold (c.held ++ c.behind ++ ps)) s)
    else modCmdq (fun c => { c with lostCnt := satAdd c.lostCnt ps.length, rplLost := true }) s
  | .mailbox => mboxShow false (modMbox false (fun m => { m with parts := m.parts ++ ps }) s)
  | .mgmt => mboxShow true (modMbox true (fun m => { m with parts := m.parts ++ ps }) s)

/-- Number the parts of a reply. -/
def mkParts (h : Hdr) (op : Nat) (st : BitVec 16) (ws : List (List Word)) : List ReplyPart :=
  let ws := if ws.isEmpty then [[]] else ws
  (ws.zipIdx).map fun p =>
    { hdr := h, opcode := BitVec.ofNat 8 op, status := st, part := p.2, last := p.2 + 1 = ws.length, words := p.1 }

/-- Post the reply of a command that ends at or after its tick, in parts of whole records (R309); a status other than OK
or TRUNCATED is counted (R326). -/
def replyParts (h : Hdr) (op : Nat) (st : BitVec 16) (ws : List (List Word)) (s : State) : State :=
  let s := if st = stOk || st = stTruncated then s else modCmdq (fun c => { c with rejExec := satInc c.rejExec }) s
  sendParts h (mkParts h op st ws) s

def reply (h : Hdr) (op : Nat) (st : BitVec 16) (ws : List Word) (s : State) : State := replyParts h op st [ws] s

/-- The reply of a packet rejected on arrival (R305): it is counted and carries the SFN of the last tick. -/
def replyReject (h : Hdr) (op : Nat) (st : BitVec 16) (s : State) : State :=
  sendParts h (mkParts { h with sfn := s.tick.sfn } op st [[]])
    (modCmdq (fun c => { c with rejAccept := satInc c.rejAccept }) s)

/-- Run a command at its tick (R306): it is counted as executed, it does nothing while the device is OFF (R428), and
while FROZEN an opcode from 0x20 to 0x34 other than STOP and HK_SELFCAL returns FROZEN. -/
def runAtTick (h : Hdr) (op : Nat) (f : State → State) (s : State) : State :=
  if s.dev.power = .off then s
  else
    let s := modCmdq (fun c => { c with execCnt := satInc c.execCnt }) s
    if s.dev.power = .frozen && 0x20 ≤ op && op ≤ 0x34 && op ≠ 0x21 && op ≠ 0x32 then reply h op stFrozen [] s else f s

/-- Split a list into pieces of at most `n` members; `fuel` bounds the number of pieces. -/
def chunks {α : Type} : Nat → Nat → List α → List (List α)
  | 0, _, _ => []
  | _, _, [] => []
  | f + 1, n, l => l.take n :: chunks f n (l.drop n)

end Sys2Proof.Machine
end

