-- ==== Sys2Proof/Machine/Access.lean ====
section
/-! DEFINITION. Accesses at the memory controller (10 R245 to R248, R255 to R257, R260 to R262, R265): where a line lies, the
command trace, the freeze, the check of a line, credit, and the lines that a stage's own spans of bytes take. -/
namespace Sys2Proof.Machine

/-! ### Address mapping (R248) -/

/-- log2 of the installed lines, and before training 30 (R248, R249). -/
def lineBits (s : State) : Nat := if s.memc.capacity = 0 then 30 else capacityLog2 s - 6
/-- Two ranks are in use (R248). -/
def ranksInUse (s : State) : Bool := if s.memc.capacity = 0 then s.memc.ranks else s.board.twoRanks

/-- Home bit of mask i: CH0 to CH2, SC, BA0 to BA3, RK (R248). -/
def homeBit (s : State) (i : Nat) : Nat := if i = 8 then lineBits s - 1 else i
/-- The home bits in use. -/
def homeBits (s : State) : List Nat := List.range 8 ++ (if ranksInUse s then [lineBits s - 1] else [])

/-- Select bit i of a line (R248). -/
def selectBit (s : State) (i line : Nat) : Bool :=
  if i = 8 && !ranksInUse s then false else parity (line &&& (vget s.memc.hash i 0).toNat)

/-- Where a line lies (R248). -/
structure Place where
  channel : Nat
  sc : Bool
  rk : Bool
  bank : Nat
  col : Nat
  row : Nat
  deriving DecidableEq, Repr

def placeOf (s : State) (line : Nat) : Place :=
  let bit (i : Nat) : Nat := (selectBit s i line).toNat
  let rest := ((List.range (lineBits s)).filter fun i => !(homeBits s).contains i).map fun i => line.testBit i
  let num (l : List Bool) : Nat := (l.reverse).foldl (fun a x => 2 * a + x.toNat) 0
  { channel := bit 0 + 2 * bit 1 + 4 * bit 2, sc := selectBit s 3 line, rk := selectBit s 8 line,
    bank := bit 4 + 2 * bit 5 + 4 * bit 6 + 8 * bit 7, col := num (rest.take 5), row := num (rest.drop 5) }

/-! ### Command trace and the freeze (R260 to R262) -/

/-- The last 32 commands of a channel, newest first, and the one before them, whose time entry 31 needs (R262, R265). -/
def traceCmd (cmd : Nat) (p : Place) (port : Nat) (s : State) : State :=
  modCh p.channel (fun c => { c with trace :=
    ({ cmd := BitVec.ofNat 4 cmd, channel := BitVec.ofNat 3 p.channel, sc := p.sc, rk := p.rk,
       bank := BitVec.ofNat 4 p.bank, col := BitVec.ofNat 5 p.col, port := BitVec.ofNat 4 port,
       row := BitVec.ofNat 18 p.row, time := s.clock.now } :: c.trace).take 33 }) s

/-- The bytes of the destination of a copy cut off are free (R319, log entry 6). -/
def cutDest (p : Save) (s : State) : State :=
  let a := p.dest.toNat
  bumpFree (dramPut a ((List.range p.bytes).map fun i => Config.dramByte (2 * s.free + 1) (a + i)) s)

/-- A copy through CTRL that a freeze cuts off ends with status FROZEN; the bytes of DEST are free (R319). -/
def cutSaves (s : State) : State :=
  let l := s.cfg.saves.filter fun p => p.copy
  let s := modCfg (fun c => { c with saves := c.saves.filter fun p => !p.copy }) s
  forEach l (fun p s => reply p.hdr 0x23 stFrozen [] (cutDest p s)) s

/-- BAR2 reads that wait complete with all-ones data, and BAR2 writes that wait are dropped: both set FROZEN_ACCESS
(R261). -/
def cutHost (s : State) : State :=
  let l := s.memc.hostReads
  let seen : Bool := !l.isEmpty || s.memc.reqs.any fun q => q.host
  let s := modMemc (fun m => { m with reqs := [], hostReads := [], frozenAccess := m.frozenAccess || seen }) s
  forEach l (fun r => emit (.readData (List.replicate (r.len + r.past) 0xFF))) s

/-- A freeze condition (R260 to R262): the first freezes the controller, captures it and raises the FATAL error; a later
one is only counted. Every request outstanding completes with an error. -/
def memFreeze (cause channel port syndrome wordIx addr : Nat) (s : State) : State :=
  if s.memc.frozen then modMemc (fun m => { m with frzCnt := satInc m.frzCnt }) s
  else
    let s := cutHost (undoWrites s)
    let s := modMemc (fun m => { m with
      frozen := true, diagServed := false, frzCause := BitVec.ofNat 2 cause, frzChannel := BitVec.ofNat 3 channel,
      frzPort := BitVec.ofNat 4 port, frzSyndrome := BitVec.ofNat 8 syndrome, frzWord := BitVec.ofNat 3 wordIx,
      frzSfn := s.tick.sfn, frzAddr := BitVec.ofNat 64 addr, frzTrace := (chOf s channel).trace, sweeping := none }) s
    let mark (i : Fin 8) (c : Memch) : Memch := { c with freezeSrc := decide (i.val = channel) }
    let s := { s with memch := Vector.ofFn fun i => mark i s.memch[i] }
    freezeDue 1 (cutSaves (raiseErr (mkErr 0 0x01 channel port (frzCauseWord s.memc)) s))

/-- The checks of the words of a line that was read (R246): corrected words are counted, an uncorrectable one freezes. -/
def eccCheck (line port : Nat) (hits : List EccHit) (s : State) : State :=
  let p := placeOf s line
  match hits.find? fun h => !h.correctable with
  | some h =>
    let n := (hits.filter fun h => !h.correctable).length
    memFreeze 1 p.channel port h.syndrome.toNat h.word.val (64 * line)
      (modCh p.channel (fun c => { c with uncorr := satAdd c.uncorr n }) s)
  | none =>
    if hits.isEmpty then s
    else modCh p.channel (fun c => { c with
      corr := satAdd c.corr hits.length, corrSeen := true,
      corrAddr := if c.corrSeen then c.corrAddr else BitVec.ofNat 64 (64 * line) }) s

/-! ### Regulators (R255 to R257) -/

def regRate (b : Bank) (p : Nat) : Nat := Bank.u32 b (Bank.secOfs b 9 + 8 * p)
def regBurst (b : Bank) (p : Nat) : Nat := Bank.u32 b (Bank.secOfs b 9 + 8 * p + 4) % 2 ^ 20
def regClass (b : Bank) (p : Nat) : Nat := bits (Bank.u32 b (Bank.secOfs b 9 + 8 * p + 4)) 21 20

/-- No credit limit: HOSTIN, CTRL and DIAG without a set, and while PARKED or FROZEN (R340, R421). -/
def unlimited (s : State) (p : Nat) : Bool :=
  9 ≤ p && ((activeSet s).isNone || s.dev.power = .parked || s.dev.power = .frozen)

/-- Class of a port: BULK without a set (R340). -/
def portClass (s : State) (p : Nat) : Nat := match activeSet s with | some b => regClass b p | none => 1

/-- What one access is: a read-modify-write has two halves (R245, R247). -/
inductive LineKind where
  | read | full | masked | rmw
  deriving DecidableEq, Repr

/-- The halves of an access that take credit (R247, R256). -/
def LineKind.cost (k : LineKind) : Nat := if k = .rmw then 2 else 1

/-- A port has credit for an access (R256): for both halves of a read-modify-write, of which a BURST below them asks no
more than itself (log entry 37). -/
def hasCredit (s : State) (p cost : Nat) : Bool :=
  unlimited s p || (activeSet s).any fun b =>
    decide (regRate b p ≠ 0) && decide ((min (64000 * cost) (1000 * regBurst b p) : Nat) ≤ (vget s.memc.ports p ReqPort.reset).credit)

/-- Every credit is set to BURST (R256, R259, R263). -/
def fillCredits (s : State) : State :=
  match activeSet s with
  | none => s
  | some b => modMemc (fun m => { m with
      ports := Vector.ofFn fun i => { m.ports[i] with credit := (regBurst b i.val * 1000 : Nat) } }) s

/-- The port may be served now: DIAG alone in a quiet window and, once a diagnosis has executed, in a freeze (R257, R263). -/
def portServed (s : State) (p : Nat) : Bool :=
  s.memc.trained && !s.memc.selfRefresh && (!s.memc.frozen || (p = 11 && s.memc.diagServed)) && (!s.memc.quiet || p = 11)

/-! ### One access (R245 to R247, R265) -/

/-- A write whose bytes cover part of some 8-byte word (R247). -/
def partialWord (d : List (Option Byte)) : Bool :=
  (chunks 8 8 d).any fun w => (w.any fun x => x.isSome) && (w.any fun x => x.isNone)

/-- What an access with these bytes is (R247). -/
def kindOf (d : Option (List (Option Byte))) : LineKind :=
  match d with
  | none => .read
  | some d => if partialWord d then .rmw else if d.all fun x => x.isSome then .full else .masked

/-- The commands of an access and the check of what it reads (R245 to R247): a read-modify-write whose read finds an
uncorrectable word makes no write. -/
def accessLine (port line : Nat) (k : LineKind) (hits : List EccHit) (s : State) : State :=
  let p := placeOf s line
  let s := modMemc (fun m => { m with ports := vmod m.ports port fun x => { x with linesNow := satAdd x.linesNow k.cost } }) s
  let s := traceCmd 1 p port s
  match k with
  | .read => eccCheck line port hits (traceCmd 2 p port s)
  | .full => traceCmd 3 p port s
  | .masked => traceCmd 4 p port s
  | .rmw =>
    let s := eccCheck line port hits (modCh p.channel (fun c => { c with rmw := satInc c.rmw }) (traceCmd 2 p port s))
    if hits.any fun h => !h.correctable then s else traceCmd 3 p port (traceCmd 1 p port s)

/-- An access takes credit (R256). -/
def takeCredit (port cost : Nat) (s : State) : State :=
  if unlimited s port then s
  else modMemc (fun m => { m with ports := vmod m.ports port fun x => { x with credit := x.credit - (64000 * cost : Nat) } }) s

/-- A line of a BAR2 read has been read: with the last the read completes (12 R286). -/
def hostLine (line : Nat) (s : State) : State :=
  match s.memc.hostReads with
  | [] => s
  | r :: l =>
    let a := max r.addr (64 * line)
    let got := r.got ++ dramHeld s a (min (r.addr + r.len) (64 * line + 64) - a)
    if r.left ≤ 1 then
      emit (.readData (got ++ List.replicate r.past 0)) (modMemc (fun m => { m with hostReads := l }) s)
    else modMemc (fun m => { m with hostReads := { r with left := r.left - 1, got } :: l }) s

/-- The write of a request: what lanes and engines replace is kept for a freeze (R261), and a write of HOSTIN into a table
in use shows TABLE_TOUCH (02 R65). -/
def putLine (q : PendReq) (d : List (Option Byte)) (s : State) : State :=
  let a := 64 * q.req.line
  let s := if q.req.port.val < 8 then
      modMemc (fun m => { m with undo := (List.range 8).map (fun w => (a + 8 * w, dramHeld s (a + 8 * w) 8)) ++ m.undo }) s
    else s
  let s := if q.touch then modTick (fun t => { t with tableTouch := true }) s else s
  { s with dram := { s.dram with cells := writeEnabled (dramDflt s) s.dram.cells a d } }

/-- Issue a request (R245 to R247, R256, R261): the host's own request, if its read froze the controller, sets
FROZEN_ACCESS. -/
def issue (q : PendReq) (hits : List EccHit) (s : State) : State :=
  let r := q.req
  let port := r.port.val
  let k := kindOf r.data
  let hits := q.hits ++ hits
  let cls := portClass s port
  let s := takeCredit port k.cost (modMemc (fun m => { m with reqs := m.reqs.erase q, lastPort := vset m.lastPort cls r.port }) s)
  let was := s.memc.frozen
  let s := accessLine port r.line k hits s
  if s.memc.frozen && !was then
    if q.host && k = .rmw then modMemc (fun m => { m with frozenAccess := true }) s else s
  else match r.data with
  | none => if q.host then hostLine r.line s else s
  | some d => if k = .rmw && hits.any fun h => !h.correctable then s else putLine q d s

/-! ### The spans of bytes that a stage reads and writes -/

/-- Bytes that a stage moves in one of its rows. -/
structure Span where
  addr : Nat
  len : Nat
  write : Bool
  deriving DecidableEq, Repr

def reads (a n : Nat) : Span := { addr := a, len := n, write := false }
def writes (a n : Nat) : Span := { addr := a, len := n, write := true }

/-- The lines that `n` bytes from `d` lie in. -/
def linesOf (d n : Nat) : List Nat := if n = 0 then [] else (List.range ((d + n - 1) / 64 + 1 - d / 64)).map (d / 64 + ·)

/-- What the span does to one of its lines: a write of part of a word is a read-modify-write (R247). -/
def Span.kind (x : Span) (line : Nat) : LineKind :=
  let a := max x.addr (64 * line)
  let z := min (x.addr + x.len) (64 * line + 64)
  if !x.write then .read else if a % 8 ≠ 0 || z % 8 ≠ 0 then .rmw else if z - a = 64 then .full else .masked

/-- The port's requests for lines of the spans still wait: the row that moves them is not done (01 R28). -/
def spansWait (s : State) (port : Nat) (l : List Span) : Bool :=
  s.memc.reqs.any fun q => q.req.port.val = port && l.any fun x => (linesOf x.addr x.len).contains q.req.line

/-- Requests to the line that came before are served before (R251): a read that finds a write among them has waited. -/
def serveFirst (line : Nat) (read : Bool) (s : State) : State :=
  let l := s.memc.reqs.filter fun q => q.req.line = line
  let s := if read && l.any fun q => q.req.data.isSome then
      modCh (placeOf s line).channel (fun c => { c with rawWait := satInc c.rawWait }) s else s
  forEach l (fun q s => if s.memc.reqs.contains q then issue q [] s else s) s

/-- A stage's access to one line, made in its own row: it takes credit, and one that finds too little has waited for it
(R256, R265; log entry 17). -/
def stageLine (port : Nat) (k : LineKind) (hits : List (Nat × EccHit)) (line : Nat) (s : State) : State :=
  if !memServes s then s
  else
    let s := serveFirst line (k = .read || k = .rmw) s
    let short := !hasCredit s port k.cost
    let s := modMemc (fun m => { m with ports := vmod m.ports port fun x =>
      { x with wait := if short then satInc x.wait else x.wait,
               credit := if short then min x.credit 0 else x.credit } }) s
    let s := if short then s else takeCredit port k.cost s
    accessLine port line k ((hits.filter fun p => p.1 = line).map fun p => p.2) s

/-- The accesses of the spans of a row, in their order, with the checks of the words read. -/
def traffic (port : Nat) (hits : List (Nat × EccHit)) (l : List Span) (s : State) : State :=
  forEach l (fun x s => forEach (linesOf x.addr x.len) (fun n s => stageLine port (x.kind n) hits n s) s) s

end Sys2Proof.Machine
end

