-- ==== Sys2Proof/Machine/Chain.lean ====
section
/-! DEFINITION. The Piste as it lies in a bank: slots, regions, chains, operators and DRAM buffers (02 R41 to R43,
08 R193 to R201, 14 R330), the geometry of loads and stores, and the costs and finish times that prove fit (08 R202, R211;
02 R42, R46). -/
namespace Sys2Proof.Machine

namespace Bank

/-! ### Slots and regions (R42, R43) -/

def slotAt (b : Bank) (i : Nat) : Nat := piste b + slotOfs b + 16 * i
def slotEng (b : Bank) (i : Nat) : Nat := u8 b (slotAt b i)
def slotWait (b : Bank) (i : Nat) : Nat := u8 b (slotAt b i + 1)
def slotSignal (b : Bank) (i : Nat) : Nat := u8 b (slotAt b i + 2)
def slotEmits (b : Bank) (i : Nat) : Bool := (u8 b (slotAt b i + 3)).testBit 0
def slotChain (b : Bank) (i : Nat) : Nat := u16 b (slotAt b i + 4)
def slotRegion (b : Bank) (i : Nat) : Nat := u16 b (slotAt b i + 6)
def slotOrder (b : Bank) (i : Nat) : Nat := u16 b (slotAt b i + 8)
/-- The slots of engine `e` in ascending ORDER (R42). -/
def engSlots (b : Bank) (e : Nat) : List Nat :=
  ((List.range (nSlots b)).filter fun i => slotEng b i = e).insertionSort (fun i j => slotOrder b i ≤ slotOrder b j)

def regionAt (b : Bank) (r : Nat) : Nat := piste b + regionOfs b + 16 * r
def regTile (b : Bank) (r : Nat) : Nat := u8 b (regionAt b r)
def regSource (b : Bank) (r : Nat) : Nat := u8 b (regionAt b r + 1)
def regRow0 (b : Bank) (r : Nat) : Nat := u16 b (regionAt b r + 2)
def regRows (b : Bank) (r : Nat) : Nat := u16 b (regionAt b r + 4)
def regCol0 (b : Bank) (r : Nat) : Nat := u16 b (regionAt b r + 6)
def regCols (b : Bank) (r : Nat) : Nat := u16 b (regionAt b r + 8)
def regHalo (b : Bank) (r : Nat) : Nat := u8 b (regionAt b r + 10)

/-- The tile of a slot's region: 0xFF for a whole-device buffer. -/
def slotTile (b : Bank) (i : Nat) : Nat := regTile b (slotRegion b i)

/-! ### Chains (R193, R195) -/

def chainDir (b : Bank) (c : Nat) : Nat := piste b + chainOfs b + 8 * c
def chainBytes (b : Bank) (c : Nat) : Nat := u32 b (chainDir b c + 4)
def chainAt (b : Bank) (c : Nat) : Nat := piste b + u32 b (chainDir b c)
def nOps (b : Bank) (c : Nat) : Nat := u16 b (chainAt b c)
def stripRows (b : Bank) (c : Nat) : Nat := u16 b (chainAt b c + 2)
def nBuf (b : Bank) (c : Nat) : Nat := u8 b (chainAt b c + 4)
def bufAt (b : Bank) (c k : Nat) : Nat := chainAt b c + 0x40 + 8 * k
def lofs (b : Bank) (c k : Nat) : Nat := u32 b (bufAt b c k) % 2 ^ 18
def bufLinear (b : Bank) (c k : Nat) : Bool := (u32 b (bufAt b c k)).testBit 30
def bufZero (b : Bank) (c k : Nat) : Bool := (u32 b (bufAt b c k)).testBit 31
def bufPitch (b : Bank) (c k : Nat) : Nat := u16 b (bufAt b c k + 4)
def bufRows (b : Bank) (c k : Nat) : Nat := u16 b (bufAt b c k + 6)
def bufBytes (b : Bank) (c k : Nat) : Nat := bufPitch b c k * bufRows b c k
def zeroBufs (b : Bank) (c : Nat) : List Nat := (List.range (nBuf b c)).filter fun k => bufZero b c k

end Bank

/-- An operator descriptor (R197). -/
structure Opr where
  opc : Nat
  tin : Nat
  tout : Nat
  in0 : Nat
  in1 : Nat
  in2 : Nat
  out : Nat
  out2 : Nat
  flags : Nat
  p : List Nat
  deriving DecidableEq, Repr

def opAt (b : Bank) (c i : Nat) : Nat := Bank.chainAt b c + 0xC0 + 64 * i

def oprOf (b : Bank) (c i : Nat) : Opr :=
  let a := opAt b c i
  { opc := Bank.u8 b a, tin := Bank.u8 b (a + 1) % 16, tout := Bank.u8 b (a + 1) / 16, in0 := Bank.u8 b (a + 2),
    in1 := Bank.u8 b (a + 3), in2 := Bank.u8 b (a + 4), out := Bank.u8 b (a + 5), out2 := Bank.u8 b (a + 6),
    flags := Bank.u8 b (a + 7), p := (List.range 14).map fun j => Bank.u32 b (a + 8 + 4 * j) }

/-- Parameter j, unsigned and signed. -/
def Opr.u (o : Opr) (j : Nat) : Nat := o.p.getD j 0
def Opr.s (o : Opr) (j : Nat) : Int := toSigned 32 (o.p.getD j 0)
def Opr.firstOnly (o : Opr) : Bool := o.flags.testBit 0
def Opr.lastOnly (o : Opr) : Bool := o.flags.testBit 1
def Opr.gate (o : Opr) : Bool := o.flags.testBit 2
def Opr.checkInv (o : Opr) : Bool := o.flags.testBit 3

/-- Bits of an element of a type code (R197). -/
def typeBits : Nat → Nat
  | 0 => 8
  | 1 => 16
  | 2 => 16
  | 3 => 32
  | 4 => 32
  | _ => 1
def typeSigned (t : Nat) : Bool := t = 2 || t = 4

/-! ### Passes (R194) -/

/-- A pass of a slot: the region's tile, place, size and halo, and the pass's first row and row count. -/
structure Pass where
  tile : Nat
  row0 : Nat
  col0 : Nat
  cols : Nat
  halo : Nat
  first : Nat
  rows : Nat
  last : Bool
  deriving DecidableEq, Repr

def stripOf (b : Bank) (i : Nat) : Nat :=
  let n := Bank.stripRows b (Bank.slotChain b i)
  if n = 0 then Bank.regRows b (Bank.slotRegion b i) else n

def nPasses (b : Bank) (i : Nat) : Nat := ceilDiv (Bank.regRows b (Bank.slotRegion b i)) (stripOf b i)

def passOf (b : Bank) (i p : Nat) : Pass :=
  let r := Bank.slotRegion b i
  let n := stripOf b i
  let total := Bank.regRows b r
  { tile := Bank.regTile b r, row0 := Bank.regRow0 b r, col0 := Bank.regCol0 b r, cols := Bank.regCols b r,
    halo := Bank.regHalo b r, first := p * n, rows := min ((p + 1) * n) total - p * n, last := p + 1 = nPasses b i }

/-- The operators that pass p of slot i runs, in order (R194). -/
def passOps (b : Bank) (i p : Nat) : List Nat :=
  let c := Bank.slotChain b i
  (List.range (Bank.nOps b c)).filter fun j =>
    let o := oprOf b c j
    !(o.firstOnly && p ≠ 0) && !(o.lastOnly && p + 1 ≠ nPasses b i)

/-- The first pass from p on that runs an operator, with its first operator: a pass may run none (R194). -/
def passFrom (b : Bank) (i p : Nat) : Option (Nat × Nat) :=
  ((List.range (nPasses b i)).drop p).findSome? fun q => (passOps b i q).head?.map fun j => (q, j)

/-! ### DRAM buffers (R199, R330) -/

/-- A DRAM buffer entry. -/
structure DBuf where
  base : Nat
  slotBytes : Nat
  tileBytes : Nat
  rowBytes : Nat
  nSlots : Nat
  rowBias : Nat
  writable : Bool
  stream : Bool
  rows : Nat
  deriving DecidableEq, Repr

def dbufAt (b : Bank) (k : Nat) : Nat := Bank.secOfs b 8 + 32 * k
/-- An entry whose 32 bytes are all zero defines no buffer (R199). -/
def dbufDefined (b : Bank) (k : Nat) : Bool :=
  k < 3 || (k < 64 && (readCells zeroByte b (dbufAt b k) 32).any fun x => x ≠ 0)

/-- Entry k: 0 to 2 are formed by the device (R199, R330). The statistics ring is a whole-device buffer (DEDUCED, log
entry 20). -/
def dbufOf (b : Bank) (k : Nat) : DBuf :=
  if k = 0 then { base := Bank.corrBase b, slotBytes := 101711872, tileBytes := 1589248, rowBytes := 2048,
                  nSlots := Bank.nCorr b, rowBias := 8, writable := false, stream := false, rows := 768 }
  else if k = 1 then { base := Bank.statsBase b, slotBytes := 69696, tileBytes := 0, rowBytes := 0,
                       nSlots := Bank.nStats b, rowBias := 0, writable := false, stream := false, rows := 0 }
  else if k = 2 then { base := Bank.evtBase b, slotBytes := Bank.evtSlotBytes b, tileBytes := 0, rowBytes := 0,
                       nSlots := 2, rowBias := 0, writable := true, stream := false, rows := 0 }
  else
    let a := dbufAt b k
    { base := Bank.u64 b a, slotBytes := Bank.u64 b (a + 0x08), tileBytes := Bank.u32 b (a + 0x10),
      rowBytes := Bank.u32 b (a + 0x14), nSlots := Bank.u16 b (a + 0x18), rowBias := Bank.u8 b (a + 0x1A),
      writable := (Bank.u8 b (a + 0x1B)).testBit 0, stream := (Bank.u8 b (a + 0x1B)).testBit 1,
      rows := Bank.u32 b (a + 0x1C) }

def DBuf.bytes (d : DBuf) : Nat := d.nSlots * d.slotBytes
/-- Bit b of TABLE_DBUF (R330). -/
def namedDbuf (b : Bank) (k : Nat) : Bool := (Bank.tableDbuf b).testBit k

/-! ### Loads and stores (R200, R201) -/

def Opr.dbuf (o : Opr) : Nat := o.u 0 % 256
def Opr.tileField (o : Opr) : Nat := bits (o.u 0) 15 8
def Opr.frameOfs (o : Opr) : Int := toSigned 8 (bits (o.u 0) 23 16)
def Opr.mode (o : Opr) : Nat := bits (o.u 0) 25 24
def Opr.edgeConst (o : Opr) : Bool := (o.u 0).testBit 26
def Opr.isLoad (o : Opr) : Bool := o.opc = 0x01
def Opr.isStore (o : Opr) : Bool := o.opc = 0x02
/-- The type of the elements moved: a LOAD's output type, a STORE's input type. -/
def Opr.moveType (o : Opr) : Nat := if o.opc = 0x01 then o.tout else o.tin
def Opr.tileOf (o : Opr) (g : Pass) : Nat := if o.tileField = 0xFF then g.tile else o.tileField

/-- A rectangle of DRAM elements: first row, rows, first column, columns. -/
structure Rect where
  row : Int
  rows : Nat
  col : Int
  cols : Nat
  deriving DecidableEq, Repr

/-- The rectangle that the operand covers, before it is cut to what exists (R200). -/
def Opr.rect (o : Opr) (g : Pass) : Rect :=
  let r0 : Int := g.row0 + g.first
  if o.mode = 1 then { row := r0 + o.s 1, rows := o.u 3, col := g.col0 + o.s 2, cols := o.u 4 }
  else
    let h := if o.isLoad then g.halo else 0
    { row := r0 - h, rows := g.rows + 2 * h, col := g.col0 - h, cols := g.cols + 2 * h }

/-- The rows and columns that a LOAD fetches from (R200): those of a tile, or of a whole-device buffer, which is one with
TILE_BYTES 0 (R199) or one reached with TILE 0xFF. -/
def DBuf.perTile (d : DBuf) (tile : Nat) : Bool := decide (tile < 64) && d.tileBytes ≠ 0
def rowLimit (d : DBuf) (tile : Nat) : Nat := if d.perTile tile then 768 else d.rows
def colLimit (d : DBuf) (tile ty : Nat) : Nat := if d.perTile tile then 1024 else d.rowBytes * 8 / typeBits ty

/-- The part of a rectangle that lies within the limits (R200). -/
def Rect.cut (r : Rect) (rl cl : Nat) : Rect :=
  let lo (x : Int) (l : Nat) : Int := clamp x 0 l
  let a := lo r.row rl
  let a' := lo (r.row + r.rows) rl
  let c := lo r.col cl
  let c' := lo (r.col + r.cols) cl
  { row := a, rows := (a' - a).toNat, col := c, cols := (c' - c).toNat }

/-- The rectangle that a LOAD fetches, cut to the limits, or that a STORE writes, which has none but its buffer (R200,
R212). -/
def Opr.moved (o : Opr) (d : DBuf) (g : Pass) : Rect :=
  if o.isLoad then (o.rect g).cut (rowLimit d (o.tileOf g)) (colLimit d (o.tileOf g) o.moveType) else o.rect g

/-- First byte and byte length of `n` elements from column `col` of a row (R201). -/
def colSpan (ty : Nat) (col : Int) (n : Nat) : Int × Nat :=
  let a := col * typeBits ty
  (a / 8, ((a + n * typeBits ty + 7) / 8 - a / 8).toNat)

/-- 64-byte lines that a span touches (R201). -/
def spanLines (a len : Nat) : Nat := if len = 0 then 0 else (a % 64 + len - 1) / 64 + 1

/-- Byte offset of row `row` within a slot of the buffer (R200). -/
def rowOffset (d : DBuf) (tile : Nat) (row : Int) : Int :=
  (if tile < 64 then tile * d.tileBytes else 0 : Nat) + (d.rowBias + row) * d.rowBytes

/-- The spans of bytes of a slot of its buffer that a LOAD or STORE with geometry touches, row by row (R201). -/
def Opr.spans (o : Opr) (d : DBuf) (g : Pass) : List (Int × Nat) :=
  let r := o.moved d g
  let sp := colSpan o.moveType r.col r.cols
  if r.cols = 0 then [] else (List.range r.rows).map fun y => (rowOffset d (o.tileOf g) (r.row + y) + sp.1, sp.2)

/-- Element count of the producing operator of an append store (R201, R226). -/
def producedCount (b : Bank) (c i : Nat) (g : Pass) (buf : Nat) : Nat :=
  match ((List.range i).reverse.map fun j => oprOf b c j).find? fun o => o.out = buf with
  | some o => if o.opc = 0x15 || o.opc = 0x16 then o.u 1 else g.rows * g.cols
  | none => g.rows * g.cols

/-- The line count of a LOAD or STORE in a pass (R201). -/
def opLines (b : Bank) (c i : Nat) (g : Pass) : Nat :=
  let o := oprOf b c i
  let d := dbufOf b o.dbuf
  let tile := o.tileOf g
  match o.mode with
  | 2 => spanLines (d.base + (if tile < 64 then tile * d.tileBytes else 0) + o.u 1) (o.u 2)
  | 3 => ceilDiv (o.u 6 * producedCount b c i g o.in0) 16384 + 1
  | _ => ((o.spans d g).map fun x => spanLines ((d.base : Int) + x.1).toNat x.2).sum

/-! ### Costs and finish times (R192, R202, R211; R42, R46) -/

def dmaMbps (b : Bank) (e : Nat) : Nat := Bank.u16 b (Bank.secOfs b 7 + 8 * e)
/-- ns between two lines of an engine's DMA unit (R192). -/
def lineNs (b : Bank) (e : Nat) : Nat := ceilDiv 64000 (dmaMbps b e)

def wide (o : Opr) : Bool := typeBits o.tin = 32 || typeBits o.tout = 32

/-- Coefficients a and b of R202, b in 1/256 ns for each element. -/
def opCoef (o : Opr) : Nat × Nat :=
  match o.opc with
  | 0x03 => (16, 8)
  | 0x04 => (32, if wide o then 32 else 16)
  | 0x05 => (48, if wide o then 64 else 32)
  | 0x06 => (32, if wide o then 32 else 16)
  | 0x07 => (32, if wide o then 32 else 16)
  | 0x08 => (64, if typeBits o.tout = 32 then 128 else 64)
  | 0x09 => (64, 144)
  | 0x0A => (96, 400)
  | 0x0B => (64, 192)
  | 0x0C => (48, if o.tin = 5 then 8 else 48)
  | 0x0D => (48, 16)
  | 0x0E => (128, 512)
  | 0x0F => (64, 128)
  | 0x10 => (32, 16)
  | 0x11 => (2560, 0)
  | 0x12 => (32, 16)
  | 0x13 => (16, 1)
  | 0x14 => (64, 96)
  | 0x15 => (1024 + 48 * o.u 1, 0)
  | 0x16 => (256 + 16 * 8192 + 64 * o.u 1, 0)
  | 0x17 => (128, 96)
  | _ => (0, 0)

/-- Cost of an operator in a pass, in ns (R202). -/
def opCost (b : Bank) (e c i : Nat) (g : Pass) : Nat :=
  let o := oprOf b c i
  if o.isLoad || o.isStore then 256 + opLines b c i g * lineNs b e
  else (opCoef o).1 + ceilDiv ((opCoef o).2 * (g.rows * g.cols)) 256

/-- Cost of a slot, in ns (R211). -/
def slotNs (b : Bank) (i : Nat) : Nat :=
  let c := Bank.slotChain b i
  512 + ((Bank.zeroBufs b c).map fun k => 16 + ceilDiv (Bank.bufBytes b c k) 64).sum
    + ((List.range (nPasses b i)).map fun p =>
        ((passOps b i p).map fun j => opCost b (Bank.slotEng b i) c j (passOf b i p)).sum).sum

/-- The slot before slot i in its engine's list. -/
def prevSlot (b : Bank) (i : Nat) : Option Nat :=
  let l := Bank.engSlots b (Bank.slotEng b i)
  ((l.zip (l.drop 1)).find? fun p => p.2 = i).map fun p => p.1

/-- The slots that signal a barrier. -/
def signallers (b : Bank) (w : Nat) : List Nat :=
  if w = 0xFF then [] else (List.range (Bank.nSlots b)).filter fun j => Bank.slotSignal b j = w

/-- One round of the start rule of R42 over the slots whose start can be known. -/
def scheduleRound (b : Bank) (f : List (Option Nat)) : List (Option Nat) :=
  (List.range (Bank.nSlots b)).map fun i =>
    let need := (match prevSlot b i with | some j => [j] | none => []) ++ signallers b (Bank.slotWait b i)
    let got := need.map fun j => f.getD j none
    if got.all fun x => x.isSome then some ((got.filterMap id).foldl max 0 + slotNs b i) else none

/-- Finish times of all slots from the tick, in ns (R46): none where the barriers form a cycle with engine order. -/
def schedule (b : Bank) : List (Option Nat) :=
  (List.range (Bank.nSlots b)).foldl (fun f _ => scheduleRound b f) (List.replicate (Bank.nSlots b) none)

/-- The proven finish of a slot. -/
def planNs (b : Bank) (i : Nat) : Nat := ((schedule b).getD i none).getD 0

end Sys2Proof.Machine
end

