-- ==== Sys2Proof/Machine/Streams.lean ====
section
/-! DEFINITION. Output streams (12 R290 to R301; 02 R50; 01 R21): descriptors, extents, frame headers, entries, room and
drops, the EVENT records of the engine period, and the parts of a frozen hold record. -/
namespace Sys2Proof.Machine

namespace Bank

/-! ### Stream descriptors (R290) -/

def strAt (b : Bank) (m : Nat) : Nat := secOfs b 10 + 64 * m
def strType (b : Bank) (m : Nat) : Nat := u8 b (strAt b m)
def strBlind (b : Bank) (m : Nat) : Bool := (u8 b (strAt b m + 1)).testBit 0
def strRo (b : Bank) (m : Nat) : Bool := (u8 b (strAt b m + 1)).testBit 1
def strVector (b : Bank) (m : Nat) : Nat := u16 b (strAt b m + 0x02)
def strIrqEvery (b : Bank) (m : Nat) : Nat := u16 b (strAt b m + 0x04)
def strDiv (b : Bank) (m : Nat) : Nat := u16 b (strAt b m + 0x06)
def strMask (b : Bank) (m : Nat) : Nat := u64 b (strAt b m + 0x08)
def strTiles (b : Bank) (m : Nat) : List Nat := (List.range 64).filter fun t => (strMask b m).testBit t
def strDataBase (b : Bank) (m : Nat) : Nat := u64 b (strAt b m + 0x10)
def strDataBytes (b : Bank) (m : Nat) : Nat := u64 b (strAt b m + 0x18)
def strEntBase (b : Bank) (m : Nat) : Nat := u64 b (strAt b m + 0x20)
def strEntries (b : Bank) (m : Nat) : Nat := u32 b (strAt b m + 0x28)
def strParam (b : Bank) (m : Nat) : Nat := u32 b (strAt b m + 0x2C)
def strWb (b : Bank) (m : Nat) : Nat := u64 b (strAt b m + 0x30)
def strSrc (b : Bank) (m : Nat) : Nat := u8 b (strAt b m + 0x38)

/-- The hold record (R234). -/
def holdAt (b : Bank) : Nat := secOfs b 11
def holdDbuf (b : Bank) : Nat := u8 b (holdAt b)
def holdDiv (b : Bank) : Nat := u8 b (holdAt b + 1)
def holdPost (b : Bank) : Nat := u16 b (holdAt b + 2)
def holdNIdx (b : Bank) : Nat := u32 b (holdAt b + 4)
def holdIndex (b : Bank) : Nat := u64 b (holdAt b + 8)
def hasHold (b : Bank) : Bool := holdDbuf b ≠ 0xFF

end Bank

/-- Capacity of the hold buffer (R234). -/
def holdCap (b : Bank) : Nat := (dbufOf b (Bank.holdDbuf b)).bytes
def holdBase (b : Bank) : Nat := (dbufOf b (Bank.holdDbuf b)).base

/-- An extent is padded to a multiple of 128 bytes (R293). -/
def pad128 (n : Nat) : Nat := ceilDiv n 128 * 128

/-- Payload bytes of a frame of a stream, with EVENT at its maximum (R292). -/
def payloadMax (b : Bank) (m : Nat) : Nat :=
  let n := (Bank.strTiles b m).length
  match Bank.strType b m with
  | 1 => 3178496 * n
  | 2 => (if Bank.strBlind b m then 1589248 else 1572864) * n
  | 3 => 3145728 * n
  | 4 => 50331648
  | 5 => 32 * Bank.strParam b m
  | 6 => 1088 * n
  | _ => 0

/-- F_max of R291: the largest extent of one frame, or of one HOLD part. -/
def fMax (b : Bank) (m : Nat) : Nat :=
  if Bank.strType b m = 7 then Bank.strParam b m else pad128 (128 + payloadMax b m)

/-! ### Frames of the three periods -/

/-- The ring index of R133 of the frame the engines process, and of the frame output DMA delivers (R58). -/
def engIndex (s : State) : Nat := if 1 ≤ s.cfg.n then s.cfg.n - 1 else s.cfg.prevN
def dmaIndex (s : State) : Nat :=
  if 2 ≤ s.cfg.n then s.cfg.n - 2 else if s.cfg.n = 1 then s.cfg.prevN else s.cfg.prevN - 1

/-- The frame `age` periods old: 0 the lanes', 1 the engines', 2 output DMA's; its SFN as outputs carry it. -/
def frameSfn (s : State) (age : Nat) : Option Sfn := (s.tick.frames.getD age none)

/-- Mark a status byte OVERRUN: VALID is cleared (R49, R50, R149). -/
def markOvr (x : BitVec 8) : BitVec 8 := (x ||| 0x40#8) &&& 0xFE#8

/-- Status bytes of the frame `age` periods old as streams deliver them (R293, R49): 0x00 for a tile not enabled. -/
def streamStatus (s : State) (b : Bank) (age : Nat) (ovr : BitVec 64) : List Byte :=
  (List.range 64).map fun t =>
    if Bank.enabled b t then
      let x := (tileOf s t).lane.statusPipe.getD (age - 1) 0
      if ovr.getLsbD t then markOvr x else x
    else 0

/-- The current read base and write base of a DRAM buffer (R146, R318, R319). -/
def dbufBases (s : State) (b : Bank) (k : Nat) : TblBase :=
  match s.cfg.dbufBase.find? fun p => p.1 = k with
  | some p => p.2
  | none => { base := BitVec.ofNat 64 (dbufOf b k).base, write := BitVec.ofNat 64 (dbufOf b k).base }

/-- The bases that a buffer will have in the next period (R146, R318, R319). -/
def dbufAhead (s : State) (b : Bank) (k : Nat) : TblBase :=
  match s.cfg.dbufNext.find? fun p => p.1 = k with
  | some p => p.2
  | none => let x := dbufBases s b k; { base := x.write, write := x.write }

/-! ### EVENT records of the engine period (R230, R298) -/

/-- A chain appends to buffer 2. -/
def appendsEvents (b : Bank) (i : Nat) : Bool :=
  let c := Bank.slotChain b i
  (List.range (Bank.nOps b c)).any fun j => let o := oprOf b c j; o.isStore && o.mode = 3 && o.dbuf = 2

def eventSlots (b : Bank) : List Nat := (List.range (Bank.nSlots b)).filter fun i => appendsEvents b i

def slotEnded (s : State) (i : Nat) : Bool := s.eng.fates.any fun p => p.1 = i

/-- The records of a slot in the frame, in INDEX order. -/
def slotEvents (s : State) (i : Nat) : List Byte := (s.eng.events.filter fun p => p.1 = i).flatMap fun p => p.2

/-- The event records in ascending slot index (R230). -/
def allEvents (s : State) (b : Bank) : List Byte := (eventSlots b).flatMap fun i => slotEvents s i

/-- Those whose place is settled: every earlier slot that appends has ended. -/
def settledEvents (s : State) (b : Bank) : List Byte :=
  ((eventSlots b).takeWhile fun i => slotEnded s i).flatMap fun i => slotEvents s i

/-- Every EMITS_EVENT slot of the period has finished or been abandoned (R298). -/
def emittersEnded (s : State) (b : Bank) : Bool :=
  ((List.range (Bank.nSlots b)).filter fun i => Bank.slotEmits b i || appendsEvents b i).all fun i => slotEnded s i

/-- TRUNC of an EVENT delivery (R295). -/
def eventTrunc (s : State) (b : Bank) (m : Nat) : Bool :=
  let l := allEvents s b
  32 * Bank.strParam b m < l.length ||
    (List.range (l.length / 32)).any fun k => (l.getD (32 * k + 5) 0).getLsbD 0

/-! ### Extents, headers and entries -/

/-- Write bytes into the data ring of a stream from cursor `w` on (R293). -/
def extentWrite (b : Bank) (m : Nat) (ro : Bool) (w : Nat) (bs : List Byte) (s : State) : State :=
  let d := Bank.strDataBytes b m
  let p := w % d
  let s := hostWriteRo ro (Bank.strDataBase b m + p) (bs.take (d - p)) s
  hostWriteRo ro (Bank.strDataBase b m) (bs.drop (d - p)) s

/-- What the header of an extent says besides its stream (R294). -/
structure Head where
  sfn : Sfn
  flags : BitVec 32
  devTime : BitVec 64
  nTiles : Nat
  payload : Nat
  period : Word
  count : Nat
  part : Nat
  status : List Byte
  deriving DecidableEq, Repr

/-- The flags that the stream adds: DROPPED and OVERRUN (R295). -/
def headFlags (s : State) (m : Nat) (h : Head) : Nat :=
  let dropped := decide ((streamOf s m).dropSince ≠ 0)
  let ovr := h.status.any fun x => x.getLsbD 6
  (((if dropped then setBit h.flags 7 else h.flags) ||| (if ovr then 0x400#32 else 0))).toNat

/-- The 64-byte frame header and the 64-byte tile status block (R293, R294). -/
def headBytes (s : State) (b : Bank) (m : Nat) (h : Head) : List Byte :=
  let valid := (h.status.zipIdx.map fun p => if p.1.getLsbD 0 then 2 ^ p.2 else 0).sum
  leBytes 4 0x52444846 ++ [BitVec.ofNat 8 (Bank.strType b m), 1] ++ leBytes 2 m ++ leBytes 4 h.sfn.toNat
    ++ leBytes 4 (headFlags s m h) ++ leBytes 8 h.devTime.toNat ++ leBytes 2 s.sync.id.toNat ++ leBytes 2 h.nTiles
    ++ leBytes 4 h.payload ++ leBytes 8 valid ++ leBytes 4 h.period.toNat ++ leBytes 4 h.count ++ leBytes 4 h.part
    ++ leBytes 4 (streamOf s m).prod.toNat ++ leBytes 8 0 ++ h.status

/-- Post an extent that lies at `start` and is `len` bytes long, its payload being written: header and status block,
entry, writeback and message (R296, R299, R300). -/
def postExtent (b : Bank) (m : Nat) (h : Head) (start len : Nat) (s : State) : State :=
  let x := streamOf s m
  let fl := headFlags s m h
  let s := extentWrite b m false start (headBytes s b m h) s
  let entryFlags := bits fl 7 7 + bits fl 8 8 * 2 + bits fl 9 9 * 4 + bits fl 10 10 * 8
  let s := hostWrite (Bank.strEntBase b m + 32 * (x.prod.toNat % Bank.strEntries b m))
    (leBytes 4 h.sfn.toNat ++ leBytes 2 m ++ [BitVec.ofNat 8 (Bank.strType b m), BitVec.ofNat 8 entryFlags]
      ++ leBytes 8 start ++ leBytes 4 len ++ leBytes 4 x.dropSince.toNat ++ leBytes 4 x.prod.toNat ++ leBytes 4 0) s
  let s := hostWrite (Bank.strWb b m) (leBytes 4 (x.prod + 1).toNat ++ leBytes 4 0 ++ leBytes 8 x.w.toNat) s
  let n := x.sinceIrq + 1
  let due := Bank.strVector b m ≠ 0xFFFF && decide (Bank.strIrqEvery b m ≤ n)
  let s := modStream m (fun y => { y with prod := y.prod + 1, dropSince := 0, sinceIrq := if due then 0 else n,
                                          entries := y.entries + 1 }) s
  if due then sendVector (Bank.strVector b m) s else s

/-- Room for a delivery of `len` bytes (R297). -/
def streamFits (s : State) (b : Bank) (m len : Nat) : Bool :=
  let x := streamOf s m
  decide (x.w.toNat + len ≤ Bank.strDataBytes b m + x.consCur.toNat)
    && decide ((x.prod - x.cons).toNat < Bank.strEntries b m)

/-- A frame of the stream is not delivered and is counted (R297). -/
def dropFrame (m : Nat) (s : State) : State :=
  modHost (fun h => { h with dropSeen := true })
    (modStream m (fun x => { x with dropSince := x.dropSince + 1, dropCnt := satInc x.dropCnt, doneNow := true }) s)

/-! ### The streams of a period (R298) -/

/-- The frame of stream m to be delivered in this period, with its age and the set it runs under: none when the stream
is not defined, its frame was not read, or its DIV does not admit it (R290). -/
def streamDue (s : State) (m : Nat) : Option (Bank × Nat × Sfn) :=
  let ev := match engineSet s with | some b => decide (Bank.strType b m = 5) | none => false
  match (if ev then engineSet s else dmaSet s) with
  | none => none
  | some b =>
    let ty := Bank.strType b m
    let age := if ev then 1 else 2
    match frameSfn s age with
    | none => none
    | some f =>
      if ty = 0 || ty = 7 || ((ty = 5) != ev) then none
      else if ty ≠ 5 && f.toNat % Bank.strDiv b m ≠ 0 then none
      else some (b, age, f)

/-- The stream is to be delivered in this period and has not been: a restarted stream makes no delivery of the frames
read before its swap (R303). -/
def streamOpen (s : State) (m : Nat) : Option (Bank × Nat × Sfn) :=
  let x := streamOf s m
  if x.doneNow || x.hush ≠ 0 then none else streamDue s m

/-- Step 1 of R298: the streams of frame k−2 with a lower index are done. -/
def lowerDone (s : State) (m : Nat) : Bool :=
  (List.range m).all fun j => match streamOpen s j with | some (_, age, _) => age = 1 | none => true

/-- Where the payload of the frame lies in DRAM (R292): of an EVENT stream, its records in the event buffer. -/
def payloadSpans (s : State) (b : Bank) (m : Nat) : List Span :=
  let n := dmaIndex s
  let src := dbufOf b (Bank.strSrc b m)
  let base := (dbufBases s b (Bank.strSrc b m)).base.toNat + n % src.nSlots * src.slotBytes
  match Bank.strType b m with
  | 1 => (Bank.strTiles b m).flatMap fun t =>
      [reads (Bank.rawBase b + n % Bank.nRaw b * 203423744 + t * 3178496) 3178496]
  | 2 => (Bank.strTiles b m).flatMap fun t =>
      let a := Bank.corrBase b + n % Bank.nCorr b * 101711872 + t * 1589248
      [if Bank.strBlind b m then reads a 1589248 else reads (a + 16384) 1572864]
  | 3 => (Bank.strTiles b m).map fun t => reads (base + t * 3145728) 3145728
  | 4 => [reads base 50331648]
  | 6 => (Bank.strTiles b m).map fun t => reads (Bank.statsBase b + n % Bank.nStats b * 69696 + 64 + 1088 * t) 1088
  | 5 => [reads (Bank.evtBase b + engIndex s % 2 * Bank.evtSlotBytes b) (min (32 * Bank.strParam b m) (allEvents s b).length)]
  | _ => []

/-- The payload of the frame, copied from DRAM unchanged (R292). -/
def payloadOf (s : State) (b : Bank) (m : Nat) : List Byte :=
  (payloadSpans s b m).flatMap fun x => dramRead s x.addr x.len

/-- The header of the frame's delivery. -/
def frameHead (s : State) (b : Bank) (m age : Nat) (f : Sfn) (payload count : Nat) : Head :=
  let ty := Bank.strType b m
  let (time, period) := s.tick.stamps.getD age (0, 0)
  let fl := s.tick.flags.getD age 0
  { sfn := f, flags := if ty = 5 && eventTrunc s b m then setBit fl 6 else fl, devTime := time,
    nTiles := if ty = 4 || ty = 5 then 0 else (Bank.strTiles b m).length, payload, period, count, part := 0,
    status := streamStatus s b age (if age = 1 then s.tick.engOvrTiles else s.tick.dmaOvrTiles) }

/-- The records that an EVENT delivery carries (R292). -/
def eventPayload (s : State) (b : Bank) (m : Nat) : List Byte := (allEvents s b).take (32 * Bank.strParam b m)

/-- A delivery starts: its room is judged and its extent placed, EVENT's length being known at its end (R297). -/
def startDelivery (m : Nat) (s : State) : State :=
  match streamOpen s m with
  | none => s
  | some (b, age, f) =>
    if (streamOf s m).delivery.isSome || !(age = 1 || lowerDone s m) then s
    else
      let len := fMax b m
      if !canIssue s || !streamFits s b m len then dropFrame m s
      else
        let w := (streamOf s m).w
        modStream m (fun x => { x with
          delivery := some { sfn := f, start := w.toNat, len := if age = 1 then 0 else len },
          w := if age = 1 then x.w else x.w + BitVec.ofNat 64 len }) s

/-- A delivery under way when the device may no longer issue requests is not made (R289). -/
def loseDelivery (m : Nat) (s : State) : State :=
  if (streamOf s m).delivery.isSome && (streamOpen s m).isSome then
    modStream m (fun x => { x with delivery := none }) (dropFrame m s)
  else s

/-- Records that have become settled are written into the extent (R298), unless the device may not issue (R289). -/
def writeEvents (m : Nat) (b : Bank) (before : List Byte) (s : State) : State :=
  match (streamOf s m).delivery with
  | none => s
  | some d =>
    if !canIssue s then loseDelivery m s else
    let now := (settledEvents s b).take (32 * Bank.strParam b m)
    let old := before.take (32 * Bank.strParam b m)
    extentWrite b m (Bank.strRo b m && s.host.roEn) (d.start + 128 + old.length) (now.drop old.length) s

/-- The EVENT streams of the set the engines run under. -/
def eventStreams (s : State) (b : Bank) : List Nat :=
  (List.range 32).filter fun m => Bank.strType b m = 5 && (streamOpen s m).isSome

/-- The event records of a slot are written as it ends (R298): the delivery starts with the first. -/
def eventsAtSlotEnd (b : Bank) (before : List Byte) (s : State) : State :=
  forEach (eventStreams s b) (fun m s =>
    let s := startDelivery m s
    writeEvents m b before s) s

/-- A started delivery is completed: payload, then header and status block, entry, writeback and message (R299). Output
DMA reads nothing in a quiet window (02 R45), and a read that freezes the controller ends the delivery (10 R261). -/
def endDelivery (m : Nat) (hits : List (Nat × EccHit)) (s : State) : State :=
  match streamOpen s m, (streamOf s m).delivery with
  | some (b, age, f), some d =>
    if !canIssue s || !memServes s || s.memc.quiet || (age = 1 && !emittersEnded s b)
        || spansWait s 8 (payloadSpans s b m) then s
    else
    let s := traffic 8 hits (payloadSpans s b m) s
    if s.memc.frozen then s
    else if age = 1 then
      let p := eventPayload s b m
      let len := pad128 (128 + p.length)
      let s := modStream m (fun x => { x with w := x.w + BitVec.ofNat 64 len, delivery := none, doneNow := true }) s
      let s := extentWrite b m (Bank.strRo b m && s.host.roEn) (d.start + 128 + p.length)
        (List.replicate (len - 128 - p.length) 0) s
      postExtent b m (frameHead s b m 1 f p.length (p.length / 32)) d.start len s
    else
      let p := payloadOf s b m
      let s := modStream m (fun x => { x with delivery := none, doneNow := true }) s
      let s := extentWrite b m (Bank.strRo b m && s.host.roEn) (d.start + 128)
        (p ++ List.replicate (d.len - 128 - p.length) 0) s
      postExtent b m (frameHead s b m 2 f p.length 0) d.start d.len s
  | _, _ => s

/-- A stream whose frame is not complete at the end of its period (R50): the unsent data is discarded, and its header,
status block and entry are posted with every enabled tile OVERRUN. A delivery that had not started is header only. -/
def overrunStream (m : Nat) (s : State) : State :=
  match streamOpen s m with
  | none => s
  | some (b, age, f) =>
    let ovr := Bank.enabledMask b
    let evp := (eventPayload s b m).length
    let mark (h : Head) : Head := { h with status := streamStatus s b age ovr }
    match (streamOf s m).delivery with
    | some d =>
      if !canIssue s then modStream m (fun x => { x with delivery := none }) (dropFrame m s)
      else
        let pay := if age = 1 then evp else payloadMax b m
        let len := if age = 1 then pad128 (128 + evp) else d.len
        let s := modStream m (fun x => { x with
          w := if age = 1 then x.w + BitVec.ofNat 64 len else x.w, delivery := none, doneNow := true }) s
        postExtent b m (mark (frameHead s b m age f pay (if age = 1 then evp / 32 else 0))) d.start len s
    | none =>
      if !canIssue s || !streamFits s b m 128 then dropFrame m s
      else
        let start := (streamOf s m).w.toNat
        let s := modStream m (fun x => { x with w := x.w + 128#64, doneNow := true }) s
        postExtent b m { (mark (frameHead s b m age f 0 0)) with nTiles := 0 } start 128 s

/-! ### HOLD delivery (R301) -/

/-- The HOLD stream of the active set. -/
def holdStream (b : Bank) : Option Nat := (List.range 32).find? fun m => Bank.strType b m = 7

/-- Bytes of the hold ring from cursor `h` on, as `rd` reads DRAM (R236). -/
def ringRead (rd : Nat → Nat → List Byte) (b : Bank) (h n : Nat) : List Byte :=
  let c := holdCap b
  let p := h % c
  let first := min n (c - p)
  rd (holdBase b + p) first ++ rd (holdBase b) (n - first)
def holdRead (s : State) (b : Bank) (h n : Nat) : List Byte := ringRead (dramRead s) b h n
/-- The spans of those bytes. -/
def ringSpans (b : Bank) (h n : Nat) (write : Bool) : List Span :=
  let c := holdCap b
  let p := h % c
  let first := min n (c - p)
  [{ addr := holdBase b + p, len := first, write }, { addr := holdBase b, len := n - first, write }]

/-- A piece, as start and length, whose MAGIC and CRC check: one that does not is incomplete (R236). -/
def pieceComplete (rd : Nat → Nat → List Byte) (b : Bank) (p : Nat × Nat) : Bool :=
  let hd := ringRead rd b p.1 32
  let n := leNat ((hd.drop 0x10).take 4)
  decide (leNat (hd.take 2) = 0x4850) && decide (32 + n ≤ p.2)
    && decide (leNat ((hd.drop 0x14).take 4) = (crc32 (ringRead rd b (p.1 + 32) n)).toNat)

/-- The 32-byte index entry of a retained frame (R238). -/
def indexEntry (f : HoldFrame) : List Byte :=
  leBytes 4 f.sfn.toNat ++ leBytes 4 f.flags.toNat ++ leBytes 8 f.start ++ leBytes 8 f.bytes ++ leBytes 4 f.pieces
    ++ leBytes 4 0

/-- The complete pieces of a retained frame in ascending slot and pass order, as start and length (R239). -/
def framePieces (s : State) (b : Bank) (no : Nat) : List (Nat × Nat) :=
  (((((s.hold.pieces.filter fun p => p.1 = no).insertionSort fun p q =>
      p.2.1 < q.2.1 || (p.2.1 = q.2.1 && p.2.2.1 ≤ q.2.2.1))).map fun p => (p.2.2.2.1, p.2.2.2.2))).filter
    (pieceComplete (dramHeld s) b)

/-- How many of the pieces fit a part whose payload already has `used` bytes (R301). -/
def partPieces (param : Nat) : Nat → List (Nat × Nat) → Nat
  | _, [] => 0
  | used, p :: r => if pad128 (128 + used + p.2) ≤ param then 1 + partPieces param (used + p.2) r else 0

/-- The status-block bytes of a retained frame: those of its pieces' headers (R301). -/
def holdStatus (s : State) (b : Bank) (ps : List (Nat × Nat)) : List Byte :=
  let l := ps.map fun p => holdRead s b p.1 4
  (List.range 64).map fun t => match l.find? fun x => x.getD 2 0xFF = BitVec.ofNat 8 t with
    | some x => x.getD 3 0
    | none => 0

/-- Deliver one part of the oldest frame left, or make it wait (R301). -/
def holdPart (hits : List (Nat × EccHit)) (s : State) : State :=
  match activeSet s with
  | none => s
  | some b =>
    match holdStream b, s.hold.retained[s.hold.retained.length - s.hold.toSend]? with
    | some m, some f =>
      let streamsDone := (List.range 32).all fun j =>
        match streamOpen s j with | some (_, age, _) => age = 1 | none => true
      if !s.hold.delivering || s.hold.waitNow || !streamsDone || !(s.dev.power = .imaging || s.dev.power = .parked) || !memServes s || s.memc.quiet
        || s.tick.period.toNat < s.clock.now - s.clock.lastTick + 100000 then s
      else
        let ps := framePieces s b f.no
        let rest := ps.drop s.hold.piecesSent
        let head := if s.hold.part = 0 then indexEntry f else []
        let n := partPieces (Bank.strParam b m) head.length rest
        let data := head ++ (rest.take n).flatMap fun p => holdRead s b p.1 p.2
        let len := pad128 (128 + data.length)
        if Bank.strParam b m < s.hold.sentNow + len then s
        else if !canIssue s || !streamFits s b m len then
          modHold (fun x => { x with waitNow := true }) (modStream m (fun x => { x with waiting := true }) s)
        else
          let last := decide (rest.length ≤ n)
          let fl := f.frameFlags ||| (if s.hold.part = 0 then 0x100#32 else 0) ||| (if last then 0x200#32 else 0)
          let h : Head := { sfn := f.sfn, flags := fl, devTime := (s.tick.stamps.getD 0 (0, 0)).1, nTiles := 0,
                            payload := data.length, period := f.period, count := n, part := s.hold.part,
                            status := holdStatus s b ps }
          let start := (streamOf s m).w.toNat
          let s := traffic 8 hits ((rest.take n).flatMap fun p => ringSpans b p.1 p.2 false) s
          if s.memc.frozen then s else
          let s := modStream m (fun x => { x with w := x.w + BitVec.ofNat 64 len, waiting := false }) s
          let s := extentWrite b m (Bank.strRo b m && s.host.roEn) (start + 128)
            (data ++ List.replicate (len - 128 - data.length) 0) s
          let s := postExtent b m h start len s
          let left := if last then s.hold.toSend - 1 else s.hold.toSend
          modHold (fun x => { x with sentNow := x.sentNow + len, toSend := left, delivering := decide (left ≠ 0),
                                     part := if last then 0 else x.part + 1,
                                     piecesSent := if last then 0 else x.piecesSent + n }) s
    | _, _ => s

/-! ### The commands and events of this part -/

/-- DELIVERY_START (R297, R298). -/
def execDeliveryStart (m : Fin 32) (s : State) : Host.Outcome State Fault Refusal := .next (startDelivery m.val s)

/-- DELIVERY_END (R293 to R300). -/
def execDeliveryEnd (m : Fin 32) (s : State) (hits : List (Nat × EccHit) := []) : Host.Outcome State Fault Refusal :=
  .next (endDelivery m.val hits s)

/-- HOLD_PART (R301). -/
def execHoldPart (s : State) (hits : List (Nat × EccHit) := []) : Host.Outcome State Fault Refusal := .next (holdPart hits s)

end Sys2Proof.Machine
end

