-- ==== Sys2Proof/Machine/Regions.lean ====
section
/-! DEFINITION. The regions that a set places in DRAM (14 R477, R330, R332) and those in use now, with the bases that
TABLE_LOAD and TABLE_SAVE have moved (05 R146; 13 R318, R319). -/
namespace Sys2Proof.Machine

/-- A DRAM region: its section and item under R477, its base and length. -/
structure Region where
  sec : Nat
  item : Nat
  base : Nat
  len : Nat
  deriving DecidableEq, Repr

def Region.overlaps (r : Region) (a n : Nat) : Bool := decide (r.base < a + n) && decide (a < r.base + r.len)

namespace Bank

def laneRec (b : Bank) (t : Nat) : Nat := secOfs b 2 + 128 * t
/-- Base and stride of table k of a tile's lane record: 0 CB, 1 O, 2 G, 3 D, 4 temporal (R132). -/
def tblBase (b : Bank) (t k : Nat) : Nat := u64 b (laneRec b t + 8 * k)
def tblStride (b : Bank) (t k : Nat) : Nat := u32 b (laneRec b t + 0x28 + 4 * k)
def tblLen (b : Bank) (t k : Nat) : Nat := 776 * tblStride b t k
def tileTf (b : Bank) (t : Nat) : Bool := (u32 b (laneRec b t + 0x3C)).testBit 0
def targetBase (b : Bank) (t : Nat) : Nat := u64 b (secOfs b 3 + 64 * t + 0x18)
def accSlot (b : Bank) (i : Nat) : Nat := u64 b (secOfs b 4 + 0x18 + 8 * i)

end Bank

/-- The tables that a tile has: the temporal one only where TF_EN is 1 (R477). -/
def tileTables (b : Bank) (t : Nat) : List Nat := if Bank.tileTf b t then [0, 1, 2, 3, 4] else [0, 1, 2, 3]

/-- The regions that a set places, in the order of R477. -/
def setRegions (b : Bank) : List Region :=
  let ts := Bank.enabledTiles b
  (ts.flatMap fun t => (tileTables b t).map fun k =>
      { sec := 2, item := 5 * t + k, base := Bank.tblBase b t k, len := Bank.tblLen b t k })
    ++ (ts.map fun t => { sec := 3, item := t, base := Bank.targetBase b t, len := Bank.tblLen b t 1 })
    ++ ((List.range 4).map fun i => { sec := 4, item := i, base := Bank.accSlot b i, len := 3178496 })
    ++ (((List.range 64).filter fun k => 3 ≤ k && dbufDefined b k).map fun k =>
        { sec := 8, item := k, base := (dbufOf b k).base, len := (dbufOf b k).bytes })
    ++ (if Bank.hasHold b then [{ sec := 11, item := 0, base := Bank.holdIndex b, len := 32 * Bank.holdNIdx b }] else [])
    ++ [{ sec := 12, item := 0, base := Bank.corrBase b, len := Bank.nCorr b * 101711872 },
        { sec := 12, item := 1, base := Bank.rawBase b, len := Bank.nRaw b * 203423744 },
        { sec := 12, item := 2, base := Bank.statsBase b, len := Bank.nStats b * 69696 },
        { sec := 12, item := 3, base := Bank.evtBase b, len := 2 * Bank.evtSlotBytes b }]

/-- The current read base of table k of a tile (R146). -/
def curTable (s : State) (t k : Nat) : BitVec 64 :=
  let l := (tileOf s t).lane
  match k with
  | 0 => l.cb.base
  | 1 => l.o
  | 2 => l.g
  | 3 => l.d
  | _ => l.t.base

/-- Its write base (R146): only CB and the temporal table have one of their own. -/
def curTableWrite (s : State) (t k : Nat) : BitVec 64 :=
  let l := (tileOf s t).lane
  match k with
  | 0 => l.cb.write
  | 4 => l.t.write
  | _ => curTable s t k

/-- The tables in use of the active set (R332): CB, O, G, D and temporal tables, targets and marked buffers, where they
lie now. -/
def tablesInUse (s : State) : List Region :=
  match activeSet s with
  | none => []
  | some b =>
    let ts := Bank.enabledTiles b
    (ts.flatMap fun t => (tileTables b t).flatMap fun k =>
        [{ sec := 2, item := 5 * t + k, base := (curTable s t k).toNat, len := Bank.tblLen b t k },
         { sec := 2, item := 5 * t + k, base := (curTableWrite s t k).toNat, len := Bank.tblLen b t k }])
      ++ (ts.map fun t => { sec := 3, item := t, base := (tileOf s t).cal.target.toNat, len := Bank.tblLen b t 1 })
      ++ (((List.range 64).filter fun k => 3 ≤ k && dbufDefined b k && namedDbuf b k).flatMap fun k =>
        [{ sec := 8, item := k, base := (dbufBases s b k).base.toNat, len := (dbufOf b k).bytes },
         { sec := 8, item := k, base := (dbufBases s b k).write.toNat, len := (dbufOf b k).bytes },
         { sec := 8, item := k, base := (dbufAhead s b k).base.toNat, len := (dbufOf b k).bytes },
         { sec := 8, item := k, base := (dbufAhead s b k).write.toNat, len := (dbufOf b k).bytes }])

/-- Every region in use: the tables where they lie now, the other regions of the active set where it places them, and
the destinations of copies under way (R318, R319). -/
def regionsInUse (s : State) : List Region :=
  match activeSet s with
  | none => []
  | some b =>
    tablesInUse s ++ ((setRegions b).filter fun r =>
        !(r.sec = 2 || r.sec = 3 || (r.sec = 8 && namedDbuf b r.item)))
      ++ (s.cfg.saves.filter fun p => p.copy).map fun p =>
        { sec := 0xFF, item := p.table.toNat, base := p.dest.toNat,
          len := if bits p.table.toNat 15 8 = 5 then (dbufOf b (bits p.table.toNat 21 16)).bytes
            else Bank.tblLen b (p.table.toNat % 256) (bits p.table.toNat 15 8) }

/-- A span falls inside a table in use (R65). -/
def touchesTable (s : State) (a n : Nat) : Bool := (tablesInUse s).any fun r => r.overlaps a n

end Sys2Proof.Machine
end

