-- ==== Sys2Proof/Machine/Memory.lean ====
section
/-! DEFINITION. The memory controller (10): the masks of the address mapping, arbitration, refresh, quiet windows, and BAR2
(12 R286). -/
namespace Sys2Proof.Machine

/-! ### The masks (R249, R250) -/

/-- A mask is accepted (R249). -/
def maskGood (s : State) (i : Nat) (v : BitVec 30) : Bool :=
  if i = 8 && !ranksInUse s then v = 0
  else
    v.toNat < 2 ^ lineBits s && v.toNat.testBit (homeBit s i) &&
      ((homeBits s).filter fun h => h ≠ homeBit s i).all fun h => !v.toNat.testBit h

/-- A mask write (R249, R250), its reserved bits ignored (R11). A change that is taken moves every line: DRAM content becomes undefined. -/
def hashWrite (i : Nat) (w : Word) (s : State) : State :=
  let v := BitVec.ofNat 30 w.toNat
  if s.memc.mapLock then modMemc (fun m => { m with mapDrop := true }) s
  else if !maskGood s i v then modMemc (fun m => { m with hashBad := true }) s
  else if vget s.memc.hash i 0 = v then s
  else
    { modMemc (fun m => { m with hash := vset m.hash i v }) s with
      dram := { cells := [], epoch := s.dram.epoch + 1 } }

/-! ### Arbitration (R251, R257) -/

/-- The requests that may be chosen: the first of each port, unless an earlier one names its line (R251, R257). -/
def candidates10 : List PendReq → List PendReq → List PendReq
  | _, [] => []
  | seen, r :: l =>
    let rest := candidates10 (seen ++ [r]) l
    if seen.any fun q => q.req.port = r.req.port || q.req.line = r.req.line then rest else r :: rest

/-- Ports in turn after the one served last (R257). -/
def turn (last p : Nat) : Nat := (p + 11 - last) % 12

/-- The port of a request has credit for it (R256). -/
def reqCredit (s : State) (r : MemReq) : Bool := hasCredit s r.port.val (kindOf r.data).cost

/-- The request that the controller issues next. -/
def chooseReq (s : State) : Option PendReq :=
  let l := (candidates10 [] s.memc.reqs).filter fun q => portServed s q.req.port.val && reqCredit s q.req
  let key (q : PendReq) : Nat :=
    let c := portClass s q.req.port.val
    12 * c + turn (vget s.memc.lastPort c 0).val q.req.port.val
  l.foldl (fun best r => match best with
    | none => some r
    | some q => if key r < key q then some r else best) none

/-- Requests that find their port without credit have waited (R265). -/
def countWaits (s : State) : State :=
  let waits (q : PendReq) : Bool := !q.req.waited && !reqCredit s q.req
  modMemc (fun m => { m with
    ports := Vector.ofFn fun i => { m.ports[i] with
      wait := satAdd m.ports[i].wait (m.reqs.filter fun q => q.req.port = i && waits q).length },
    reqs := m.reqs.map fun q => if waits q then { q with req := { q.req with waited := true } } else q }) s

/-- A write of HOSTIN falls inside a table in use: one of the bytes it writes does (02 R65). -/
def hostTouch (s : State) (r : MemReq) : Bool :=
  r.port = 9 && match r.data with
    | some d => d.zipIdx.any fun p => p.1.isSome && touchesTable s (64 * r.line + p.2) 1
    | none => false

/-- A request reaches the controller: a read that matches a pending write is held (R251). A request of a frozen
controller completes with an error (R261). -/
def arriveReq (q : PendReq) (s : State) : State :=
  if s.memc.frozen && !(q.req.port.val = 11 && s.memc.diagServed) then s
  else
    let held := q.req.data.isNone && s.memc.reqs.any fun p => p.req.line = q.req.line && p.req.data.isSome
    let s := if held then modCh (placeOf s q.req.line).channel (fun c => { c with rawWait := satInc c.rawWait }) s else s
    modMemc (fun m => { m with reqs := m.reqs ++ [q] }) s

/-- A request of a stage arrives. -/
def arrive (r : MemReq) (s : State) : State :=
  arriveReq { req := { r with waited := false }, host := false, touch := hostTouch s r, hits := [] } s

/-- Requests of the host that are next in turn are issued, at most `n` of them: those of other ports by MEM_ACCESS_ISSUE. -/
def serveHost : Nat → State → State
  | 0, s => s
  | n + 1, s =>
    match chooseReq s with
    | some q => if q.host then serveHost n (issue q [] s) else s
    | none => s

/-- The host's requests that can be served now are served. -/
def pumpHost (s : State) : State := if s.memc.reqs.isEmpty then s else serveHost s.memc.reqs.length s

/-- Bytes of a saved table: a buffer's, or those of a tile's table (R319). -/
def saveBytes (b : Bank) (table : Word) : Nat :=
  if bits table.toNat 15 8 = 5 then (dbufOf b (bits table.toNat 21 16)).bytes
  else Bank.tblLen b (table.toNat % 256) (bits table.toNat 15 8)

/-! ### Refresh (R252 to R254) -/

def refIndex (sc rk : Bool) : Nat := 2 * sc.toNat + rk.toNat

/-- A bank is refreshed: its round goes on, and a completed round starts anew (R252). -/
def refreshBank (ch : Nat) (sc rk : Bool) (bank : Nat) (s : State) : State :=
  let i := refIndex sc rk
  let s := modCh ch (fun c =>
    let r := clrBit (vget c.round i 0) bank
    { c with debt := vmod c.debt i (· - 1), round := vset c.round i (if r = 0 then 0xFFFF#16 else r) }) s
  traceCmd 5 { channel := ch, sc, rk, bank, col := 0, row := 0 } 15 s

/-- Banks not yet refreshed in the round; a round that has not begun has all sixteen. -/
def remaining (c : Memch) (i : Nat) : BitVec 16 := let r := vget c.round i 0; if r = 0 then 0xFFFF#16 else r

/-- The banks of a rank that hold a pending request (R252). -/
def waitingBanks (s : State) (ch : Nat) (sc rk : Bool) : BitVec 16 :=
  (s.memc.reqs.filterMap fun q =>
    let p := placeOf s q.req.line
    if p.channel = ch && p.sc = sc && p.rk = rk then some p.bank else none).foldl setBit 0

/-- A refresh is issued to the lowest idle remaining bank, if the debt calls for one: in a quiet window down to −8
(R253, R254). With every remaining bank busy nothing is issued before debt 8. Banks are busy with the requests that the
controller holds and with those that the event reports. -/
def refreshIssue (ch : Nat) (sc rk : Bool) (busy busyRt : BitVec 16) (s : State) : State :=
  let c := chOf s ch
  let i := refIndex sc rk
  let d := vget c.debt i 0
  let blocked := if s.memc.frozen then 0#16 else busy ||| busyRt ||| waitingBanks s ch sc rk
  match (maskList (remaining c i &&& ~~~blocked)).head? with
  | some bank => if 1 ≤ d || (s.memc.quiet && -8 < d) then refreshBank ch sc rk bank s else s
  | none => s

/-- tREFIpb elapses: the debt rises, and at 8 a refresh of the lowest remaining bank is forced (R253). -/
def refreshDue (ch : Nat) (sc rk : Bool) (s : State) : State :=
  let i := refIndex sc rk
  let s := modCh ch (fun c => { c with debt := vmod c.debt i (fun d => min 8 (d + 1)) }) s
  let c := chOf s ch
  if vget c.debt i 0 = 8 then
    let bank := ((maskList (remaining c i)).head?).getD 0
    modMemc (fun m => { m with forcedRef := true })
      (modCh ch (fun c => { c with forced := satInc c.forced }) (refreshBank ch sc rk bank s))
  else s

/-! ### BAR2 (12 R286) -/

/-- A BAR2 miss: counted, and one ADVISORY error (R286, R412). -/
def bar2Miss (d : Nat) (s : State) : State :=
  raiseErr (mkErr 2 0x25 0xFF 2 (word (d / 64)))
    (modHost (fun h => { h with bar2Miss := true, missBar2 := satInc h.missBar2 }) s)

/-- The bytes that a write at `d` puts into a line. -/
def lineBytes (d : Nat) (w : List (Option Byte)) (line : Nat) : List (Option Byte) :=
  (List.range 64).map fun i => if d ≤ 64 * line + i then w.getD (64 * line + i - d) none else none

/-- The request for one line of a BAR2 access. -/
def hostReq (line : Nat) (data : Option (List (Option Byte))) (hits : List (Nat × EccHit)) (s : State) : PendReq :=
  let r : MemReq := { port := 9, line, data, waited := false }
  { req := r, host := true, touch := hostTouch s r, hits := (hits.filter fun p => p.1 = line).map fun p => p.2 }

/-- A read through BAR2 asks for its lines (R286); it completes with the last of them. -/
def bar2Read (d len past : Nat) (hits : List (Nat × EccHit)) (s : State) : State :=
  let l := linesOf d len
  let s := modMemc (fun m => { m with hostReads := m.hostReads ++ [{ addr := d, len, left := l.length, got := [], past }] }) s
  forEach l (fun n s => arriveReq (hostReq n none hits s) s) s

/-- A write through BAR2 asks for each line in which a byte is enabled (R247, R286). -/
def bar2Write (d : Nat) (w : List (Option Byte)) (hits : List (Nat × EccHit)) (s : State) : State :=
  let l := (linesOf d w.length).filter fun n => (lineBytes d w n).any fun x => x.isSome
  forEach l (fun n s => arriveReq (hostReq n (some (lineBytes d w n)) hits s) s) s

/-- A read of `len` bytes, or a write, at BAR2 offset `d`: through the HOSTIN port, where it may wait (R286, R287). -/
def bar2 (d : Nat) (write : Option (List (Option Byte))) (len : Nat) (hits : List (Nat × EccHit)) (s : State) : State :=
  let answer (bs : List Byte) (s : State) : State := if write.isNone then emit (.readData bs) s else s
  if s.host.flr || !s.host.mse || !s.host.linkUp then s
  else if capacity s ≤ d || !s.memc.trained || s.dev.power = .low then bar2Miss d (answer (List.replicate len 0) s)
  else if s.memc.frozen then
    modMemc (fun m => { m with frozenAccess := true }) (answer (List.replicate len 0xFF) s)
  else
    let n := min len (capacity s - d)
    pumpHost (countWaits (match write with
      | none => if len = 0 then answer [] s else bar2Read d n (len - n) hits s
      | some w => bar2Write d (w.take (capacity s - d)) hits s))

/-! ### The commands and events of this chapter -/

/-- MEM_ACCESS_ISSUE (R245 to R247, R251, R255 to R257, R260, R261). A line at or above the installed capacity is no
DRAM byte (R248). -/
def execMemAccessIssue (arrivals : List MemReq) (hits : List EccHit) (s : State) : Host.Outcome State Fault Refusal :=
  if arrivals.any fun r => decide (capacity s ≤ 64 * r.line) then .fault .lineOutsideCapacity
  else
    let s := countWaits (forEach arrivals arrive s)
    .next (pumpHost (match chooseReq s with
      | some r => issue r hits s
      | none => s))

/-- DRAM_CAPAR_ERROR (R260 to R262). -/
def execDramCaparError (ch : Fin 8) (s : State) : Host.Outcome State Fault Refusal :=
  .next (memFreeze 2 ch.val 15 0 0 0 (modCh ch.val (fun c => { c with capar := satInc c.capar }) s))

/-- REFRESH_DUE (R252, R253). -/
def execRefreshDue (ch : Fin 8) (sc rk : Bool) (s : State) : Host.Outcome State Fault Refusal :=
  .next (if s.memc.selfRefresh then s else refreshDue ch.val sc rk s)

/-- REFRESH_ISSUE (R252 to R254). -/
def execRefreshIssue (ch : Fin 8) (sc rk : Bool) (busy busyRt : BitVec 16) (s : State) : Host.Outcome State Fault Refusal :=
  .next (if s.memc.selfRefresh then s else refreshIssue ch.val sc rk busy busyRt s)

/-- A command to every device of channel n, as the command trace records it (R264, R265). -/
def traceRanks (cmd n : Nat) (s : State) : State :=
  let ranks := if ranksInUse s then [false, true] else [false]
  forEach [false, true] (fun sc => forEach ranks fun rk =>
    traceCmd cmd { channel := n, sc, rk, bank := 0, col := 0, row := 0 } 0xF) s

/-- DRAM_TEMP_READ (R252, R266): a mode-register read of each device, which a frozen controller does not issue (R261). -/
def execDramTempRead (ch : Fin 8) (range : BitVec 4) (trefipb : BitVec 16) (s : State) : Host.Outcome State Fault Refusal :=
  .next (if s.memc.frozen || s.memc.selfRefresh then s
    else modCh ch.val (fun c => { c with range, trefipb }) (traceRanks 8 ch.val s))

/-- The quiet window of the active Piste that holds an instant of the period. -/
def windowAt (b : Bank) (t : Nat) : Option (Nat × Nat) :=
  ((List.range (Bank.nQuiet b)).map (Bank.quiet b)).find? fun w => w.1 ≤ t && t < w.1 + w.2

/-- QUIET_WINDOW_OPEN (R44, R45). -/
def execQuietWindowOpen (s : State) : Host.Outcome State Fault Refusal :=
  .next (match activeSet s with
    | none => s
    | some b =>
      match windowAt b (s.clock.now - s.clock.lastTick) with
      | some w => if s.dev.power = .imaging then
          modMemc (fun m => { m with quiet := true, quietOpenedAt := s.clock.lastTick + w.1, quietLen := w.2, sweptWindow := false }) s
        else s
      | none => s)

/-- QUIET_WINDOW_CLOSE (R45): the host's requests that were held are served. -/
def execQuietWindowClose (s : State) : Host.Outcome State Fault Refusal :=
  .next (pumpHost (modMemc (fun m => { m with quiet := false }) s))

/-- MEMC_HASH_WRITE (R249, R250). -/
def execMemcHashWrite (i : Fin 9) (v : Word) (s : State) : Host.Outcome State Fault Refusal :=
  .next (barAccess (hashWrite i.val v) s)

/-- BAR2_ACCESS (12 R286; 02 R65). -/
def execBar2Access (d : Nat) (write : Option (List (Option Byte))) (len : Nat) (hits : List (Nat × EccHit)) (s : State) :
    Host.Outcome State Fault Refusal := .next (bar2 d write len hits s)

end Sys2Proof.Machine
end

