-- ==== Sys2Proof/Machine/Clock.lean ====
section
/-! DEFINITION. One nanosecond of the tick domain (02 R33, 21 R453, 10 R256, 18 R407, R408). -/
namespace Sys2Proof.Machine

/-- A port's credit after one nanosecond, in 1/1,000 B (R256). -/
def accrue (b : Bank) (p : Nat) (x : ReqPort) : ReqPort :=
  let a := Bank.secOfs b 9 + 8 * p
  { x with credit := min (x.credit + Bank.u32 b a) (Bank.u32 b (a + 4) % 2 ^ 20 * 1000) }

/-- The lifetime totals of the keeping store and the age of its last counter append (18 R407, R408). -/
def countLife (s : State) : State :=
  modKeep (fun k => { k with onNs := k.onNs + 1, appendAge := k.appendAge + 1,
                             imagingNs := k.imagingNs + (decide (s.dev.power = .imaging)).toNat }) s

/-- One nanosecond of the tick domain: DEV_TIME counts once the firmware runs (R442), and credits accrue, with which a BAR2
access that waits may be served (R287). -/
def clockTick (s : State) : State :=
  if s.tick.running then
    let s := countLife { s with clock := { s.clock with now := s.clock.now + 1, devTime := s.clock.devTime + 1 } }
    match activeSet s with
    | some b => pumpHost (modMemc (fun m => { m with ports := Vector.ofFn fun i => accrue b i.val m.ports[i] }) s)
    | none => s
  else s

end Sys2Proof.Machine
end

