-- ==== Sys2Proof/Machine/Ports.lean ====
section
/-! DEFINITION. Tile ports (03): port states and preparation, the TCFG link and its verdicts, the configuration check, host
reads, TSTAT masking, and the causes of loss of signal. -/
namespace Sys2Proof.Machine

/-! ### Set-derived fields of a tile (R101, R331); zero without a set -/

def setWord (s : State) (t o : Nat) : Nat :=
  match activeSet s with | some b => if Bank.enabled b t then Bank.tileWord b t o else 0 | none => 0
def setupWord (s : State) (t : Nat) : Nat := setWord s t 0x00
def tstatPol (s : State) (t : Nat) : Bool := (setupWord s t).testBit 1
def tstatAction (s : State) (t : Nat) : Bool := (setupWord s t).testBit 2
def tcfgCheck (s : State) (t : Nat) : Bool := (setupWord s t).testBit 3
def prepFrames (s : State) (t : Nat) : Nat := bits (setupWord s t) 12 8
def tcfgRetries (s : State) (t : Nat) : Nat := bits (setupWord s t) 17 16
def losRows (s : State) (t : Nat) : Nat := bits (setupWord s t) 31 24
def cbIdle (s : State) (t : Nat) : Nat := bits (setWord s t 0x0C) 27 16
def nTcfg (s : State) (t : Nat) : Nat := setWord s t 0x30 % 256
def tcfgEntry (s : State) (t j : Nat) : Nat := setWord s t (0x100 + 4 * j)
def entryAddr (e : Nat) : Nat := bits e 5 0
def entryVerify (e : Nat) : Bool := e.testBit 6
def entryData (e : Nat) : Nat := bits e 31 16
/-- D_t of the tile, its delay (R88, R101). -/
def tileDelay (s : State) (t : Nat) : Nat := bits (setWord s t 0x04) 9 0
/-- `n` pixel clocks of the active set in ns, rounded up (R82). -/
def pixelClocks (s : State) (n : Nat) : Nat :=
  match activeSet s with | some b => ceilDiv (n * 1000000) (Bank.pclkKhz b) | none => 0
/-- PERIOD_NS of the active set. -/
def setPeriod (s : State) : Nat := match activeSet s with | some b => Bank.periodNs b | none => 0

/-! ### TCFG (R90) -/

def crc8Byte (c b : BitVec 8) : BitVec 8 :=
  (List.range 8).foldl (fun x _ => if x.getLsbD 7 then (x <<< 1) ^^^ 0x07#8 else x <<< 1) (c ^^^ b)

/-- CRC-8, polynomial 0x07, initial value 0 (R90). -/
def crc8 (l : List Byte) : BitVec 8 := l.foldl crc8Byte 0

/-- A TCFG command word: OP (0 write, 1 read), ADDR, DATA, CRC (R90). -/
def tcfgCommand (op addr data : Nat) : Word :=
  let hi := op * 2 ^ 30 + addr * 2 ^ 24 + data * 2 ^ 8
  word (hi + (crc8 (beBytes 3 (hi / 256))).toNat)

def tcfgWord (s : State) (t : Nat) : TcfgKind → Word
  | .listWrite j => tcfgCommand 0 (entryAddr (tcfgEntry s t j)) (entryData (tcfgEntry s t j))
  | .listVerify j => tcfgCommand 1 (entryAddr (tcfgEntry s t j)) 0
  | .check j => tcfgCommand 1 (entryAddr (tcfgEntry s t j)) 0
  | .host => tcfgCommand 1 ((tileOf s t).port.hostReq.toNat) 0

/-- The answer to a read is good when its CRC checks; it carries DATA (R90, R91). -/
def readAnswer (a : BitVec 24) : Option Nat :=
  let d := a.toNat / 256
  if crc8 (beBytes 2 d) = BitVec.ofNat 8 a.toNat then some d else none

/-! ### Port states (R74 to R80) -/

/-- A pending host read ends without success when its port enters OFF or FAULT (R94). -/
def endHostRead (p : Port) : Port :=
  if p.hostPending then { p with hostPending := false, hostDone := true, hostOk := false } else p

/-- Enter PREPARE at a tick, from step 1 of R81. A transaction under way runs to its end and is not judged (R77). A
re-preparation after a mismatch that is restarted keeps its cause until the port is IMAGING again (R93). -/
def enterPrepare (t : Nat) (s : State) : State :=
  modPort t (fun p => { p with
    state := .prepare, bref := .rampUp, pclk := false, cb := .zero, kp := s.tick.sfn, kpTicks := 0,
    kpTime := s.clock.now, entry := 0, verify := false, prepDone := false, retryDue := [], retryLater := [],
    trans := p.trans.map fun x => { x with unjudged := true }, faultNext := false, reprepNext := false, causeNext := 0,
    causeStand := if p.repreparing then setBit 0 7 else 0, masked := false, unmaskNext := false, wholeRun := 0 })
    (modTile t (fun x => { x with tapA := { x.tapA with injPrev := none }, tapB := { x.tapB with injPrev := none } }) s)

/-- Enter FAULT with a standing cause (R74, R100). A transaction under way is dropped and its end is ignored: DESIGN
CHOICE, log entry 138. -/
def enterFault (t cause : Nat) (s : State) : State :=
  modPort t (fun p => endHostRead { p with
    state := .fault, bref := .off, pclk := false, cb := .zero, trans := none, retryDue := [], retryLater := [],
    faultNext := false, reprepNext := false, causeNext := 0, causeStand := setBit p.causeStand cause, losSticky := setBit p.losSticky cause }) s

/-- A park pulse on LSYNC (R85). -/
def parkPulse (t : Nat) (s : State) : State := emit (.lsync t 16) s

/-- The shutdown sequence of R80: a port in FAULT is already in the OFF condition of its outputs, and one whose pixel
clock does not run sends no park pulse (DESIGN CHOICE, log entry 136). -/
def shutPort (t : Nat) (s : State) : State :=
  let p := (tileOf s t).port
  let s := if p.pclk then parkPulse t s else s
  modPort t (fun p => endHostRead { p with
    state := .off, bref := if p.state = .fault || p.bref = .off then .off else .rampDown, pclk := false, cb := .zero,
    trans := none, retryDue := [], retryLater := [], faultNext := false, reprepNext := false, repreparing := false,
    causeStand := 0, causeNext := 0 }) s

/-- The standing causes of a port that its preparation has brought back: those of a fault still due, and no
re-preparation's (R93, R100). -/
def keptCauses (p : Port) : BitVec 8 := if p.faultNext then p.causeStand &&& 0x7F#8 else 0#8

/-- A port becomes IMAGING (R77, R78): the frame history of its lane, readout and calibration starts afresh (R126, R142,
R166). -/
def enterImaging (t : Nat) (s : State) : State :=
  modTile t (fun x => { x with
    port := { x.port with state := .imaging, cb := .pixel, firstFrame := true,
                          sinceMismatch := if x.port.repreparing then some 0 else x.port.sinceMismatch,
                          repreparing := false, checkDone := false, causeStand := keptCauses x.port },
    rdo := { x.rdo with thPrev := none },
    lane := { x.lane with freshNext := true },
    cal := { x.cal with doneSince := false, tcalSet := x.cal.tcalSet && x.cal.doneCnt ≠ 0 } }) s

/-- A preparation that has ended makes the port READY, or IMAGING while the device is imaging (R77, R83). -/
def finishPrepare (t : Nat) (s : State) : State :=
  if s.tick.imaging then enterImaging t s
  else modPort t (fun p => { p with state := .ready,
                                    causeStand := if p.repreparing then p.causeStand else keptCauses p }) s

/-- Step 5 of R81 is reached: 32 pixel clocks have passed since the park pulse started. -/
def stepFive (s : State) (p : Port) : Bool := p.prepDone && decide (p.doneAt ≤ s.clock.now)

/-- Step 6 of R81 falls due: step 5 is reached and PREP_FRAMES ticks have passed (R83). -/
def prepareDue (s : State) (t : Nat) : Bool :=
  let p := (tileOf s t).port
  p.state = .prepare && stepFive s p && decide (prepFrames s t ≤ p.kpTicks)

/-- The PREP_TIMEOUT test of R81 and R83. -/
def prepLate (s : State) (t : Nat) : Bool :=
  let p := (tileOf s t).port
  p.state = .prepare && !stepFive s p && decide (prepFrames s t ≤ p.kpTicks + 1)
    && decide ((prepFrames s t - 1) * setPeriod s ≤ s.clock.now - p.kpTime)

/-- Both DACs of a tile hold CB_IDLE (R74, R120). -/
def idleDacs (t : Nat) (s : State) : State :=
  let c := BitVec.ofNat 12 (cbIdle s t)
  modTile t (fun x => { x with tapA := { x.tapA with dac := c }, tapB := { x.tapB with dac := c } }) s

/-- All TCFG entries are done: park pulse, and preparation is complete 32 pixel clocks after its start, here `wait` ns
from now (steps 4 and 5 of R81). -/
def finishList (t wait : Nat) (s : State) : State :=
  modPort t (fun p => { p with prepDone := true, doneAt := s.clock.now + wait }) (parkPulse t s)

/-- Steps 2 and 3 of R81: the pixel clock starts and CB_IDLE is presented; an empty list ends 64 pixel clocks later. -/
def startClock (t : Nat) (s : State) : State :=
  let s := idleDacs t (modPort t (fun p => { p with pclk := true, cb := .idle, clkAt := s.clock.now }) s)
  if nTcfg s t = 0 then finishList t (pixelClocks s 96) s else s

/-- A cause of R100 that reaches the frame in progress and every later one, and sends the port to FAULT. -/
def latchFault (t cause : Nat) (s : State) : State :=
  modPort t (fun p => { p with causeNow := setBit p.causeNow cause, causeStand := setBit p.causeStand cause,
                               losSticky := setBit p.losSticky cause, faultNext := true }) s

/-- A cause that sends the port to FAULT at the next tick and reaches the frames from that tick on (R81, R91, R93,
R100). -/
def faultAtTick (t cause : Nat) (s : State) : State :=
  modPort t (fun p => { p with causeNext := setBit p.causeNext cause, faultNext := true }) s

def portLive (p : Port) : Bool := p.state = .prepare || p.state = .ready || p.state = .imaging

/-- The shared fault and re-preparation transitions of a port at a tick (R77, R93): false in FROZEN, where the port stays
READY (R416). -/
def portTick (t : Nat) (s : State) : State :=
  let p := (tileOf s t).port
  if p.state = .off || p.state = .fault then s
  else if p.faultNext then
    let due := p.causeStand ||| p.causeNext
    modPort t (fun q => { q with causeStand := due, losSticky := q.losSticky ||| due })
      (match (maskList due).getLast? with
       | some c => enterFault t c s
       | none => s)
  else if p.reprepNext then
    modPort t (fun q => { q with repreparing := true, causeStand := setBit 0 7, losSticky := setBit q.losSticky 7,
                                 reprepCnt := satInc q.reprepCnt })
      (enterPrepare t s)
  else if prepareDue s t then finishPrepare t s
  else if prepLate s t then modPort t (fun q => { q with repreparing := false }) (enterFault t 6 s)
  else s

/-! ### TCFG transactions (R91 to R94) -/

/-- The VERIFY entries of the list, in order (R93). -/
def verifyEntries (s : State) (t : Nat) : List Nat :=
  (List.range (nTcfg s t)).filter fun j => entryVerify (tcfgEntry s t j)

/-- Line time of a transaction: 64,000 ns for a write, 80,000 ns for a read (R90, R91). -/
def tcfgNs : TcfgKind → Nat
  | .listWrite _ => 64000
  | _ => 80000

/-- A transaction of this kind that starts now ends within the TCFG window of the period (R92). -/
def inWindow (s : State) (t : Nat) (k : TcfgKind) : Bool :=
  match activeSet s with
  | none => false
  | some b =>
    let at_ := s.clock.now - s.clock.lastTick
    decide (readNs b + tileDelay s t + 10000 ≤ at_)
      && decide (at_ + tcfgNs k + 100000 ≤ s.tick.period.toNat + tileDelay s t)

/-- The transaction the port would start now: in PREPARE the list, from 64 pixel clocks after the clock's start and not
past a failure; in READY a host read; in IMAGING the retries of earlier windows, the configuration check, then one host
read, each only if it ends within the window (R81, R91, R92, R94). -/
def nextTrans (s : State) (t : Nat) : Option TcfgTrans :=
  let p := (tileOf s t).port
  let new (k : TcfgKind) : Option TcfgTrans := some { kind := k, retries := 0, lineFault := false, unjudged := false }
  if p.trans.isSome then none
  else match p.state with
  | .prepare =>
    if !p.pclk || p.prepDone || p.faultNext || decide (s.clock.now < p.clkAt + pixelClocks s 64) then none
    else if !p.retryDue.isEmpty then p.retryDue.head?
    else if p.entry < nTcfg s t then (if p.verify then new (.listVerify p.entry) else new (.listWrite p.entry))
    else none
  | .ready => if !p.retryDue.isEmpty then p.retryDue.head? else if p.hostPending then new .host else none
  | .imaging =>
    (if !p.retryDue.isEmpty then p.retryDue.head?
     else if tcfgCheck s t && !p.checkDone && !(verifyEntries s t).isEmpty then
       new (.check ((verifyEntries s t).getD (p.checkAt % (verifyEntries s t).length) 0))
     else if p.hostPending && !p.hostWin && p.retryLater.all (fun x => x.kind ≠ .host) then new .host else none).filter
      fun x => inWindow s t x.kind
  | _ => none

/-- Start a transaction: with the line low before the break nothing is sent (R91). -/
def startTrans (t : Nat) (lineLow : Bool) (s : State) : State :=
  match nextTrans s t with
  | none => s
  | some x =>
    let isCheck := match x.kind with | .check _ => true | _ => false
    let isRetry : Bool := x.retries ≠ 0
    let s := modPort t (fun p => { p with trans := some { x with lineFault := lineLow },
                                          retryDue := if isRetry then p.retryDue.tail else p.retryDue,
                                          hostWin := p.hostWin || (!isRetry && decide (x.kind = .host)),
                                          checkDone := p.checkDone || (isCheck && x.retries = 0),
                                          retryCnt := if x.retries = 0 then p.retryCnt else satInc p.retryCnt,
                                          checkAt := if isCheck && x.retries = 0 then p.checkAt + 1 else p.checkAt }) s
    if lineLow then s else emit (.tcfg t (tcfgWord s t x.kind)) s

/-- The entry under preparation is done: on to the next one, or to the end of the list (R81). -/
def nextEntry (t : Nat) (s : State) : State :=
  let s := modPort t (fun p => { p with entry := p.entry + 1, verify := false }) s
  if (tileOf s t).port.entry < nTcfg s t then s else finishList t (pixelClocks s 32) s

/-- A mismatch of the configuration check (R93): re-preparation, or FAULT on a second one within 64 frames. -/
def checkMismatch (t : Nat) (s : State) : State :=
  let again := match (tileOf s t).port.sinceMismatch with | some n => decide (n < 64) | none => false
  let s := modPort t (fun p => { p with mismatchCnt := satInc p.mismatchCnt }) s
  if again then faultAtTick t 7 s else modPort t (fun p => { p with reprepNext := true }) s

/-- A transaction succeeded, with DATA for a read (R81, R93, R94). -/
def transOk (t : Nat) (x : TcfgTrans) (data : Nat) (s : State) : State :=
  match x.kind with
  | .listWrite j =>
    if entryVerify (tcfgEntry s t j) then modPort t (fun p => { p with verify := true }) s else nextEntry t s
  | .listVerify j => if data = entryData (tcfgEntry s t j) then nextEntry t s else faultAtTick t 7 s
  | .check j => if data = entryData (tcfgEntry s t j) then s else checkMismatch t s
  | .host => modPort t (fun p => { p with hostPending := false, hostDone := true, hostOk := true,
                                          hostData := BitVec.ofNat 16 data }) s

/-- Every attempt failed (R91): counted, and cause TCFG_FAIL; a host read also ends without success (R94). -/
def transFail (t : Nat) (x : TcfgTrans) (s : State) : State :=
  let s := modPort t (fun p => { p with failCnt := satInc p.failCnt }) s
  match x.kind with
  | .host => modPort t endHostRead s
  | _ => faultAtTick t 3 s

/-- Judge the transaction that ends (R91). -/
def endTrans (t : Nat) (answer : BitVec 24) (s : State) : State :=
  match (tileOf s t).port.trans with
  | none => s
  | some x =>
    let s := modPort t (fun p => { p with trans := none }) s
    if x.unjudged then s
    else
      let result : Option Nat :=
        if x.lineFault then none
        else match x.kind with
        | .listWrite _ => if answer.toNat % 256 = 0x96 then some 0 else none
        | _ => readAnswer answer
      match result with
      | some d => transOk t x d s
      | none =>
        if x.retries < tcfgRetries s t then
          let y := { x with retries := x.retries + 1, lineFault := false }
          modPort t (fun p => if p.state = .imaging then { p with retryLater := p.retryLater ++ [y] }
                              else { p with retryDue := p.retryDue ++ [y] }) s
        else transFail t x s

/-- A request for a host read (R94). -/
def hostReadGo (t : Nat) (addr : BitVec 6) (s : State) : State :=
  let p := (tileOf s t).port
  let s := modPort t (fun p => { p with hostAddr := addr }) s
  if p.hostPending then s
  else match p.state with
  | .off | .fault => modPort t (fun p => { p with hostDone := true, hostOk := false }) s
  | _ => modPort t (fun p => { p with hostReq := addr, hostPending := true, hostDone := false, hostOk := false }) s

/-! ### The commands and events of this chapter -/

/-- BREF_RAMP_END (R81, R431): BREF stands at CODE; the pixel clock starts once the quadrant PLL is not powered down. -/
def execBrefRampEnd (t : Fin 64) (s : State) : Host.Outcome State Fault Refusal :=
  .next (let p := (tileOf s t).port
    if p.state = .prepare && p.bref = .rampUp then
      let s := modPort t (fun p => { p with bref := .atCode }) s
      if (quadOf s (t.val / 16)).down then s else startClock t s
    else s)

/-- BREF_RAMP_DOWN_END (R80): BREF turns off. -/
def execBrefRampDownEnd (t : Fin 64) (s : State) : Host.Outcome State Fault Refusal :=
  .next (if (tileOf s t).port.bref = .rampDown then modPort t (fun p => { p with bref := .off }) s else s)

/-- TCFG_TRANSACTION_START (R89 to R92). -/
def execTcfgTransactionStart (t : Fin 64) (lineLow : Bool) (s : State) : Host.Outcome State Fault Refusal :=
  .next (startTrans t lineLow s)

/-- TCFG_TRANSACTION_END (R90, R91, R93, R94). -/
def execTcfgTransactionEnd (t : Fin 64) (answer : BitVec 24) (s : State) : Host.Outcome State Fault Refusal :=
  .next (endTrans t answer s)

/-- PREPARE_END (R77, R83): at the deadline tick the port becomes READY or IMAGING. -/
def execPrepareEnd (t : Fin 64) (s : State) : Host.Outcome State Fault Refusal :=
  .next (if prepareDue s t then finishPrepare t s else s)

/-- PREP_TIMEOUT (R81, R83): the port goes to FAULT. -/
def execPrepTimeout (t : Fin 64) (s : State) : Host.Outcome State Fault Refusal :=
  .next (if prepLate s t then modPort t (fun p => { p with repreparing := false }) (enterFault t 6 s) else s)

/-- TCFG_HOST_GO (R94). -/
def execTcfgHostGo (t : Fin 64) (addr : BitVec 6) (s : State) : Host.Outcome State Fault Refusal :=
  .next (hostReadGo t addr s)

/-- UNMASK (R97, R101): the mask goes at the next tick. -/
def execUnmask (t : Fin 64) (s : State) : Host.Outcome State Fault Refusal :=
  .next (modPort t (fun p => { p with unmaskNext := true }) s)

/-- CB_OVC (R100). -/
def execCbOvc (t : Fin 64) (s : State) : Host.Outcome State Fault Refusal :=
  .next (if portLive (tileOf s t).port then latchFault t 4 s else s)

/-- BREF_FAULT (R100): judged only while BREF is held at CODE. -/
def execBrefFault (t : Fin 64) (s : State) : Host.Outcome State Fault Refusal :=
  .next (let p := (tileOf s t).port
    if portLive p && p.bref = .atCode then latchFault t 5 s else s)

/-- The frame of a tile of the quadrant that is being read out carries PLL_UNLOCK, a placeholder frame too (R100). -/
def unlockTile (t : Nat) (s : State) : State :=
  modTile t (fun x =>
    if x.lane.work.mode ≠ .idle && x.lane.work.row < 776 && !x.lane.work.done then
      { x with port := { x.port with causeNow := setBit x.port.causeNow 0, losSticky := setBit x.port.losSticky 0 } }
    else x) s

/-- PLL_UNLOCK (R100): the frame being read carries the cause on the 16 tiles of the quadrant. -/
def execPllUnlock (q : Fin 4) (s : State) : Host.Outcome State Fault Refusal :=
  .next (forEach (List.range 16) (fun i => unlockTile (16 * q.val + i)) (modQuad q (fun x => { x with locked := false }) s))

/-- A quadrant PLL locks: on the way out of LOW step 2 of R81 starts on the ports whose ramp has ended (R431). -/
def lockQuad (q : Nat) (s : State) : State :=
  let waits (s : State) (t : Nat) : Bool :=
    let p := (tileOf s t).port
    p.state = .prepare && p.bref = .atCode && !p.pclk
  forEach (List.range 16) (fun i s => if waits s (16 * q + i) then startClock (16 * q + i) s else s)
    (modQuad q (fun x => { x with locked := true, down := false }) s)

/-- PLL_LOCK (R100, R431). -/
def execPllLock (q : Fin 4) (s : State) : Host.Outcome State Fault Refusal := .next (lockQuad q.val s)

end Sys2Proof.Machine
end

