-- ==== Sys2Proof/Machine/Readout.lean ====
section
/-! DEFINITION. Split readout (04): the composite code, nulling, and the blanking interval: reference injection, the
substrate thermistor, and DAC weight calibration. -/
namespace Sys2Proof.Machine

/-! ### Set-derived readout fields (R129, R331) -/

def rdoSetup (s : State) (t : Nat) : Nat := setWord s t 0x18
def stepLim (s : State) (t : Nat) : Nat := bits (rdoSetup s t) 6 0
def nullEn (s : State) (t : Nat) : Bool := (rdoSetup s t).testBit 7
def wcalEn (s : State) (t : Nat) : Bool := (rdoSetup s t).testBit 8
def wcalShift (s : State) (t : Nat) : Nat := bits (rdoSetup s t) 15 12
def tapOfs (s : State) (t : Nat) (b : Bool) : Nat := bits (setWord s t (if b then 0x20 else 0x1C)) 23 0
def wcalC0 (s : State) (t : Nat) : Nat := bits (setWord s t 0x24) 11 0
def wcalDc (s : State) (t : Nat) : Nat := bits (setWord s t 0x24) 21 16
def wcalResidMax (s : State) (t : Nat) : Nat := bits (setWord s t 0x24) 31 22
def initialW (s : State) (t : Nat) (b : Bool) : Nat := bits (setWord s t (if b then 0x2C else 0x28)) 19 0
/-- TH[j] of the tile's curve (R122). -/
def thCurve (s : State) (t j : Nat) : Nat := setWord s t (0x40 + 4 * j)

/-! ### Arithmetic -/

def satCode (r : Int) : Bool := r = 32767 || r = -32768

/-- The composite code X of R110. -/
def composite (w cb : Nat) (r : Int) (tapofs : Nat) : Int := ((w * cb / 256 : Nat) : Int) + r - tapofs

/-- The corrected residual Rc of R111. -/
def corrected (r ofs : Int) (gain : Nat) : Int := rndShr ((r * 64 - ofs) * gain) 22

/-- The corrected composite X′ of R111. -/
def composite' (w cb : Nat) (r ofs : Int) (gain tapofs : Nat) : Int :=
  ((w * cb / 256 : Nat) : Int) + corrected r ofs gain - tapofs

/-- The nulling update of R113: from the code presented, ST as fetched, the raw residual, W and STEP_LIM to the new
counter-bias word. -/
def nullstep (cb st : Nat) (r : Int) (w lim : Nat) : Nat :=
  let st := if st = 15 then 0 else st
  if r ≠ 32767 && r ≠ -32768 then
    let d := rndDiv (r * 256) w
    let s := if d > lim || d < -(lim : Int) then 14 else 0
    s * 4096 + (clamp (cb + clamp d (-(lim : Int)) lim) 0 4095).toNat
  else if (r = 32767 && cb = 4095) || (r = -32768 && cb = 0) then 13 * 4096 + cb
  else
    let n := if 1 ≤ st && st ≤ 11 then st else 0
    let step := 2048 / 2 ^ n
    let c : Int := if r = 32767 then cb + step else (cb : Int) - step
    (n + 1) * 4096 + (clamp c 0 4095).toNat

/-- A pixel is CONVERGING when the ST fetched is 1 to 12 or 14 (R112). -/
def converging (st : Nat) : Bool := (1 ≤ st && st ≤ 12) || st = 14

def codeOf (c : BitVec 16) : Int := c.toInt
def codeSum (l : List (BitVec 16)) : Int := (l.map codeOf).sum
def anySat (l : List (BitVec 16)) : Bool := l.any fun c => satCode (codeOf c)

/-- The factors of an injection, when it is accepted (R121): OFS and GAIN. -/
def injection (lo hi : List (BitVec 16)) : Option (Int × Int) :=
  let sl := codeSum lo
  let sh := codeSum hi
  if anySat lo || anySat hi then none
  else if 2831155 ≤ sh - sl && sh - sl ≤ 3460301 && (sl + sh).natAbs ≤ 262144 then
    some (rndShr (sl + sh) 1, rndDiv (3145728 * 65536) (sh - sl))
  else none

/-- The substrate temperature of a corrected mean code, in 1/256 K (R122). -/
def substrate (sc : Int) (th : Nat → Nat) : Nat :=
  let u := (clamp (sc + 8388608) 0 16777215).toNat
  let seg := u / 2 ^ 20
  ((th seg : Int) + rndShr (((th (seg + 1) : Int) - th seg) * ((u % 2 ^ 20 : Nat) : Int)) 20).toNat

/-! ### Weight calibration (R123 to R125) -/

def tileImaging (s : State) (t : Nat) : Bool := (tileOf s t).port.state = .imaging

/-- The next tap that a pending DAC_LINCAL of the quadrant names and that is not measured (R125). -/
def lincalPick (s : State) (q : Nat) : Option (Nat × Bool) :=
  match s.lincals.find? fun l => l.tile / 16 = q && tileImaging s l.tile with
  | some l => if l.namedA && l.resA.isNone then some (l.tile, false)
              else if l.namedB && l.resB.isNone then some (l.tile, true) else none
  | none => none

/-- The tap the quadrant measures in this blanking interval, whether it is forced, and its place j (R123). -/
def wcalPick (s : State) (q : Nat) : Option (Nat × Bool × Bool × Nat) :=
  if (quadOf s q).measured then none
  else match lincalPick s q with
  | some (t, b) => some (t, b, true, 0)
  | none =>
    let p := (quadOf s q).ptr.toNat
    match ((List.range 32).map fun i => (p + i) % 32).find? fun j =>
        tileImaging s (16 * q + j / 2) && wcalEn s (16 * q + j / 2) with
    | some j => some (16 * q + j / 2, j % 2 = 1, false, j)
    | none => none

def lincalDone (l : Lincal) : Bool := (!l.namedA || l.resA.isSome) && (!l.namedB || l.resB.isSome)

/-- The result words of a DAC_LINCAL: a tap not measured has W_meas 0xF_FFFF (R125, R321). -/
def lincalWords (l : Lincal) : List Word :=
  (if l.namedA then [l.resA.getD (word 0xFFFFF)] else [])
    ++ (if l.namedB then [l.resB.getD (word (0xFFFFF + 2 ^ 31))] else [])

/-- Reply to every DAC_LINCAL whose named taps are measured (R125). -/
def lincalReplies (s : State) : State :=
  forEach (s.lincals.filter lincalDone) (fun l => reply l.hdr 0x33 stOk (lincalWords l))
    { s with lincals := s.lincals.filter fun l => !lincalDone l }

/-- The taps not yet measured of a tile that leaves IMAGING, or whose weights are reloaded, are dropped (R125). -/
def lincalDrop (t : Nat) (s : State) : State :=
  forEach (s.lincals.filter fun l => l.tile = t) (fun l => reply l.hdr 0x33 stTruncated (lincalWords l))
    { s with lincals := s.lincals.filter fun l => l.tile ≠ t }

/-- One weight measurement (R124): W_meas, RESID, whether it is accepted. -/
def weigh (s : State) (t : Nat) (b : Bool) (points : List (List (BitVec 16))) : Int × Nat × Bool :=
  let sg (j : Nat) : Int := codeSum (points.getD j [])
  let x := tapOf (tileOf s t) b
  let wm := rndDiv ((sg 0 - sg 3) * 256 * x.gain.toNat) (16 * 3 * wcalDc s t * 65536)
  let d1 := (3 * sg 1 - 2 * sg 0 - sg 3).natAbs
  let d2 := (3 * sg 2 - sg 0 - 2 * sg 3).natAbs
  let resid := (rndDiv (max d1 d2 : Nat) 48).toNat
  let w : Int := x.w.toNat
  (wm, resid, !(points.any anySat) && decide (resid ≤ wcalResidMax s t) && decide ((wm - w).natAbs * 8 ≤ x.w.toNat))

/-- Measure a tap and hold its new weight for the next tick (R123 to R126). -/
def measure (t : Nat) (b forced : Bool) (j : Nat) (points : List (List (BitVec 16))) (s : State) : State :=
  let (wm, resid, ok) := weigh s t b points
  let w : Int := (tapOf (tileOf s t) b).w.toNat
  let w' := clamp (if forced then wm else w + rndShr (wm - w) (wcalShift s t)) 65536 262143
  let s := modQuad (t / 16) (fun q => { q with measured := true,
                                               ptr := if forced then q.ptr else BitVec.ofNat 5 (j + 1) }) s
  let s := if ok then modTap t b (fun x => { x with heldW := some (BitVec.ofInt 20 w'), wcalSfn := s.tick.sfn }) s else s
  let s := modRdo t (fun r => { r with
    wcalTapB := b, wcalOk := ok, wcalForced := forced, wMeas := BitVec.ofInt 20 (clamp wm 0 0xFFFFF),
    resid := satNat 10 resid, wcalAcc := if ok then satInc r.wcalAcc else r.wcalAcc,
    wcalRej := if ok then r.wcalRej else satInc r.wcalRej }) s
  if forced then
    let res := fields [((clamp wm 0 0xFFFFE).toNat, 0), (clampNat resid 1023, 20), (ok.toNat, 30), (b.toNat, 31)]
    lincalReplies { s with lincals := s.lincals.map fun l =>
      if l.tile = t && (if b then l.namedB && l.resB.isNone else l.namedA && l.resA.isNone) then
        (if b then { l with resB := some res } else { l with resA := some res }) else l }
  else s

/-! ### The blanking interval (R119 to R126) -/

/-- Judge an injection of a tap and hold its factors; the flag says that its rejection is an onset (R121, R126). -/
def inject (t : Nat) (b : Bool) (lo hi : List (BitVec 16)) (s : State) : State × Bool :=
  let prev := (tapOf (tileOf s t) b).injPrev
  match injection lo hi with
  | some (o, g) =>
    (modTap t b (fun x => { x with held := some (BitVec.ofInt 32 o, BitVec.ofInt 32 g), injOk := true,
                                   injPrev := some true }) s, false)
  | none =>
    (modTap t b (fun x => { x with injOk := false, injPrev := some false })
      (modRdo t (fun r => { r with injRej := satInc r.injRej }) s), prev ≠ some false)

/-- Judge the thermistor reading (R122, R126). -/
def thermo (t : Nat) (samples : List (BitVec 16)) (s : State) : State × Bool :=
  let a := (tileOf s t).tapA
  let prev := (tileOf s t).rdo.thPrev
  if anySat samples then
    (modRdo t (fun r => { r with thOk := false, thPrev := some false, thRej := satInc r.thRej }) s, prev ≠ some false)
  else
    let sc := rndShr ((codeSum samples * 64 - 256 * a.ofs.toInt) * a.gain.toNat) 22
    (modRdo t (fun r => { r with heldSub := some (word (substrate sc (thCurve s t))), thOk := true,
                                 thPrev := some true }) s, false)

def blankErr (t aux : Nat) (onset : Bool) : List ErrRec := if onset then [mkErr 2 0x28 t aux 0] else []

/-- The codes that the DACs of a tile load in the blanking interval of an IMAGING port (R120, R124): at b = 0, 32, 64 and
96 the tap under weight calibration loads C0 to C3, at b = 0 the other DAC loads CB_IDLE, and at b = 128 both do. -/
def blankingLoads (s : State) (t : Nat) (tap : Option Bool) : List (Bool × Nat) :=
  let idle := cbIdle s t
  let at0 (b : Bool) : List (Bool × Nat) := if tap = some b then [] else [(b, idle)]
  let points (b : Bool) : List (Bool × Nat) := (List.range 4).map fun j => (b, wcalC0 s t + j * wcalDc s t)
  at0 false ++ at0 true ++ (match tap with | some b => points b | none => []) ++ [(false, idle), (true, idle)]

/-- The DACs of a tile load codes in turn; each presents the last. -/
def loadDacs (t : Nat) (l : List (Bool × Nat)) (s : State) : State :=
  forEach l (fun p s => modTap t p.1 (fun x => { x with dac := BitVec.ofNat 12 p.2 }) (emit (.cbCode t p.1 p.2) s)) s

/-- The blanking work of a port ends (R120): an IMAGING port does all of it, a port in PREPARE or READY whose pixel clock
runs does the injections only. -/
def blankingWork (t : Nat) (la ha lb hb th : List (BitVec 16)) (points : List (List (BitVec 16))) (s : State) : State :=
  let p := (tileOf s t).port
  let full := p.state = .imaging
  if (tileOf s t).rdo.blankDone || !(full || ((p.state = .prepare || p.state = .ready) && p.pclk)) then s
  else
    let s := modRdo t (fun r => { r with blankDone := true }) s
    let pick := if full then (wcalPick s (t / 16)).filter fun x => decide (x.1 = t) else none
    let s := if full then loadDacs t (blankingLoads s t (pick.map fun x => x.2.1)) s else s
    let s := match pick with
      | some (_, b, forced, j) => measure t b forced j points s
      | none => s
    let (s, ea) := inject t false la ha s
    let (s, eb) := inject t true lb hb s
    let (s, et) := if full then thermo t th (emit (.lsync t 8) s) else (s, false)
    raiseErrs (blankErr t 0 ea ++ blankErr t 1 eb ++ blankErr t 2 et) s

/-- The values held in a tile's blanking are latched at the tick (R126): weights always, factors and the reading when
accepted. -/
def latchBlanking (t : Nat) (s : State) : State :=
  let latch (x : Tap) : Tap :=
    { x with w := x.heldW.getD x.w, ofs := (x.held.getD (x.ofs, x.gain)).1, gain := (x.held.getD (x.ofs, x.gain)).2,
             heldW := none, held := none }
  let x := tileOf s t
  let stale := x.tapA.held.isNone || x.tapB.held.isNone || x.rdo.heldSub.isNone
  modTile t (fun x => { x with tapA := latch x.tapA, tapB := latch x.tapB,
                               rdo := { x.rdo with tSub := x.rdo.heldSub.getD x.rdo.tSub, heldSub := none,
                                                   stale := stale, subStale := x.rdo.heldSub.isNone,
                                                   blankDone := false } }) s

/-- W is reloaded from the active set and the factors return to OFS 0, GAIN 65,536 (R127). -/
def reloadTaps (t : Nat) (s : State) : State :=
  let re (b : Bool) (x : Tap) : Tap :=
    { x with w := BitVec.ofNat 20 (initialW s t b), ofs := 0, gain := 0x00010000#32, heldW := none, held := none }
  modTile t (fun x => { x with tapA := re false x.tapA, tapB := re true x.tapB,
                               rdo := { x.rdo with stale := true } }) s

/-! ### The commands and events of this chapter -/

/-- BLANKING_WORK_END (R120 to R126). -/
def execBlankingWorkEnd (t : Fin 64) (refLA refHA refLB refHB thermistor : List (BitVec 16))
    (points : List (List (BitVec 16))) (s : State) : Host.Outcome State Fault Refusal :=
  .next (blankingWork t.val refLA refHA refLB refHB thermistor points s)

/-- DAC_LINCAL at its tick (R125, R321). -/
def dacLincal (h : Hdr) (tile : Nat) (a b : Bool) (s : State) : State :=
  runAtTick h 0x33 (fun s =>
    if !s.cfg.hasActive || !tileImaging s tile then reply h 0x33 stNotReady [] s
    else { s with lincals := s.lincals ++ [{ hdr := h, tile, namedA := a, namedB := b, resA := none, resB := none }] }) s

/-- DAC_LINCAL (R125). -/
def execDacLincal (h : Hdr) (tile : Fin 64) (tapA tapB : Bool) (s : State) : Host.Outcome State Fault Refusal :=
  .next (dacLincal h tile.val tapA tapB s)

end Sys2Proof.Machine
end

