-- ==== Sys2Proof/Machine/Lanes.lean ====
section
/-! DEFINITION. Correction lanes (05) and the flat-field unit's work on a frame (06 R156 to R161): one readout row at a
time, the end of a frame, and the deadline. -/
namespace Sys2Proof.Machine

/-! ### The lane, calibration and rotation records of the active set (R132, R154, R155) -/

def activeWord (s : State) (sec o : Nat) : Nat :=
  match activeSet s with | some b => Bank.u32 b (Bank.secOfs b sec + o) | none => 0
def activeHalf (s : State) (sec o : Nat) : Nat := activeWord s sec o % 65536
def activeByte (s : State) (sec o : Nat) : Nat := activeWord s sec o % 256
def activeLong (s : State) (sec o : Nat) : Nat := activeWord s sec o + 2 ^ 32 * activeWord s sec (o + 4)

def laneWord (s : State) (t o : Nat) : Nat := activeWord s 2 (128 * t + o)
def laneFlags (s : State) (t : Nat) : Nat := laneWord s t 0x3C
def tfEn (s : State) (t : Nat) : Bool := (laneFlags s t).testBit 0
def bprEn (s : State) (t : Nat) : Bool := (laneFlags s t).testBit 1
def blindMode (s : State) (t : Nat) : Nat := bits (laneFlags s t) 3 2
def blindMin (s : State) (t : Nat) : Nat := bits (laneFlags s t) 7 4
def alphaOf (s : State) (t : Nat) : Nat := laneWord s t 0x40 % 65536
def motionThr (s : State) (t : Nat) : Nat := laneWord s t 0x40 / 65536
def sceneOfs (s : State) (t : Nat) : Int := toSigned 32 (laneWord s t 0x44)
def cbStride (s : State) (t : Nat) : Nat := laneWord s t 0x28
def oStride (s : State) (t : Nat) : Nat := laneWord s t 0x2C
def gStride (s : State) (t : Nat) : Nat := laneWord s t 0x30
def dStride (s : State) (t : Nat) : Nat := laneWord s t 0x34
def tStride (s : State) (t : Nat) : Nat := laneWord s t 0x38

def calWord (s : State) (t o : Nat) : Nat := activeWord s 3 (64 * t + o)
def housSlot (s : State) (t : Nat) : Nat := calWord s t 0x14 % 256
def flagSlot (s : State) (t : Nat) : Nat := calWord s t 0x14 / 256 % 256
def calEn (s : State) (t : Nat) : Bool := (calWord s t 0x14).testBit 16
def anchorMode (s : State) (t : Nat) : Bool := (calWord s t 0x14).testBit 17

def nAvg (s : State) : Nat := activeByte s 4 0x06
def accBase (s : State) (i : Nat) : Nat := activeLong s 4 (0x18 + 8 * i)

/-! ### Where words lie (R132, R133) -/

def corrSlotBytes : Nat := 101711872
def rawSlotBytes : Nat := 203423744
def corrAddr (b : Bank) (slot t r : Nat) : Nat := Bank.corrBase b + slot * corrSlotBytes + t * 1589248 + r * 2048
def rawAddr (base t r : Nat) : Nat := base + t * 3178496 + r * 4096

/-! ### Replay (R66 to R69, R118) -/

/-- The side record of the frame being replayed has its MAGIC (R67). -/
def sideGood (l : List Byte) : Bool := leNat (l.take 4) = 0x52444953
def sideU32 (l : List Byte) (o : Nat) : Nat := leNat ((l.drop o).take 4)
def sideU8 (l : List Byte) (o : Nat) : Nat := leNat ((l.drop o).take 1)
/-- The side record in force, in a replayed frame. -/
def sideOf (s : State) : Option (List Byte) := s.replay.map fun r => r.side
/-- W, OFS and GAIN that the lane uses for a tap: from the side record in replay (R118). -/
def tapFactors (s : State) (t : Nat) (b : Bool) : Nat × Int × Nat :=
  match sideOf s with
  | some l =>
    let a := 0x40 + 32 * t
    (sideU32 l (a + (if b then 24 else 20)), toSigned 32 (sideU32 l (a + (if b then 8 else 0))),
      sideU32 l (a + (if b then 12 else 4)))
  | none => let x := tapOf (tileOf s t) b; (x.w.toNat, x.ofs.toInt, x.gain.toNat)

/-! ### Stages 1 and 2 and the counter-bias word (R104 to R118) -/

/-- What the lane knows of a pixel after stage 2. -/
structure PixX where
  /-- ST of the word fetched, the code presented, whether the word was late. -/
  st : Nat
  cb : Nat
  late : Bool
  rsat : Bool
  /-- X of R110 and X′ of R111. -/
  x : Int
  x' : Int
  /-- The counter-bias word written back. -/
  cbNew : Nat

/-- One sample of a tap: the word fetched, the code the DAC holds, the live code or the recorded X (R110 to R118). -/
def sample (s : State) (t : Nat) (b : Bool) (fetched dac : Nat) (late : Bool) (live : Int) (rec : Option Int) : PixX :=
  let (w, ofs, gain) := tapFactors s t b
  let tapofs := tapOfs s t b
  let cb := if late then dac else fetched % 4096
  let st := fetched / 4096 % 16
  let r0 := match rec with | some x => x + tapofs - ((w * cb / 256 : Nat) : Int) | none => live
  let r := clamp r0 (-32768) 32767
  let sat := satCode r
  { st, cb, late, rsat := sat, x := composite w cb r tapofs, x' := composite' w cb r ofs gain tapofs,
    cbNew := if nullEn s t then nullstep cb st r w (stepLim s t) else fetched }

/-- `n` counter-bias words of row `r` from column `c`, as the lane reads them from DRAM (R108, R131). -/
def cbWords (s : State) (t r c n : Nat) : List (BitVec 16) :=
  (List.range n).map fun i =>
    BitVec.ofNat 16 (dramU16 s ((tileOf s t).lane.cb.base.toNat + r * cbStride s t + 2 * (c + i)))

/-- The counter-bias words of a row: those fetched ahead of it, and the rest in 64-byte groups (R108). -/
def rowWords (s : State) (t r : Nat) : List (BitVec 16) :=
  let buf := (tileOf s t).lane.work.cbBuf
  buf ++ cbWords s t r buf.length (1024 - buf.length)

/-- The words in the lane's buffer as row `r` begins: at most 512 are fetched ahead of the slot being loaded (R108). -/
def fetchAhead (t r : Nat) (s : State) : State :=
  modWork t (fun w => { w with cbBuf := if r < 776 then cbWords s t r 0 512 else [] }) s

/-- The pixels of a row after stage 2, column by column, with the codes both DACs hold (R104, R108, R109). -/
def rowSamples (s : State) (t r : Nat) (codesA codesB : List (BitVec 16)) (late : List Nat) :
    List PixX × Nat × Nat :=
  let words := rowWords s t r
  let recAt (c : Nat) : Option Int := s.replay.map fun p =>
    toSigned 24 (dramU32 s (rawAddr (p.rawBase + p.at_ * p.rawStride) t r + 4 * c))
  let idle := cbIdle s t
  let (l, da, db) := (List.range 1024).foldl (fun (acc : List PixX × Nat × Nat) c =>
      let (l, da, db) := acc
      let b := c % 2 = 1
      let live := codeOf ((if b then codesB else codesA).getD (c / 2) 0)
      let p := sample s t b (words.getD c 0).toNat (if b then db else da) (late.contains c) live (recAt c)
      (p :: l, if b then da else p.cb, if b then p.cb else db)) ([], idle, idle)
  (l.reverse, da, db)

/-- The raw-store word of a pixel (R117). -/
def rawWord (p : PixX) : Nat := wrap 24 p.x + p.st * 2 ^ 24 + p.rsat.toNat * 2 ^ 28 + p.late.toNat * 2 ^ 29

/-- Write one word for each column of a row. -/
def writeRow (a size : Nat) (vals : List Nat) (s : State) : State :=
  (vals.zipIdx).foldl (fun s p => stageWrite (a + size * p.2) (leBytes size p.1) s) s

/-! ### Stage 3: blind rows (R134 to R136) -/

/-- B[c] of every column at the end of row 7, and whether R135 applies (R134, R135). -/
def blindOffsets (s : State) (t : Nat) (a : Acc) : List Int × Bool :=
  let tapSum (b : Nat) : Int × Nat :=
    ((((a.blindS.zipIdx).filter fun p => p.2 % 2 = b).map fun p => p.1).sum,
     (((a.blindN.zipIdx).filter fun p => p.2 % 2 = b).map fun p => p.1).sum)
  let ta := tapSum 0
  let tb := tapSum 1
  let mean (x : Int × Nat) : Int := if x.2 = 0 then 0 else rndDiv x.1 x.2
  let mode := blindMode s t
  let ofs (c : Nat) : Int :=
    let n := a.blindN.getD c 0
    let tap := if c % 2 = 1 then tb else ta
    if mode = 0 then 0
    else if mode = 1 && blindMin s t ≤ n && n ≠ 0 then rndDiv (a.blindS.getD c 0) n
    else mean tap
  ((List.range 1024).map ofs, mode ≠ 0 && (ta.2 = 0 || tb.2 = 0))

/-! ### Statistics (R147, R158) -/

def Acc.empty : Acc :=
  { rsat := 0, conv := 0, rail := 0, nValid := 0, nInvalid := 0, min := 0xFFFF, max := 0, bad := 0, norep := 0,
    clipLo := 0, clipHi := 0, motion := 0, sum := 0, hist := List.replicate 256 0,
    blindS := List.replicate 1024 0, blindN := List.replicate 1024 0, vn := 0, v1 := 0, v2 := 0 }

/-- Count an output word of an active pixel (R147). -/
def Acc.out (a : Acc) (w : Nat) : Acc :=
  if w = 0xFFFF then { a with nInvalid := a.nInvalid + 1 }
  else { a with nValid := a.nValid + 1, min := BitVec.ofNat 16 (Nat.min a.min.toNat w),
                max := BitVec.ofNat 16 (Nat.max a.max.toNat w), sum := a.sum + w,
                hist := a.hist.modify (w / 256) (· + 1) }

/-- Add a V of R137 to the variance sums (R158). -/
def Acc.addV (a : Acc) (v : Int) : Acc :=
  let v := clamp v (-32768) 32767
  { a with vn := a.vn + 1, v1 := a.v1 + v, v2 := a.v2 + (v * v).toNat }

/-- VAR of R158. -/
def Acc.var (a : Acc) : BitVec 32 :=
  if a.vn = 0 then BitVec.allOnes 32
  else satNat 32 (rndDiv ((a.vn * a.v2 : Nat) - a.v1 * a.v1) (a.vn * a.vn : Nat)).toNat

/-! ### Stage 4 (R137, R138) and the flat-field unit (R156 to R161) -/

def heldPhase : CalPhase → Bool
  | .close | .accum | .compute | .open => true
  | _ => false

/-- The address of the word the lane reads as O (R156). -/
def oReadAddr (s : State) (t r c : Nat) : Nat :=
  let x := tileOf s t
  let own := x.lane.o.toNat + r * oStride s t + 4 * c
  let slot := accBase s x.cal.slot + r * 4096 + 4 * c
  let target := x.cal.target.toNat + r * oStride s t + 4 * c
  match x.cal.phase with
  | .idle | .close => own
  | .accum => if x.cal.index = 0 then own else slot
  | .compute => slot
  | .open => if x.cal.abandoning then own else target
  | .traverse => target

/-- The offset stage 4 uses: in TRAVERSE frame j the blend of the two tables (R161). -/
def oUsed (s : State) (t r c : Nat) : Int :=
  let x := tileOf s t
  let o := toSigned 24 (dramU32 s (oReadAddr s t r c))
  if x.cal.phase = .traverse then
    let old := toSigned 24 (dramU32 s (x.lane.o.toNat + r * oStride s t + 4 * c))
    old + rndDiv ((o - old) * (x.cal.index + 1 : Nat)) x.cal.kUsed
  else o

/-- V of R137 for an active pixel. -/
def formV (s : State) (t r c : Nat) (x' bc : Int) : Int :=
  let x := tileOf s t
  let d := toSigned 16 (dramU16 s (x.lane.d.toNat + r * dStride s t + 2 * c))
  x' - bc - oUsed s t r c - rndShr (d * x.lane.dt.toInt) 16 - x.lane.housing.toInt

/-- The slot word that ACCUM frame j writes (R159): the word read as O, the old slot word, V and whether the sample
poisons the pixel. -/
def slotWord (j : Nat) (oR : Int) (old : Nat) (u : Int) (poison : Bool) : Nat :=
  if j = 0 then
    if poison then 2 ^ 31 + 2 ^ 30 + wrap 30 oR else wrap 30 u
  else if old.testBit 31 then old
  else if poison then 2 ^ 31 + wrap 30 (rndDiv (toSigned 30 old) j)
  else wrap 30 (toSigned 30 old + u)

/-- The target word of a slot word (R160). -/
def newOfs (w nAvg : Nat) (l : Int) : Int :=
  let v := toSigned 30 w
  if w.testBit 31 && w.testBit 30 then v
  else clamp ((if w.testBit 31 then v else rndDiv v nAvg) - l) (-8388608) 8388607

/-- The flat-field unit's work on an active pixel of a HELD frame (R159, R160). -/
def flatField (t r c : Nat) (p : PixX) (v : Int) (s : State) : State :=
  let x := tileOf s t
  let slotA := accBase s x.cal.slot + r * 4096 + 4 * c
  match x.cal.phase with
  | .accum =>
    let j := x.cal.index
    let oR := toSigned 24 (dramU32 s (oReadAddr s t r c))
    let u := v + oR
    let poison := p.rsat || decide (8388608 ≤ u.natAbs)
    let old := if j = 0 then 0 else dramU32 s slotA
    let now := slotWord j oR old u poison
    let newly := poison && (j = 0 || !(old.testBit 31))
    stageWrite slotA (leBytes 4 now) (modCal t (fun k =>
      let k := { k with poisoned := k.poisoned + newly.toNat }
      if j = 0 && !poison then
        { k with n0 := k.n0 + 1, sv0 := k.sv0 + v, max0 := if k.n0 = 0 then v else max k.max0 v,
                 min0 := if k.n0 = 0 then v else min k.min0 v }
      else k) s)
  | .compute =>
    let o := newOfs (dramU32 s slotA) (nAvg s) x.cal.curLevel
    stageWrite (x.cal.target.toNat + r * oStride s t + 4 * c) (leInt 4 o) s
  | _ => s

/-! ### Stages 5 and 6 (R139 to R142) -/

/-- Replace a bad pixel by the mean of its valid neighbours; none without one (R139). -/
def replaceBad (above mid below : List PixY) (c : Nat) : Option Nat :=
  let at_ (l : List PixY) (i : Nat) : List Nat :=
    match l[i]? with | some p => if p.bad || p.y = 0xFFFF then [] else [p.y.toNat] | none => []
  let near (l : List PixY) : List Nat := (if c = 0 then [] else at_ l (c - 1)) ++ at_ l c ++ at_ l (c + 1)
  let side (l : List PixY) : List Nat := (if c = 0 then [] else at_ l (c - 1)) ++ at_ l (c + 1)
  let ns := near above ++ side mid ++ near below
  if ns.isEmpty then none else some (rndDiv (ns.sum : Nat) ns.length).toNat

/-- The filter of R141: the state word written, and whether the motion gate opened. -/
def tfilter (z st alpha thr : Nat) (fresh : Bool) : Nat × Bool :=
  if z = 0xFFFF then (st, false)
  else if fresh || st = 0xFFFF then (z, false)
  else
    let d : Int := (z : Int) - st
    if d > thr || d < -(thr : Int) then (z, true) else (((st : Int) + rndShr (d * alpha) 8).toNat, false)

/-- Replace, filter and write one active row from the stage-4 results of its neighbours (R139 to R142, R144). -/
def finishRow (b : Bank) (t r : Nat) (above mid below : List PixY) (s : State) : State :=
  let x := tileOf s t
  let tf := tfEn s t
  let fresh := x.lane.work.fresh
  let slot := s.cfg.n % Bank.nCorr b
  (List.range 1024).foldl (fun s c =>
    let p := mid.getD c { y := 0xFFFF, bad := false }
    let rep := if p.bad && bprEn s t then replaceBad above mid below c else none
    let z := if p.bad then rep.getD 0xFFFF else p.y.toNat
    let tOfs := r * tStride s t + 2 * c
    let st := if !tf || fresh then 0xFFFF else dramU16 s (x.lane.t.base.toNat + tOfs)
    let (st', moved) := if tf then tfilter z st (alphaOf s t) (motionThr s t) fresh else (0, false)
    let out := if z = 0xFFFF then 0xFFFF else if tf then st' else z
    let s := stageWrite (corrAddr b slot t r + 2 * c) (leBytes 2 out) s
    let s := if tf then stageWrite (x.lane.t.write.toNat + tOfs) (leBytes 2 st') s else s
    modWork t (fun w => { w with acc :=
      { (w.acc.out out) with bad := w.acc.bad + p.bad.toNat, norep := w.acc.norep + (p.bad && bprEn s t && rep.isNone).toNat,
                             motion := w.acc.motion + moved.toNat } }) s) s

/-! ### A row of each kind -/

/-- A placeholder row: 0xFFFF in every pixel (R75). -/
def placeholderRow (b : Bank) (t r : Nat) (s : State) : State :=
  writeRow (corrAddr b (s.cfg.n % Bank.nCorr b) t r) 2 (List.replicate 1024 0xFFFF) s

/-- Temporal-state words written back as they were read, or 0xFFFF in a fresh frame that is not HELD (R136, R142, R143). -/
def stateBack (t r : Nat) (s : State) : State :=
  let x := tileOf s t
  if !tfEn s t then s
  else (List.range 1024).foldl (fun s c =>
    let o := r * tStride s t + 2 * c
    let v := if x.lane.work.fresh && !x.lane.work.held then 0xFFFF else dramU16 s (x.lane.t.base.toNat + o)
    stageWrite (x.lane.t.write.toNat + o) (leBytes 2 v) s) s

/-- Stage 3 on a blind row, and at the end of row 7 the column offsets and the corrected words of the blind rows
(R134 to R136). -/
def blindRow (b : Bank) (t r : Nat) (px : List PixX) (s : State) : State :=
  let x := tileOf s t
  let gBase := x.lane.g.toNat + r * gStride s t
  let usable := (px.zipIdx).map fun p => !p.1.rsat && dramU16 s (gBase + 2 * p.2) ≠ 0
  let s := modWork t (fun w => { w with
    blind := w.blind ++ [px.map fun p => if p.rsat then none else some p.x'],
    acc := { w.acc with
      blindS := (w.acc.blindS.zip (px.zip usable)).map fun p => if p.2.2 then p.1 + p.2.1.x' else p.1,
      blindN := (w.acc.blindN.zip usable).map fun p => if p.2 then p.1 + 1 else p.1 } }) s
  let s := stateBack t r s
  if r = 7 then
    let a := (tileOf s t).lane.work.acc
    let (ofs, fail) := blindOffsets s t a
    let s := modWork t (fun w => { w with b := ofs, blindFail := fail }) s
    ((tileOf s t).lane.work.blind.zipIdx).foldl (fun s row =>
      writeRow (corrAddr b (s.cfg.n % Bank.nCorr b) t row.2) 2
        ((row.1.zip ofs).map fun p => match p.1 with
          | none => 0xFFFF
          | some v => (clamp (v - p.2 + 32768) 0 0xFFFE).toNat) s) s
  else s

/-- Stage 4 of an active pixel: its result, and which clip it met (R137, R138). -/
def stage4 (s : State) (t r c : Nat) (p : PixX) (bc : Int) : PixY × Bool × Bool :=
  let g := dramU16 s ((tileOf s t).lane.g.toNat + r * gStride s t + 2 * c)
  if g = 0 then ({ y := 0xFFFF, bad := true }, false, false)
  else if p.rsat then ({ y := 0xFFFF, bad := false }, false, false)
  else
    let y := rndShr (formV s t r c p.x' bc * g) 14 + sceneOfs s t
    ({ y := BitVec.ofInt 16 (clamp y 0 0xFFFE), bad := false }, y < 0, y > 0xFFFE)

/-- An active row of a frame that is not HELD: stage 4, then the row before it is finished (R140). -/
def activeRow (b : Bank) (t r : Nat) (px : List PixX) (s : State) : State :=
  let w := (tileOf s t).lane.work
  let cur := (px.zipIdx).map fun p => stage4 s t r p.2 p.1 (w.b.getD p.2 0)
  let ys := cur.map fun p => p.1
  let s := modWork t (fun w => { w with acc := { w.acc with
      clipLo := w.acc.clipLo + (cur.filter fun p => p.2.1).length,
      clipHi := w.acc.clipHi + (cur.filter fun p => p.2.2).length } }) s
  let s := if r = 8 then s else finishRow b t (r - 1) w.prev2 w.prev1 ys s
  let s := if r = 775 then finishRow b t 775 w.prev1 ys [] s else s
  modWork t (fun w => { w with prev2 := w.prev1, prev1 := ys }) s

/-- An active row of a HELD frame (R143, R158 to R160). -/
def heldRow (b : Bank) (t r : Nat) (px : List PixX) (s : State) : State :=
  let x := tileOf s t
  let n := Bank.nCorr b
  let from_ := corrAddr b ((s.cfg.n + n - 1) % n) t r
  let words := (List.range 1024).map fun c => if x.lane.prevSameSet then dramU16 s (from_ + 2 * c) else 0xFFFF
  let s := writeRow (corrAddr b (s.cfg.n % n) t r) 2 words s
  let s := modWork t (fun w => { w with acc := words.foldl Acc.out w.acc }) s
  let s := (px.zipIdx).foldl (fun s p =>
      let v := formV s t r p.2 p.1.x' (x.lane.work.b.getD p.2 0)
      let s := if p.1.rsat then s else modWork t (fun w => { w with acc := w.acc.addV v }) s
      flatField t r p.2 p.1 v s) s
  stateBack t r s

/-- The blind rows of the target are written with 0 in COMPUTE (R160). -/
def targetBlind (t r : Nat) (s : State) : State :=
  let x := tileOf s t
  if x.cal.phase = .compute then writeRow (x.cal.target.toNat + r * oStride s t) 4 (List.replicate 1024 0) s else s

/-- The spans of DRAM that a row of the lane moves (R27, R104, R131 to R143, R156 to R161): of a placeholder its output
alone. The output and the temporal words of an active row follow with the row after it, and are taken with it. -/
def rowSpans (s : State) (b : Bank) (t r : Nat) : List Span :=
  let x := tileOf s t
  let active := decide (8 ≤ r)
  let out := writes (corrAddr b (s.cfg.n % Bank.nCorr b) t r) 2048
  let on (c : Bool) (l : List Span) : List Span := if c then l else []
  if x.lane.work.mode ≠ .read then [out]
  else
    let n := Bank.nCorr b
    [reads (x.lane.cb.base.toNat + r * cbStride s t) 2048]
      ++ (match s.replay with | some p => [reads (rawAddr (p.rawBase + p.at_ * p.rawStride) t r) 4096] | none => [])
      ++ on (active && x.lane.work.held && x.lane.prevSameSet) [reads (corrAddr b ((s.cfg.n + n - 1) % n) t r) 2048]
      ++ on (!active || !x.lane.work.held) [reads (x.lane.g.toNat + r * gStride s t) 2048]
      ++ on active [reads (oReadAddr s t r 0) 4096, reads (x.lane.d.toNat + r * dStride s t) 2048]
      ++ on (active && x.cal.phase = .traverse) [reads (x.lane.o.toNat + r * oStride s t) 4096]
      ++ on (tfEn s t && (!x.lane.work.fresh || x.lane.work.held)) [reads (x.lane.t.base.toNat + r * tStride s t) 2048]
      ++ [writes (x.lane.cb.write.toNat + r * cbStride s t) 2048]
      ++ on (Bank.nRaw b ≠ 0) [writes (rawAddr (Bank.rawBase b + s.cfg.n % Bank.nRaw b * rawSlotBytes) t r) 4096]
      ++ [out]
      ++ on (tfEn s t) [writes (x.lane.t.write.toNat + r * tStride s t) 2048]
      ++ on (active && x.cal.phase = .accum) [writes (accBase s x.cal.slot + r * 4096) 4096]
      ++ on (x.cal.phase = .compute) [writes (x.cal.target.toNat + r * oStride s t) 4096]

/-- A row that the lane reads and corrects (R130). -/
def readRow (b : Bank) (t r : Nat) (codesA codesB : List (BitVec 16)) (late : List Nat) (s : State) : State :=
  let (px, da, db) := rowSamples s t r codesA codesB late
  let x := tileOf s t
  let s := fetchAhead t (r + 1) s
  let s := writeRow (x.lane.cb.write.toNat + r * cbStride s t) 2 (px.map fun p => p.cbNew) s
  let s := if Bank.nRaw b = 0 then s
    else writeRow (rawAddr (Bank.rawBase b + s.cfg.n % Bank.nRaw b * rawSlotBytes) t r) 4 (px.map rawWord) s
  let active := 8 ≤ r
  let cnt (f : PixX → Bool) : Nat := if active then (px.filter f).length else 0
  let s := modWork t (fun w => { w with
    late := w.late || px.any fun p => p.late,
    overrun := w.overrun || px.any fun p => p.late,
    acc := { w.acc with rsat := w.acc.rsat + cnt fun p => p.rsat, conv := w.acc.conv + cnt fun p => converging p.st,
                        rail := w.acc.rail + cnt fun p => p.st = 13 } }) s
  let s := modTile t (fun x => { x with tapA := { x.tapA with dac := BitVec.ofNat 12 da },
                                        tapB := { x.tapB with dac := BitVec.ofNat 12 db } }) s
  if !active then targetBlind t r (blindRow b t r px s)
  else if x.lane.work.held then heldRow b t r px s else activeRow b t r px s

/-- The port's own part of a row: the frame-start pulse of row 0 or the row pulse (R85), and, in a live frame, TSTAT
(R95) and the reset samples (R86, R100). In replay the port keeps its clocks, and its samples are discarded (R66, R99). -/
def portRow (t : Nat) (rstA rstB : BitVec 16) (tstat : Bool) (s : State) : State :=
  let p := (tileOf s t).port
  if p.state ≠ .imaging || 776 ≤ p.rows then s
  else if s.tick.replaying then
    modPort t (fun p => { p with rows := p.rows + 1 }) (emit (.lsync t (if p.rows = 0 then 4 else 1)) s)
  else
    let active := tstat != tstatPol s t
    let lo := toSigned 16 (setWord s t 0x14)
    let hi := toSigned 16 (setWord s t 0x14 / 65536)
    let out (c : BitVec 16) : Bool := codeOf c < lo || hi < codeOf c
    let run := if out rstA || out rstB then p.rstRun + 1 else 0
    let bad := decide (losRows s t ≤ run) && run ≠ 0
    let s := emit (.lsync t (if p.rows = 0 then 4 else 1)) s
    modPort t (fun p => { p with
      activeRows := p.activeRows + active.toNat,
      transitions := p.transitions + (decide (p.rows ≠ 0) && p.tstatLevel ≠ active).toNat,
      tstatLevel := active, rows := p.rows + 1, rstRun := run,
      causeNow := if bad then setBit p.causeNow 1 else p.causeNow }) s

/-- One readout row reaches the lane (R130, R145). -/
def laneRow (t : Nat) (codesA codesB : List (BitVec 16)) (rstA rstB : BitVec 16) (tstat : Bool) (late : List Nat)
    (full : Bool) (hits : List (Nat × EccHit)) (s : State) : State :=
  let s := portRow t rstA rstB tstat s
  let w := (tileOf s t).lane.work
  match activeSet s with
  | none => s
  | some b =>
    if w.mode = .idle || w.done || w.stopped || 776 ≤ w.row then s
    else if full && w.mode = .read then
      modLane t (fun l => { l with tblLate := satInc l.tblLate, work := { l.work with stopped := true, overrun := true } }) s
    else
      let s := traffic (t / 16) hits (rowSpans s b t w.row) s
      let s := if w.mode = .read then readRow b t w.row codesA codesB late s else placeholderRow b t w.row s
      let bad := (quadOf s (t / 16)).supplyBad
      modWork t (fun w => { w with row := w.row + 1, supplyBad := if w.row = 775 then bad else w.supplyBad }) s

/-! ### The end of a frame (R95 to R100, R116, R135, R147 to R149) -/

/-- The TSTAT summary of the frame (R95). -/
def tstatSummary (p : Port) : BitVec 8 :=
  BitVec.ofNat 8 ((decide (p.activeRows ≠ 0)).toNat + p.masked.toNat * 2 + (decide (8 < p.transitions)).toNat * 4
    + clampNat p.transitions 31 * 8)

/-- The LOS causes of the tile's frame (R75, R96, R100): on a placeholder frame of a port in PREPARE or READY those that
R100 gives whatever the port does (PLL_UNLOCK, CB_OVC, BREF_FAULT). -/
def frameCauses (s : State) (t : Nat) : BitVec 8 :=
  let p := (tileOf s t).port
  let tst := p.state = .imaging && tstatAction s t && !p.masked && decide (p.activeRows ≠ 0)
  let base := if p.state = .imaging || p.state = .fault || p.repreparing then p.causeNow ||| p.causeStand
    else if p.state = .off then 0 else (p.causeNow ||| p.causeStand) &&& 0x31#8
  if tst then setBit base 2 else base

/-- A measurement of the quadrant's supply from the tick to the tile's readout end lay outside the limit (R475). -/
def supplyOut (s : State) (t : Nat) : Bool :=
  let w := (tileOf s t).lane.work
  if 776 ≤ w.row then w.supplyBad else (quadOf s (t / 16)).supplyBad

/-- The status byte of the frame (R149). In replay VALID is the recorded one even where R135 applies to the frame: DESIGN
CHOICE, log entry 139. -/
def statusByte (s : State) (t : Nat) (los ovr : Bool) : BitVec 8 :=
  let x := tileOf s t
  let w := x.lane.work
  let read := decide (w.mode = .read)
  let sat := decide (7864 < w.acc.rsat)
  let blend := decide (x.cal.phase = .traverse)
  let recorded := match sideOf s with | some l => if sideGood l then some (sideU8 l (0x40 + 32 * t + 31)) else none | none => none
  let los := match recorded with | some r => r.testBit 4 | none => los
  let stale := match recorded with | some r => r.testBit 5 | none => w.staleHk
  let good := read && !w.held && !los && !ovr && !w.blindFail && !supplyOut s t
  let valid := match recorded with | some r => r.testBit 0 && !ovr && !w.held | none => good
  BitVec.ofNat 8 (valid.toNat + w.held.toNat * 2 + blend.toNat * 4 + sat.toNat * 8 + los.toNat * 16 + stale.toNat * 32
    + ovr.toNat * 64 + s.tick.replaying.toNat * 128)

/-- The SFN that outputs of the frame carry: the recorded one in replay (R68), also where the MAGIC of the side record is
wrong (DESIGN CHOICE, log entry 140). -/
def outSfn (s : State) : Nat :=
  match sideOf s with | some l => sideU32 l 4 | none => s.tick.sfn.toNat

/-- Mean of a blind sum (R147). -/
def blindMean (l : List (Int × Nat)) : Int :=
  let n := (l.map fun p => p.2).sum
  if n = 0 then 0 else rndDiv (l.map fun p => p.1).sum n

/-- The blind sums and counts of the columns of a tap. -/
def tapBlind (a : Acc) (b : Nat) : List (Int × Nat) :=
  ((a.blindS.zip a.blindN).zipIdx).filterMap fun p => if p.2 % 2 = b then some p.1 else none

/-- The 1,088-byte statistics record (R147). -/
def statRecord (s : State) (t : Nat) (st : BitVec 8) : List Byte :=
  let a := (tileOf s t).lane.work.acc
  let ph := (tileOf s t).lane.work.mode ≠ .read
  let n (x : Nat) : List Byte := leBytes 4 (if ph then 0 else x)
  leBytes 4 0x53544154 ++ leBytes 4 (outSfn s) ++ [BitVec.ofNat 8 t, st] ++ leBytes 2 0 ++ n a.nValid
    ++ leBytes 2 (if ph || a.nValid = 0 then 0xFFFF else a.min.toNat) ++ leBytes 2 (if ph then 0 else a.max.toNat)
    ++ leBytes 4 (if ph then 786432 else a.nInvalid) ++ n a.bad ++ n a.norep ++ n a.clipLo ++ n a.clipHi ++ n a.motion
    ++ leInt 4 (if ph then 0 else blindMean (tapBlind a 0)) ++ leInt 4 (if ph then 0 else blindMean (tapBlind a 1))
    ++ leInt 4 (if ph then 0 else blindMean (tapBlind a 0 ++ tapBlind a 1)) ++ leBytes 8 (if ph then 0 else a.sum)
    ++ (a.hist.flatMap fun h => n h)

/-- The statistics slot of the frame (R147, R148). -/
def statsAddr (s : State) (b : Bank) : Nat := Bank.statsBase b + s.cfg.n % Bank.nStats b * 69696

/-- Write a tile's status byte into the status record of the frame's statistics slot (R148). -/
def putStatus (b : Bank) (t : Nat) (st : BitVec 8) (hits : List (Nat × EccHit)) (s : State) : State :=
  let a := statsAddr s b + t
  stageWrite a [st] (traffic (t / 16) hits [writes a 1] s)

/-- Write a tile's statistics record (R147). -/
def putStats (b : Bank) (t : Nat) (st : BitVec 8) (s : State) : State :=
  let a := statsAddr s b + 64 + 1088 * t
  stageWrite a (statRecord s t st) (traffic (t / 16) [] [writes a 1088] s)

/-- Every span that the tile's frame moves: while a request of its port for one of them waits, the frame is not
finished (01 R28). -/
def frameSpans (s : State) (b : Bank) (t : Nat) : List Span :=
  (List.range 776).flatMap (rowSpans s b t)

/-- A housekeeping slot as latched for the frame (R39, R69): in replay that of the side record. -/
def slotValue (s : State) (i : Nat) : Nat :=
  match sideOf s with
  | some l => sideU32 l (0x840 + 4 * i)
  | none => (vget s.hk.latched i 0).toNat

/-- What an ACCUM frame adds to the T_f sum: the flag slot (R159). -/
def flagValue (s : State) (t : Nat) : Nat := if flagSlot s t < 64 then slotValue s (flagSlot s t) else 0

/-- The results of the frame go to the registers of R101, R129 and R150, and to the flat-field unit (R157). A placeholder
frame keeps the TSTAT summary of the last imaging frame: DESIGN CHOICE, log entry 137. -/
def recordFrame (b : Bank) (t : Nat) (los : Bool) (causes : BitVec 8) (ovr : Bool) (s : State) : State :=
  let st := statusByte s t los ovr
  let w := (tileOf s t).lane.work
  let a := w.acc
  let live := (tileOf s t).port.state = .imaging && !s.tick.replaying
  let slot := BitVec.ofNat 8 (s.cfg.n % Bank.nCorr b)
  modTile t (fun (x : Tile) =>
    let summary := match sideOf s with
      | some l => BitVec.ofNat 8 (sideU8 l (0x40 + 32 * t + 30))
      | none => if live then tstatSummary x.port else x.port.lastSummary
    let x := { x with port := { x.port with lastSummary := summary, losCause := causes,
                                            losSticky := x.port.losSticky ||| causes, los := los,
                                            losCnt := if los then satInc x.port.losCnt else x.port.losCnt } }
    let x := { x with
      lane := { x.lane with status := st, corrSlot := slot, work := { x.lane.work with done := true },
                            heldCnt := if w.held then satInc x.lane.heldCnt else x.lane.heldCnt },
      cal := { x.cal with frameDone := true, frameLos := (st.getLsbD 4), frameOvr := ovr, frameVar := a.var,
                          stf := x.cal.stf + (if x.cal.phase = CalPhase.accum then flagValue s t else 0) } }
    { x with
      rdo := { x.rdo with sat := st.getLsbD 3, rsat := satNat 20 a.rsat, conv := satNat 20 a.conv, rail := satNat 20 a.rail },
      lane := { x.lane with
        blindOkA := decide (((tapBlind a 0).map fun p => p.2).sum ≠ 0),
        blindOkB := decide (((tapBlind a 1).map fun p => p.2).sum ≠ 0),
        meanA := BitVec.ofInt 32 (blindMean (tapBlind a 0)), meanB := BitVec.ofInt 32 (blindMean (tapBlind a 1)),
        bad := satNat 20 a.bad, norep := satNat 20 a.norep, clipLo := satNat 20 a.clipLo, clipHi := satNat 20 a.clipHi,
        motion := satNat 20 a.motion,
        blindFailCnt := if w.blindFail then satInc x.lane.blindFailCnt else x.lane.blindFailCnt } }) s

/-- A tile's part of the side record (R67). -/
def sideTile (s : State) (t : Nat) (st : BitVec 8) : List Byte :=
  let (wa, oa, ga) := tapFactors s t false
  let (wb, ob, gb) := tapFactors s t true
  let rec8 (o : Nat) (x : BitVec 8) : Byte := match sideOf s with | some l => l.getD (0x40 + 32 * t + o) 0 | none => x
  let sub := match sideOf s with | some l => sideU32 l (0x40 + 32 * t + 16) | none => (tileOf s t).rdo.tSub.toNat
  leInt 4 oa ++ leBytes 4 ga ++ leInt 4 ob ++ leBytes 4 gb ++ leBytes 4 sub ++ leBytes 4 wa ++ leBytes 4 wb
    ++ [rec8 28 (coilOf s t).stateByte, rec8 29 (coilOf s t).dipByte, (tileOf s t).port.lastSummary, st]

/-- The side record of the frame's raw slot takes the tile's part, when the raw store is enabled (R66, log entry 12). -/
def putSide (b : Bank) (t : Nat) (st : BitVec 8) (s : State) : State :=
  if Bank.nRaw b = 0 then s
  else { s with sides := s.sides.map fun p =>
    if p.1 = s.cfg.n % Bank.nRaw b then
      (p.1, p.2.take (0x40 + 32 * t) ++ sideTile s t st ++ p.2.drop (0x60 + 32 * t)) else p }

/-- LOS and its causes as the frame ends: in replay LOS is the recorded one, or that of a bad side record (R66, R69). -/
def endCauses (s : State) (t : Nat) : Bool × BitVec 8 :=
  match sideOf s with
  | some l => (!sideGood l || (sideU8 l (0x40 + 32 * t + 31)).testBit 4, 0)
  | none => (frameCauses s t ≠ 0, frameCauses s t)

/-- What the port judges of TSTAT at the end of a frame (R97, R98): an input that has been active in all 776 samples of
three consecutive frames is masked, and a chattering one is counted. -/
def tstatJudge (t : Nat) (s : State) : State :=
  let p := (tileOf s t).port
  if p.state ≠ .imaging || s.tick.replaying then s
  else
    let chatter := decide (8 < p.transitions)
    let run := if p.activeRows = 776 && !p.masked then p.wholeRun + 1 else 0
    let stuck := decide (3 ≤ run)
    raiseErrs ((if stuck then [mkErr 2 0x26 t 0 0] else [])
        ++ (if chatter then [mkErr 2 0x27 t (clampNat p.transitions 31) 0] else []))
      (modPort t (fun p => { p with
        wholeRun := if stuck then 0 else run, masked := p.masked || stuck, stuckSeen := p.stuckSeen || stuck,
        chatterSeen := p.chatterSeen || chatter,
        chatterCnt := if chatter then satInc p.chatterCnt else p.chatterCnt }) s)

/-- The lane finishes the frame once its last row is written (R149): statistics record, status byte, TSTAT summary. -/
def laneFrameEnd (t : Nat) (hits : List (Nat × EccHit)) (s : State) : State :=
  let w := (tileOf s t).lane.work
  match activeSet s with
  | none => s
  | some b =>
    if w.mode = .idle || w.done || w.stopped || w.row < 776 || spansWait s (t / 16) (frameSpans s b t) then s
    else
      let s := recordFrame b t (endCauses s t).1 (endCauses s t).2 (w.overrun || s.tick.crossLanes.getLsbD t) s
      let st := (tileOf s t).lane.status
      tstatJudge t (putSide b t st (putStatus b t st hits (putStats b t st s)))

/-- A lane that has not finished at its deadline, or at the tick, is OVERRUN: its writes not yet issued are discarded and
only the marked status byte stands (R48, R145). -/
def laneCut (t : Nat) (s : State) : State :=
  let w := (tileOf s t).lane.work
  match activeSet s with
  | none => s
  | some b =>
    if w.mode = .idle || w.done then s
    else
      let s := modWork t (fun w => { w with stopped := true, overrun := true }) s
      let s := recordFrame b t (endCauses s t).1 (endCauses s t).2 true s
      tstatJudge t (putSide b t (tileOf s t).lane.status (putStatus b t (tileOf s t).lane.status [] s))

/-! ### The commands and events of this chapter -/

/-- LANE_ROW (R85, R86, R95, R100, R104 to R118, R130 to R143, R156 to R161). -/
def execLaneRow (t : Fin 64) (codesA codesB : List (BitVec 16)) (rstA rstB : BitVec 16) (tstat : Bool)
    (late : List Nat) (bufferFull : Bool) (s : State) (hits : List (Nat × EccHit) := []) :
    Host.Outcome State Fault Refusal :=
  .next (laneRow t.val codesA codesB rstA rstB tstat late bufferFull hits s)

/-- LANE_FRAME_END (R95, R100, R116, R147 to R149). -/
def execLaneFrameEnd (t : Fin 64) (s : State) (hits : List (Nat × EccHit) := []) : Host.Outcome State Fault Refusal :=
  .next (laneFrameEnd t.val hits s)

/-- LANE_DEADLINE (R145). -/
def execLaneDeadline (t : Fin 64) (s : State) : Host.Outcome State Fault Refusal := .next (laneCut t.val s)

end Sys2Proof.Machine
end

