-- ==== Sys2Proof/Machine/Shutter.lean ====
section
/-! DEFINITION. Shutter drive (07): requests, strokes, chopping, the open-coil and dip tests, faults, and SHUTTER_MOVE. -/
namespace Sys2Proof.Machine

/-! ### Settings (R175, R189) -/

def shutWord (s : State) (g w : Nat) : Nat := activeWord s 5 (0x10 + 32 * g + 4 * w)
def pullinMax (s : State) : Nat := activeByte s 5 0
def staggerUs (s : State) : Nat := activeWord s 5 0 / 65536
def peakDmv (s : State) (g : Nat) : Nat := bits (shutWord s g 0) 11 0
def holdDmv (s : State) (g : Nat) : Nat := bits (shutWord s g 0) 27 16
def pullinUs (s : State) (g : Nat) : Nat := bits (shutWord s g 1) 15 0
def releaseUs (s : State) (g : Nat) : Nat := bits (shutWord s g 1) 31 16
def dipStartUs (s : State) (g : Nat) : Nat := bits (shutWord s g 2) 15 0
def dipEndUs (s : State) (g : Nat) : Nat := bits (shutWord s g 2) 31 16
def dipDmv (s : State) (g : Nat) : Nat := bits (shutWord s g 3) 11 0
def filtLen (s : State) (g : Nat) : Nat := bits (shutWord s g 3) 23 16
def shutRetries (s : State) (g : Nat) : Nat := bits (shutWord s g 3) 26 24
def overlapPermit (s : State) (g : Nat) : Bool := (shutWord s g 3).testBit 27
def coilEn (s : State) (t : Nat) : Bool := (shutWord s (t / 4) 3).testBit (28 + t % 4)
def ocDmv (s : State) (g : Nat) : Nat := bits (shutWord s g 4) 11 0
def openDmv (s : State) (g : Nat) : Nat := bits (shutWord s g 4) 27 16
def openUs (s : State) (g : Nat) : Nat := bits (shutWord s g 5) 15 0
def chopSamples (s : State) (g : Nat) : Nat := bits (shutWord s g 5) 23 16
def lebSamples (s : State) (g : Nat) : Nat := bits (shutWord s g 5) 26 24
def retryGapUs (s : State) (g : Nat) : Nat := bits (shutWord s g 6) 15 0

/-- The code of a setpoint in dmV (R174). -/
def thCode (x : Nat) : Nat := (rndDiv (x * 4096) 2500).toNat

/-! ### What a coil is (R176) -/

def energised (c : Coil) : Bool := c.state = .pullin || c.state = .hold
def countsClosed (c : Coil) : Bool := c.state = .hold || (c.state = .pullin && (c.moved || c.suspended))
def coilCode : CoilState → Nat
  | .open => 0 | .wait => 1 | .pullin => 2 | .hold => 3 | .release => 4 | .gap => 5 | .fault => 6

/-- The tiles of a group (R15). -/
def groupCoils (g : Nat) : List Nat := (List.range 4).map (4 * g + ·)
def otherCoils (t : Nat) : List Nat := (groupCoils (t / 4)).filter (· ≠ t)

/-- The shutter state byte of a coil as it stands (R188). -/
def stateByteOf (c : Coil) : BitVec 8 :=
  BitVec.ofNat 8 (coilCode c.state + (countsClosed c).toNat * 8 + c.fault.toNat * 16)
/-- The dip result byte (R188). -/
def dipByteOf (c : Coil) : BitVec 8 :=
  BitVec.ofNat 8 ((if c.newResult then c.result.toNat else 0) + c.retry.toNat * 4 + c.newResult.toNat * 32)

/-- The state byte that the flat-field unit and the rotation go by: the recorded one in replay (R69, R188). -/
def shutState (s : State) (t : Nat) : Nat :=
  match sideOf s with
  | some l => sideU8 l (0x40 + 32 * t + 28)
  | none => (stateByteOf (coilOf s t)).toNat
/-- Open by Shutter Drive's reckoning (R176). -/
def shutterOpen (s : State) (t : Nat) : Bool := shutState s t % 8 = 0 && shutState s t / 16 = 0
def shutterFault (s : State) (t : Nat) : Nat := shutState s t / 16

/-! ### Chopping (R180) -/

/-- The HSG is low once no coil of the group is in PULLIN or HOLD (R180). -/
def groupIdle (g : Nat) (s : State) : State :=
  if (groupCoils g).any fun t => energised (coilOf s t) then s
  else modGroup g (fun x => { x with hsg := false, chop := none, hsgOff := false, offWas := false }) s

/-- The setpoint sum of the group in dmV (R180); a pull-in whose PULLIN_US has elapsed counts as HOLD from that sample. -/
def setpoint (s : State) (g : Nat) : Nat :=
  ((groupCoils g).map fun t =>
    let c := coilOf s t
    match c.state with
    | .pullin => if (c.moved || c.suspended) && decide (2 * pullinUs s g < c.n) then holdDmv s g else peakDmv s g
    | .hold => holdDmv s g
    | _ => 0).sum

/-- One sample of a group's chopping (R180). -/
def chopSample (g code : Nat) (s : State) : State :=
  match (groupOf s g).chop with
  | none => s
  | some i =>
    let x := groupOf s g
    let n := chopSamples s g
    let hsg := (i = 0 || (x.hsg && !x.hsgOff)) && i + 1 ≠ n
    let off := decide (lebSamples s g ≤ i) && decide (thCode (setpoint s g) ≤ code)
    let was := if i = 0 then false else x.hsgOff
    modGroup g (fun x => { x with hsg := hsg, hsgOff := was || off, offWas := was, chop := some ((i + 1) % n) }) s

/-- A coil that enters PULLIN under a running grid raises the setpoint sum of the sample already taken (R179, R180). -/
def rechop (g code : Nat) (s : State) : State :=
  match (groupOf s g).chop with
  | none => s
  | some j =>
    let n := chopSamples s g
    let i := (j + n - 1) % n
    let off := decide (lebSamples s g ≤ i) && decide (thCode (setpoint s g) ≤ code)
    modGroup g (fun x => { x with hsgOff := x.offWas || off }) s

/-! ### Release and requests (R177, R187) -/

/-- A mask without the bit of a tile. -/
def clearTile (m : BitVec 64) (t : Nat) : BitVec 64 := m &&& ~~~(1#64 <<< t)

/-- The moves that satisfy p take a change. -/
def modMoves (p : MoveReq → Bool) (f : MoveReq → MoveReq) (s : State) : State :=
  { s with shut := { s.shut with moves := s.shut.moves.map fun m => if p m then f m else m } }

/-- Every request of a coil is withdrawn; a move no longer waits for it to be taken (R187). -/
def dropRequests (t : Nat) (s : State) : State :=
  modMoves (fun _ => true) (fun m => { m with waiting := clearTile m.waiting t })
    (modCoil t (fun c => { c with requests := [], closeAgain := false, retryAfter := false }) s)

/-- The result of a pull-in goes to the move that asked for it (R186, R321). -/
def noteMove (t res dip : Nat) (s : State) : State :=
  modMoves (fun m => (coilOf s t).move = some m.id)
    (fun m => { m with results := (t, res, dip) :: m.results.filter fun r => r.1 ≠ t }) s

/-- Begin a release; a pull-in under way ends with no result, or with NO_MOVE where that fault brings the release (R177,
R182, R188). -/
def beginRelease (t : Nat) (s : State) : State :=
  groupIdle (t / 4) (modCoil t (fun c => { c with
    state := .release, n := 0, lsg := false, releaseAfter := false,
    newResult := c.newResult || c.state = .pullin,
    result := if c.state ≠ .pullin then c.result else if c.releaseAfter && c.fault = 1#4 then 2 else 0 }) s)

/-- A coil is released and every request of it withdrawn (R187). -/
def releaseCoil (t : Nat) (s : State) : State :=
  let s := dropRequests t s
  match (coilOf s t).state with
  | .pullin | .hold => beginRelease t s
  | .wait | .gap => modCoil t (fun c => { c with state := .open }) s
  | _ => s

/-- Issue a request to a coil, after those already issued (R56, R177). -/
def requestCoil (t : Nat) (close : Bool) (s : State) : State :=
  modCoil t (fun c => { c with requests := c.requests ++ [{ close, move := none }] }) s

/-- A close request starts: RETRY counts from 0 (R177, R182). -/
def startWait (c : Coil) : Coil := { c with state := .wait, n := 0, retry := 0, deferred := false, closeAgain := false }

/-- A coil takes a request (R177); RETRY is 0 once a close request is taken (R182). -/
def takeRequest (t : Nat) (r : CoilReq) (s : State) : State :=
  let c := coilOf s t
  let s := modMoves (fun m => r.move = some m.id) (fun m => { m with waiting := clearTile m.waiting t })
    (modCoil t (fun c => { c with move := r.move, retry := if r.close && c.state ≠ .fault then 0 else c.retry }) s)
  match c.state, r.close with
  | .open, true => modCoil t startWait s
  | .release, close => modCoil t (fun c => { c with closeAgain := close, retryAfter := c.retryAfter && close }) s
  | .wait, false => modCoil t (fun c => { c with state := .open }) s
  | .gap, false => modCoil t (fun c => { c with state := .open, retryAfter := false }) s
  | .pullin, false => beginRelease t (modCoil t (fun c => { c with retryAfter := false }) s)
  | .hold, false => beginRelease t s
  | _, _ => s

/-- A coil takes its requests in the order of their commands (R56, R177). -/
def takeRequests (t : Nat) (s : State) : State :=
  forEach (coilOf s t).requests (takeRequest t) (modCoil t (fun c => { c with requests := [] }) s)

/-! ### Faults (R183, R184) -/

/-- Latch fault 1 or 4 on a coil on which none stands: counted, one FRAME-class error (R184). -/
def latchCoil (t code : Nat) (s : State) : State :=
  if (coilOf s t).fault ≠ 0 then s
  else raiseErr (mkErr 1 0x18 t code 0) (modCoil t (fun c => { c with
    fault := BitVec.ofNat 4 code, faultCnt := satInc c.faultCnt, lifeFaults := satInc c.lifeFaults }) s)

/-- A further fault on a coil: counted, and the code shown is that of the first that stands (R184; log entry 148). -/
def countFault (code : Nat) (c : Coil) : Coil :=
  { c with fault := if c.fault = 0 then BitVec.ofNat 4 code else c.fault, faultCnt := satInc c.faultCnt,
           lifeFaults := satInc c.lifeFaults }

/-- A group fault: it counts once on each of the four coils, whatever stands on them, and they go to FAULT at the next
sample (R183, R184). Until it is cleared it is not latched again. -/
def groupFault (g code : Nat) (s : State) : State :=
  forEach (groupCoils g) (fun t s =>
    if (coilOf s t).groupLatched then s
    else raiseErr (mkErr 1 0x18 t code 0) (modCoil t (fun c =>
      { countFault code c with groupLatched := true, faultAfter := decide (c.state ≠ .fault) }) s)) s

/-- The image did not confirm the shutter's position: the fault is counted, and the error is that of R164; after fault 6
the coil is in FAULT from the next sample (R183, R184). -/
def imageFault (t code : Nat) (s : State) : State :=
  modCoil t (fun c => { countFault code c with faultAfter := c.faultAfter || (code = 6 && c.state ≠ .fault) }) s

/-! ### SHUTTER_MOVE (R186, R321) -/

/-- The coil has taken the request of the move and has reached HOLD, OPEN or FAULT. In replay a named coil is judged by
its recorded byte (R69). -/
def moveSettled (s : State) (m : MoveReq) (t : Nat) : Bool :=
  !m.waiting.getLsbD t && match sideOf s with
  | some _ => shutState s t % 8 = 0 || shutState s t % 8 = 3 || shutState s t % 8 = 6
  | none =>
    let x := (coilOf s t).state
    x = .hold || x = .open || x = .fault

/-- The record of a tile: the final state, and the result, retries and DIP_T of its pull-in, 0 where it has none (R321). -/
def moveRecord (s : State) (m : MoveReq) (t : Nat) : List Word :=
  let retry := match sideOf s with
    | some l => bits (sideU8 l (0x40 + 32 * t + 29)) 4 2
    | none => (coilOf s t).retry.toNat
  let (res, dip) := match m.results.find? fun r => r.1 = t with | some r => r.2 | none => (0, 0)
  [fields [(t, 0), (shutState s t % 8, 8), (res, 11), (if m.close then retry else 0, 13)], word dip]

/-- Reply to every SHUTTER_MOVE whose coils have reached HOLD, OPEN or FAULT (R186). -/
def moveReplies (s : State) : State :=
  let done (s : State) (m : MoveReq) : Bool := (maskList m.mask).all (moveSettled s m)
  forEach (s.shut.moves.filter (done s)) (fun m s =>
      replyParts m.hdr 0x31 stOk ((chunks 64 29 ((maskList m.mask).map (moveRecord s m))).map fun l =>
        word l.length :: l.flatten) s)
    { s with shut := { s.shut with moves := s.shut.moves.filter fun m => !done s m } }

/-- At a tick in replay a move of an earlier tick has been taken, and a pull-in that the recorded dip byte shows ended is
its own (R69, R188). The side record holds no DIP_T: it is free (log entry 10). -/
def replayMoves (s : State) : State :=
  match sideOf s with
  | none => s
  | some l =>
    let note (t : Nat) (s : State) : State :=
      let b := sideU8 l (0x40 + 32 * t + 29)
      if b.testBit 5 && b % 4 ≠ 0 then
        let dip := if b % 4 = 1 then (Config.word s.free).toNat % 2 ^ 20 else 0
        modMoves (fun m => m.mask.getLsbD t)
          (fun m => { m with results := (t, b % 4, dip) :: m.results.filter fun r => r.1 ≠ t }) { s with free := s.free + 1 }
      else s
    moveReplies (forEach (List.range 64) note (modMoves (fun _ => true) (fun m => { m with waiting := 0 }) s))

/-- SHUTTER_MOVE at its tick (R186). -/
def shutterMove (h : Hdr) (mask : BitVec 64) (close : Bool) (s : State) : State :=
  runAtTick h 0x31 (fun s =>
    let ts := maskList mask
    if !s.cfg.hasActive || ts.any fun t => !((tileOf s t).port.state = .ready || (tileOf s t).port.state = .imaging) then
      reply h 0x31 stNotReady [] s
    else if ts.any fun t => (tileOf s t).cal.phase ≠ .idle || shutterFault s t ≠ 0 || !coilEn s t then
      reply h 0x31 stRefused [] s
    else
      let id := s.shut.nextMove
      let s := forEach ts (fun t => modCoil t fun c => { c with requests := c.requests ++ [{ close, move := some id }] }) s
      { s with shut := { s.shut with
        nextMove := id + 1, moves := s.shut.moves ++ [{ id, hdr := h, mask, close, waiting := mask, results := [] }] } }) s

/-! ### One sample of the grid (R174, R177 to R183) -/

/-- The dip test of R181 on one code. -/
def dipStep (s : State) (g : Nat) (c : Coil) (code : Nat) : Coil × Bool :=
  let len := filtLen s g
  let codes := (code :: c.codes).take len
  let c' := { c with codes := codes, n := c.n + 1 }
  if c.n + 1 < len || c.n < 2 * dipStartUs s g || 2 * dipEndUs s g < c.n || 2 * pullinUs s g ≤ c.n then (c', false)
  else
    let f := (rndDiv (codes.sum : Nat) len).toNat
    let m := match c.fmax with | none => f | some x => max x f
    ({ c' with fmax := some m, filt := BitVec.ofNat 12 f }, decide (thCode (dipDmv s g) ≤ m - f))

/-- A coil's own part of a sample: the pull-in tests, or the time of its release or gap (R181, R182). -/
def coilSample (t code : Nat) (s : State) : State :=
  let c := coilOf s t
  let g := t / 4
  match c.state with
  | .pullin =>
    let opened := c.opened || (decide (c.n < 2 * openUs s g) && decide (thCode (openDmv s g) ≤ code))
    if c.suspended then modCoil t (fun c => { c with n := c.n + 1 }) s
    else if c.moved then modCoil t (fun c => { c with n := c.n + 1, opened := opened }) s
    else
      let (c', dip) := dipStep s g c code
      if dip then
        noteMove t 1 c.n (modCoil t (fun _ => { c' with
          opened := opened, moved := true, dipT := BitVec.ofNat 20 c.n, filt := 0,
          actCnt := satInc c.actCnt, lifeAct := satInc c.lifeAct }) s)
      else modCoil t (fun _ => { c' with opened := opened }) s
  | .release | .gap => modCoil t (fun c => { c with n := c.n + 1 }) s
  | _ => s

/-- The group lets a WAIT coil start (R178). -/
def groupAllows (s : State) (t : Nat) : Bool :=
  let cs := (otherCoils t).map (coilOf s)
  !(cs.any fun c => c.state = .pullin || c.state = .release)
    && (!(cs.any energised) || ((cs.filter energised).all (fun c => c.state = .hold) && overlapPermit s (t / 4)))
/-- The limits over the whole device let a coil start (R178). -/
def deviceAllows (s : State) : Bool :=
  decide (((List.range 64).filter fun t => (coilOf s t).state = .pullin).length < pullinMax s)
    && (match s.shut.lastPullin with | none => true | some i => decide (i + 2 * staggerUs s ≤ s.shut.sample))

/-- What a fault latched before this sample brings at it: FAULT with no release time, or the release (R183). -/
def faultCoils (t : Nat) (s : State) : State :=
  let c := coilOf s t
  if c.faultAfter then
    groupIdle (t / 4) (modCoil t (fun c => { c with
      state := .fault, faultAfter := false, releaseAfter := false, lsg := false,
      newResult := c.newResult || c.state = .pullin,
      result := if c.state = .pullin then 0 else c.result }) (dropRequests t s))
  else if c.releaseAfter then
    (if energised c then beginRelease t s else modCoil t (fun c => { c with releaseAfter := false }) s)
  else s

/-- A code shows overcurrent at a sample of the chopping period (R183). -/
def overCurrent (s : State) (g code : Nat) : Option Nat → Bool
  | some i => decide (lebSamples s g ≤ i) && decide (thCode (ocDmv s g) ≤ code)
  | none => false

/-- One code of a group: chopping, overcurrent and saturation of the sense (R180, R183). In replay the coils are not
driven, and faults are those of the side record (R69, R188). -/
def groupSample (g code : Nat) (s : State) : State :=
  let x := groupOf s g
  let ovc := overCurrent s g code x.chop
  let run := if code = 4095 then x.fullRun + 1 else 0
  let s := chopSample g code s
  let s := modGroup g (fun x => { x with raw := BitVec.ofNat 12 code, fullRun := run }) s
  if s.tick.replaying then s
  else
    let s := if ovc then groupFault g 2 s else s
    if 4 ≤ run then groupFault g 3 s else s

/-- A WAIT coil may enter PULLIN: no lower-numbered WAIT coil could (R178). -/
def mayStart (s : State) (t : Nat) : Bool :=
  (coilOf s t).state = .wait && groupAllows s t && deviceAllows s && !s.tick.replaying
    && !((List.range t).any fun u => (coilOf s u).state = .wait && groupAllows s u)

/-- A coil enters PULLIN: its LSG goes high if COIL_EN lets it, and an overlapping newcomer is suspended (R173, R176, R178
to R183). The sample at which the HSG turns on is sample 0 of the grid. -/
def startPullin (t : Nat) (s : State) : State :=
  let g := t / 4
  let susp := (otherCoils t).any fun u => (coilOf s u).state = .hold
  let raw := (groupOf s g).raw.toNat
  let running := (groupOf s g).chop.isSome
  let s := modCoil t (fun c => { c with
    state := .pullin, n := 0, suspended := susp, moved := false, opened := false, codes := [], fmax := none, filt := 0,
    retryAfter := false, releaseAfter := false, lsg := coilEn s t, actCnt := if susp then satInc c.actCnt else c.actCnt,
    lifeAct := if susp then satInc c.lifeAct else c.lifeAct }) s
  let s := if susp then noteMove t 3 0 s else s
  let s := { s with shut := { s.shut with lastPullin := some s.shut.sample } }
  let s := coilSample t raw s
  if running then rechop g raw s
  else
    let s := chopSample g raw (modGroup g (fun x => { x with hsg := true, hsgOff := false, offWas := false, chop := some 0 }) s)
    if overCurrent s g raw (some 0) then groupFault g 2 s else s

/-- The WAIT coils that a sample leaves held back only by their own group, each judged in ascending order after the starts
of the coils before it (R178). The starts themselves are PULLIN_START's. -/
def deferredCoils (s : State) : List Nat :=
  ((List.range 64).foldl (fun (x : State × List Nat) t =>
    let (s, l) := x
    let c := coilOf s t
    if c.state ≠ .wait || s.tick.replaying || !deviceAllows s then (s, l)
    else if groupAllows s t then (startPullin t s, l)
    else (s, if c.deferred then l else t :: l)) (s, [])).2

/-- They are counted, once a request (R178). -/
def countDefers (s : State) : State :=
  forEach (deferredCoils s) (fun t s =>
    modCoil t (fun c => { c with deferred := true }) { s with shut := { s.shut with deferCnt := satInc s.shut.deferCnt } }) s

/-- One instant of the sample grid. In replay the coils are not driven (R69). -/
def senseSample (codes : List (BitVec 12)) (s : State) : State :=
  let code (g : Nat) : Nat := (codes.getD g 0).toNat
  let s := { s with shut := { s.shut with sample := s.shut.sample + 1 } }
  let s0 := s
  let s := forEach (List.range 64) faultCoils s
  let taking := decide (s.clock.lastTick + 1000 ≤ s.clock.now)
  let take (t : Nat) (s : State) : State :=
    if s.tick.replaying then modCoil t (fun c => { c with requests := [] }) s else takeRequests t s
  let s' := if taking then forEach (List.range 64) take s else s
  let s := forEach ((List.range 64).filter fun t => (coilOf s' t).state = (coilOf s0 t).state)
    (fun t => coilSample t (code (t / 4))) s'
  let s := forEach (List.range 16) (fun g => groupSample g (code g)) s
  moveReplies (countDefers s)

/-! ### The commands and events of this chapter -/

/-- SENSE_SAMPLE (R174, R177, R178, R180 to R183). -/
def execSenseSample (codes : List (BitVec 12)) (s : State) : Host.Outcome State Fault Refusal :=
  .next (senseSample codes s)

/-- PULLIN_START (R178, R179). -/
def execPullinStart (t : Fin 64) (s : State) : Host.Outcome State Fault Refusal :=
  .next (if mayStart s t then startPullin t s else s)

/-- PULLIN_END (R182): PULLIN_US has elapsed, and a moved or suspended coil enters HOLD. -/
def execPullinEnd (t : Fin 64) (s : State) : Host.Outcome State Fault Refusal :=
  .next (let c := coilOf s t
    if c.state = .pullin && (c.moved || c.suspended) && decide (2 * pullinUs s (t.val / 4) < c.n) then
      moveReplies (modCoil t (fun c => { c with
        state := .hold, n := 0, newResult := true, result := if c.suspended then 3 else 1 }) s)
    else s)

/-- OPEN_COIL (R181 to R183): no code reached the threshold within OPEN_US; at the next sample the coil is released, to
FAULT. -/
def execOpenCoil (t : Fin 64) (s : State) : Host.Outcome State Fault Refusal :=
  .next (let c := coilOf s t
    if c.state = .pullin && !c.suspended && !c.opened && !c.releaseAfter && decide (2 * openUs s (t.val / 4) < c.n) then
      modCoil t (fun c => { c with retryAfter := false, moved := false, releaseAfter := true }) (latchCoil t 4 s)
    else s)

/-- NO_MOVE (R182, R183): the dip window ends without movement; the coil is released to retry, or with no retries left a
fault stands and the release, to FAULT, begins at the next sample. -/
def execNoMove (t : Fin 64) (s : State) : Host.Outcome State Fault Refusal :=
  .next (let c := coilOf s t
    let g := t.val / 4
    if c.state = .pullin && !c.suspended && !c.moved && !c.releaseAfter
        && decide (min (2 * dipEndUs s g + 1) (2 * pullinUs s g) < c.n) then
      if c.retry.toNat < shutRetries s g then
        modCoil t (fun c => { c with retryAfter := true, retry := satInc c.retry, retryCnt := satInc c.retryCnt,
                                     lifeRetries := satInc c.lifeRetries, result := 2, newResult := true })
          (noteMove t 2 0 (beginRelease t s))
      else modCoil t (fun c => { c with retryAfter := false, releaseAfter := true })
        (noteMove t 2 0 (latchCoil t 1 s))
    else s)

/-- RELEASE_END (R177, R182): the coil is FAULT if a fault stands, waits for its retry, or is OPEN; a close request that
came during the release is taken again. -/
def execReleaseEnd (t : Fin 64) (s : State) : Host.Outcome State Fault Refusal :=
  .next (let c := coilOf s t
    if c.state = .release && decide (2 * releaseUs s (t.val / 4) ≤ c.n) then
      moveReplies (modCoil t (fun c =>
        if c.fault ≠ 0 then { c with state := .fault, n := 0, closeAgain := false, retryAfter := false }
        else if c.retryAfter then { c with state := .gap, n := 0, closeAgain := false }
        else if c.closeAgain then startWait c
        else { c with state := .open, n := 0 }) s)
    else s)

/-- GAP_END (R182): the coil waits again. -/
def execGapEnd (t : Fin 64) (s : State) : Host.Outcome State Fault Refusal :=
  .next (let c := coilOf s t
    if c.state = .gap && decide (2 * retryGapUs s (t.val / 4) ≤ c.n) then
      modCoil t (fun c => { c with state := .wait, n := 0, retryAfter := false }) s
    else s)

/-- SHUT_FAULT_CLR (R185, R189): the faults named are cleared at the next tick, one latched between the write and that
tick among them (DESIGN CHOICE, log entry 147). -/
def shutFaultClr (hi : Bool) (mask : Word) (s : State) : State :=
  forEach (maskList mask) (fun i => modCoil (i + if hi then 32 else 0) fun c => { c with clearNext := true }) s

/-- SHUT_FAULT_CLR (R185). -/
def execShutFaultClr (hi : Bool) (mask : Word) (s : State) : Host.Outcome State Fault Refusal :=
  .next (shutFaultClr hi mask s)

/-- SHUTTER_MOVE (R186). -/
def execShutterMove (h : Hdr) (mask : BitVec 64) (close : Bool) (s : State) : Host.Outcome State Fault Refusal :=
  .next (shutterMove h mask close s)

/-! ### At a tick (R185, R188) -/

/-- The bytes of R188 are formed, and the faults named by SHUT_FAULT_CLR are cleared (R185). -/
def coilTick (t : Nat) (s : State) : State :=
  groupIdle (t / 4) (modCoil t (fun c =>
    let c := if !c.clearNext then c
      else if c.fault = 0 then { c with clearNext := false }
      else { c with fault := 0, clearNext := false, groupLatched := false, faultAfter := false, releaseAfter := false,
                    lsg := false, state := .open, n := 0 }
    { c with stateByte := stateByteOf c, dipByte := dipByteOf c, newResult := false }) s)

end Sys2Proof.Machine
end

