-- ==== Sys2Proof/Machine/Cal.lean ====
section
/-! DEFINITION. Drift correction and flat-field calibration (06): the drift terms, the phases of a calibration, abandonment,
due tiles and rotation, SHUTTER_CAL and BLEND_SET. -/
namespace Sys2Proof.Machine

/-! ### The rotation record (R155) -/

def calPeriodS (s : State) : Nat := activeWord s 4 0x00
def calDt (s : State) : Nat := activeHalf s 4 0x04
def setK (s : State) : Nat := activeByte s 4 0x07
def closeSettle (s : State) : Nat := activeByte s 4 0x08
def openSettle (s : State) : Nat := activeByte s 4 0x09
def closeExtra (s : State) : Nat := activeByte s 4 0x0A
def openExtra (s : State) : Nat := activeByte s 4 0x0B
def maxConc (s : State) : Nat := activeByte s 4 0x0C
def calAtStart (s : State) : Bool := (activeByte s 4 0x0D).testBit 0
def poisonMax (s : State) : Nat := activeHalf s 4 0x0E
def closeVar (s : State) : Nat := activeWord s 4 0x10
def openVar (s : State) : Nat := activeWord s 4 0x14
def adjacent (s : State) (t u : Nat) : Bool := (activeLong s 4 (0x40 + 8 * t)).testBit u

/-! ### Drift terms (R151) -/

/-- The substrate temperature in force for the tile's frame (R69, R126). -/
def tSub (s : State) (t : Nat) : Nat :=
  match sideOf s with
  | some l => sideU32 l (0x40 + 32 * t + 16)
  | none => (tileOf s t).rdo.tSub.toNat

/-- The substrate reading in force is stale: in replay as the recorded status byte shows it (R69, R166; log entry 146). -/
def subStaleNow (s : State) (t : Nat) : Bool :=
  match sideOf s with
  | some l => (sideU8 l (0x40 + 32 * t + 31)).testBit 5
  | none => (tileOf s t).rdo.subStale

/-- ΔT and H_t of the tile for the frame (R151). -/
def driftTerms (t : Nat) (s : State) : State :=
  let dt : Int := (tSub s t : Int) - calWord s t 0x00
  let hc := toSigned 32 (calWord s t 0x08)
  let ht := if housSlot s t = 0xFF then 0
    else clamp (rndShr (hc * ((slotValue s (housSlot s t) : Int) - calWord s t 0x04)) 16) (-8388608) 8388607
  modLane t (fun l => { l with dt := BitVec.ofInt 32 dt, housing := BitVec.ofInt 32 ht }) s

/-! ### The keeping-store record of a completed calibration (R170, R407) -/

def calRecord (s : State) (t : Nat) : List Byte :=
  let c := (tileOf s t).cal
  leBytes 4 (vget s.keep.calCount t 0).toNat ++ leBytes 4 (vget s.keep.calAband t 0).toNat ++ leBytes 4 c.computeSfn.toNat
    ++ leBytes 4 (match activeSet s with | some b => Bank.setId b | none => 0) ++ leBytes 8 c.computeTime.toNat
    ++ leBytes 4 c.tcal.toNat ++ leInt 4 c.curLevel ++ leBytes 4 c.curSpread ++ leBytes 4 c.curVarC.toNat
    ++ leBytes 4 c.curVarO.toNat ++ leBytes 4 c.poisoned ++ List.replicate 184 0

/-! ### SHUTTER_CAL replies (R168, R321) -/

def calRec (s : State) (t cause : Nat) (started : Bool) (last : Sfn) : List Word :=
  let c := (tileOf s t).cal
  if !started then fields [(t, 0), (cause, 8)] :: List.replicate 7 0
  else [fields [(t, 0), (cause, 8)], c.firstHeld, last,
    if c.computed then BitVec.ofInt 32 c.curLevel else 0, if c.computed then satNat 32 c.curSpread else 0,
    c.curVarC, c.curVarO, satNat 32 c.poisoned]

/-- A named tile is IDLE again: its record is added to the requests that wait for it, and those complete are answered. -/
def calAnswer (t : Nat) (rec : List Word) (s : State) : State :=
  let rs := s.calReqs.map fun r =>
    if r.awaited.getLsbD t then { r with awaited := clrBit r.awaited t, records := r.records ++ [(t, rec)] } else r
  let s := { s with calReqs := rs.filter fun r => r.awaited ≠ 0 }
  forEach (rs.filter fun r => r.awaited = 0) (fun r s =>
    let recs := (List.range 64).filterMap fun u => (r.records.find? fun p => p.1 = u).map fun p => p.2
    replyParts r.hdr 0x30 stOk ((chunks 64 7 recs).map fun l => word l.length :: l.flatten) s) s

/-! ### Ends of a calibration (R162, R164, R165) -/

/-- F_CAL frames under the active period (R40, R166). -/
def fCal (s : State) : Nat := if setPeriod s = 0 then 0 else ceilDiv (calPeriodS s * 1000000000) (setPeriod s)

def setDue (t : Nat) (s : State) : State :=
  modCal t (fun c => { c with dueSfn := sfnAdd c.lastSfn (fCal s) }) s

/-- A calibration completes, in full (cause 0) or early (R162, R164): the regions exchange roles and the record is kept. -/
def calComplete (t cause : Nat) (last : Sfn) (s : State) : State :=
  let s := modTile t (fun x => { x with
    lane := { x.lane with o := x.cal.target },
    cal := { x.cal with target := x.lane.o, phase := .idle, index := 0, abandoning := false,
                        lastCause := BitVec.ofNat 4 cause, tcal := x.cal.tcalHeld, tcalSet := true, doneSince := true,
                        ended := true, holdoff := false, doneCnt := satInc x.cal.doneCnt, lastSfn := last,
                        due := false } }) s
  let s := modKeep (fun k => { k with calCount := vmod k.calCount t satInc }) s
  calAnswer t (calRec s t cause true last) (setDue t (keepOwn t (calRecord s t) s))

/-- An abandonment is counted when it is decided; a calibration that has one already is not counted again (R164, R171). -/
def countAbandon (t : Nat) (s : State) : State :=
  if (tileOf s t).cal.abandoning then s
  else
    modKeep (fun k => { k with calAband := vmod k.calAband t satInc })
      (modCal t (fun c => { c with abandonSeen := true, abandCnt := satInc c.abandCnt }) s)

/-- A calibration ends abandoned: the tile is IDLE and reads its O region (R164, R165). -/
def calAbandoned (t cause : Nat) (last : Sfn) (s : State) : State :=
  let s := modCal t (fun c => { c with
    phase := .idle, index := 0, abandoning := false, lastCause := BitVec.ofNat 4 cause, ended := true,
    holdoff := true, lastSfn := last, due := false }) (countAbandon t s)
  calAnswer t (calRec s t cause true last) (setDue t s)

/-- An abandonment from CLOSE, ACCUM or COMPUTE: the OPEN phase with the O region, and the open stroke unless it is already
commanded (R165). -/
def calToOpen (t cause : Nat) (s : State) : State :=
  let was := (tileOf s t).cal.phase
  let s := modCal t (fun c => { c with phase := .open, index := 0, abandoning := true, causeNext := BitVec.ofNat 4 cause })
    (countAbandon t s)
  if was = .compute then s else requestCoil t false s

def prevSfn (a : Sfn) : Sfn := if a = 0 then 0xFFFFFFFE#32 else a - 1

/-- The tile leaves IMAGING (cause 8) or the device freezes (cause 9) (R165). An OPEN phase that follows an abandonment
keeps its first cause: DESIGN CHOICE, log entry 143. -/
def calLeave (t cause : Nat) (s : State) : State :=
  let c := (tileOf s t).cal
  let s := if c.requested then
      calAnswer t (calRec s t 8 false 0) (modCal t (fun c => { c with requested := false }) s) else s
  match c.phase with
  | .idle => s
  | .traverse => calComplete t cause s.tick.sfn s
  | _ => calAbandoned t (if c.abandoning then c.causeNext.toNat else cause) (prevSfn s.tick.sfn) (requestCoil t false s)

/-- A swap changes what the calibration rests on (cause 7, R164, R165). An OPEN phase that follows an abandonment keeps its
first cause: DESIGN CHOICE, log entry 143. -/
def calSwap (t : Nat) (s : State) : State :=
  let c := (tileOf s t).cal
  match c.phase with
  | .idle => s
  | .close | .accum | .compute => calToOpen t 7 s
  | .open => calAbandoned t (if c.abandoning then c.causeNext.toNat else 7) (prevSfn s.tick.sfn) s
  | .traverse => calComplete t 7 s.tick.sfn s

/-! ### The decision at the tick after a frame (R157 to R160, R164, R165) -/

/-- What the flat-field unit decides at a tick from the frame before it. -/
inductive CalMove where
  | stay | accum | compute | open | traverse | finish
  | abandon (cause : Nat)
  | openUnconfirmed
  /-- The OPEN phase after an abandonment ends; the flag says its test failed. -/
  | idleAfter (failed : Bool)
  deriving DecidableEq, Repr

/-- A drive fault on the tile's coil, 1 to 4 of R184. -/
def driveFault (s : State) (t : Nat) : Bool := 1 ≤ shutterFault s t && shutterFault s t ≤ 4

/-- The tests and figures of the frame just finished decide the change of phase (R157, R158, R164). A drive fault in an
OPEN phase that follows an abandonment does not end it: DESIGN CHOICE, log entry 142. -/
def calMove (s : State) (t : Nat) : CalMove :=
  let c := (tileOf s t).cal
  let fault := c.faultHeld || driveFault s t
  let bad := c.frameLos || c.frameOvr
  let openOk := !bad && (openVar s = 0 || openVar s ≤ c.frameVar.toNat)
  if !c.frameDone then .stay
  else match c.phase with
  | .idle => .stay
  | .close =>
    if fault then .abandon 3
    else if closeSettle s ≤ c.index + 1 && c.frameVar.toNat ≤ closeVar s && !bad then .accum
    else if closeSettle s + closeExtra s ≤ c.index + 1 then .abandon 1
    else .stay
  | .accum =>
    if fault then .abandon 3
    else if c.frameLos then .abandon 4
    else if c.frameOvr then .abandon 5
    else if nAvg s ≤ c.index + 1 then (if c.poisoned ≤ poisonMax s then .compute else .abandon 6)
    else .stay
  | .compute => if fault then .abandon 3 else if c.frameLos then .abandon 4 else if c.frameOvr then .abandon 5 else .open
  | .open =>
    if c.abandoning then
      if openSettle s ≤ c.index + 1 && openOk then .idleAfter false
      else if openSettle s + openExtra s ≤ c.index + 1 then .idleAfter true
      else .stay
    else if fault then .abandon 3
    else if openSettle s ≤ c.index + 1 && openOk then .traverse
    else if openSettle s + openExtra s ≤ c.index + 1 then .openUnconfirmed
    else .stay
  | .traverse => if c.kUsed ≤ c.index + 1 then .finish else .stay

/-- L and SPREAD of R160 (an L of ANCHOR outside s32 is used in full and shown mod 2^32: DESIGN CHOICE, log entry 144),
the latched T_CAL, and the registers of the last calibration that reached COMPUTE (R171). -/
def enterCompute (t : Nat) (s : State) : State :=
  let tf := rndDiv ((tileOf s t).cal.stf : Nat) (nAvg s)
  let anchor := rndShr (toSigned 32 (calWord s t 0x0C) * (tf - calWord s t 0x10)) 16
  let s := modCal t (fun c =>
    let l := if anchorMode s t then anchor else rndDiv c.sv0 c.n0
    let sp := (c.max0 - c.min0).toNat
    { c with phase := .compute, index := 0, curLevel := l, curSpread := sp, computed := true,
             tcalHeld := BitVec.ofNat 32 (tSub s t), computeSfn := s.tick.sfn, computeTime := s.clock.devTime,
             varC := c.curVarC, spread := satNat 32 sp, level := BitVec.ofInt 32 l, poison := satNat 20 c.poisoned }) s
  requestCoil t false s

/-- Apply a decision; the errors it raises (R164). -/
def applyMove (t : Nat) (m : CalMove) (s : State) : State × List ErrRec :=
  let c := (tileOf s t).cal
  let last := prevSfn s.tick.sfn
  let s := modCal t (fun c => { c with
    frameDone := false, faultHeld := false,
    curVarC := if c.phase = .close then c.frameVar else c.curVarC,
    curVarO := if c.phase = .open then c.frameVar else c.curVarO,
    varO := if c.phase = .open && c.computed then c.frameVar else c.varO }) s
  match m with
  | .stay => (if c.phase = .idle then s else modCal t (fun c => { c with index := c.index + 1 }) s, [])
  | .accum => (modCal t (fun c => { c with phase := .accum, index := 0 }) s, [])
  | .compute => (enterCompute t s, [])
  | .open => (modCal t (fun c => { c with phase := .open, index := 0 }) s, [])
  | .traverse => (modCal t (fun c => { c with phase := .traverse, index := 0, kUsed := c.k.toNat }) s, [])
  | .finish => (calComplete t 0 last s, [])
  | .openUnconfirmed => (calAbandoned t 2 last (imageFault t 6 s), [mkErr 1 0x18 t 6 0])
  | .idleAfter failed =>
    if failed then (calAbandoned t c.causeNext.toNat last (imageFault t 6 s), [mkErr 1 0x18 t 6 0])
    else (calAbandoned t c.causeNext.toNat last s, [])
  | .abandon cause =>
    if c.phase = .open then (calAbandoned t cause last s, [])
    else if cause = 1 then
      let waiting := (coilOf s t).state = .wait
      let s := if waiting then s else imageFault t 5 s
      (calToOpen t 1 s, [mkErr 1 0x18 t 5 0])
    else if cause = 6 then (calToOpen t 6 s, [mkErr 2 0x2A t 0 (satNat 32 c.poisoned)])
    else (calToOpen t cause s, [])

/-- Decide and apply, raising the errors at once: one event of its own. -/
def moveNow (t : Nat) (m : CalMove) (s : State) : State :=
  if calMove s t = m then (let (s, es) := applyMove t m s; raiseErrs es s) else s

/-! ### Due tiles and rotation (R166, R167) -/

/-- Conditions 2 and 3 are held off after an abandoned calibration (R166). -/
def heldOff (s : State) (t : Nat) : Bool :=
  let c := (tileOf s t).cal
  c.holdoff && decide (sfnDiff s.tick.sfn c.lastSfn ≤ 256)

/-- Condition 1 of R166: frame k is not earlier than DUE_SFN. -/
def duePeriod (s : State) (t : Nat) : Bool :=
  decide (calPeriodS s ≠ 0) && !(sfnBefore s.tick.sfn (tileOf s t).cal.dueSfn)
/-- Condition 2. -/
def dueTemp (s : State) (t : Nat) : Bool :=
  let x := tileOf s t
  decide (calDt s ≠ 0) && x.cal.tcalSet && !subStaleNow s t
    && decide (calDt s < ((tSub s t : Int) - x.cal.tcal.toNat).natAbs)
/-- Condition 3. -/
def dueStart (s : State) (t : Nat) : Bool := calAtStart s && !(tileOf s t).cal.doneSince

/-- A tile in IDLE becomes due, or ceases to be (R166). -/
def evalDue (t : Nat) (s : State) : State :=
  let c := (tileOf s t).cal
  let imaging := (tileOf s t).port.state = .imaging
  let due := imaging && c.phase = .idle && (duePeriod s t || (!heldOff s t && (dueTemp s t || dueStart s t)))
  modCal t (fun c => { c with due := due, dueAt := if c.due then c.dueAt else s.tick.sfn,
                              holdoff := heldOff s t }) s

/-- The first frame read since the port entered IMAGING, and T_CAL before any calibration (R166). -/
def firstReadings (t : Nat) (s : State) : State :=
  let x := tileOf s t
  let s := if x.port.firstFrame && !x.cal.ended then setDue t (modCal t (fun c => { c with lastSfn := s.tick.sfn }) s) else s
  if !x.cal.tcalSet && !subStaleNow s t then
    modCal t (fun c => { c with tcal := BitVec.ofNat 32 (tSub s t), tcalSet := true }) s
  else s

def busyTiles (s : State) : List Nat := (List.range 64).filter fun t => (tileOf s t).cal.phase ≠ .idle

/-- The conditions under which a candidate starts (R167). -/
def calCanStart (s : State) (t : Nat) : Bool :=
  (tileOf s t).port.state = .imaging && (tileOf s t).cal.phase = .idle && shutterOpen s t
    && decide ((busyTiles s).length < maxConc s)
    && !((busyTiles s).any fun u => u / 4 = t / 4 || adjacent s t u)

/-- The lowest accumulator slot that no calibration holds (R165, R167). -/
def freeSlot (s : State) : Nat :=
  ((List.range 4).find? fun i => !((busyTiles s).any fun u =>
    (tileOf s u).cal.slot = i && !(tileOf s u).cal.abandoning)).getD 0

/-- Start a calibration with this frame as its first HELD frame (R157, R167, R186). -/
def calStart (t : Nat) (s : State) : State :=
  let slot := freeSlot s
  requestCoil t true (modCal t (fun c => { c with
    phase := .close, index := 0, slot, due := false, requested := false, abandoning := false, causeNext := 0,
    n0 := 0, sv0 := 0, max0 := 0, min0 := 0, stf := 0, poisoned := 0, curLevel := 0, curSpread := 0, curVarC := 0,
    curVarO := 0, computed := false, firstHeld := s.tick.sfn, frameDone := false }) s)

/-- Start a candidate when it may (R167). -/
def calTry (t : Nat) (s : State) : State := if calCanStart s t then calStart t s else s

/-- The order of due tiles: by DUE_SFN, or the frame at which they fell due, then ascending t (R167). -/
def dueKey (s : State) (t : Nat) : Sfn := if duePeriod s t then (tileOf s t).cal.dueSfn else (tileOf s t).cal.dueAt
def insertDue (s : State) (t : Nat) : List Nat → List Nat
  | [] => [t]
  | u :: r => if sfnBefore (dueKey s t) (dueKey s u) then t :: u :: r else u :: insertDue s t r

/-- The candidates of a tick in the order of R167: requested tiles in acceptance order of their SHUTTER_CAL, those of one
mask by ascending t (DESIGN CHOICE, log entry 145). -/
def candidates (s : State) : List Nat :=
  let asked := (s.calReqs.flatMap fun r => maskList r.awaited).filter fun t => (tileOf s t).cal.requested
  let due := (List.range 64).filter fun t => (tileOf s t).cal.due && calEn s t && !(tileOf s t).cal.requested
  asked ++ due.foldl (fun l t => insertDue s t l) []

/-- The rotation at a tick, after its commands (R167). -/
def rotate (s : State) : State := forEach (candidates s) calTry s

/-! ### Commands (R168) -/

/-- SHUTTER_CALs under way stand in acceptance order (R56, R167). -/
def insertReq (q : CalReq) : List CalReq → List CalReq
  | [] => [q]
  | x :: r => if q.acc < x.acc then q :: x :: r else x :: insertReq q r

/-- SHUTTER_CAL at its tick. -/
def shutterCal (h : Hdr) (mask : BitVec 64) (s : State) : State :=
  runAtTick h 0x30 (fun s =>
    let ts := maskList mask
    if !s.cfg.hasActive || ts.any fun t => !tileImaging s t then reply h 0x30 stNotReady [] s
    else if ts.any fun t => shutterFault s t ≠ 0 then reply h 0x30 stRefused [] s
    else
      let s := forEach ts (fun t => modCal t fun c => { c with requested := c.requested || c.phase = .idle }) s
      let r : CalReq := { hdr := h, acc := s.tick.accNow.getD s.tick.accNext, awaited := mask, records := [] }
      { s with calReqs := insertReq r s.calReqs }) s

/-- BLEND_SET at its tick: a Traverse that begins at this tick takes the new K. -/
def blendSet (h : Hdr) (mask : BitVec 64) (k : Word) (s : State) : State :=
  runAtTick h 0x34 (fun s =>
    if !s.cfg.hasActive then reply h 0x34 stNotReady [] s
    else if k.toNat < 1 || 64 < k.toNat then reply h 0x34 stBadParam [] s
    else reply h 0x34 stOk [] (forEach (maskList mask) (fun t => modCal t fun c =>
      { c with k := BitVec.ofNat 7 k.toNat, kUsed := if c.phase = .traverse && c.index = 0 then k.toNat else c.kUsed }) s)) s

/-! ### The commands and events of this chapter -/

/-- SHUTTER_CAL (R168). -/
def execShutterCal (h : Hdr) (mask : BitVec 64) (s : State) : Host.Outcome State Fault Refusal := .next (shutterCal h mask s)

/-- BLEND_SET (R168). -/
def execBlendSet (h : Hdr) (mask : BitVec 64) (k : Word) (s : State) : Host.Outcome State Fault Refusal :=
  .next (blendSet h mask k s)

/-- CAL_DUE (R166): DUE_SFN is reached. -/
def execCalDue (t : Fin 64) (s : State) : Host.Outcome State Fault Refusal :=
  .next (if duePeriod s t && (tileOf s t).port.state = .imaging && (tileOf s t).cal.phase = .idle then
      modCal t (fun c => { c with due := true, dueAt := if c.due then c.dueAt else s.tick.sfn }) s
    else s)

/-- ABANDON_HOLDOFF_END (R166): the triggers apply again. -/
def execAbandonHoldoffEnd (t : Fin 64) (s : State) : Host.Outcome State Fault Refusal :=
  .next (if heldOff s t then s else evalDue t (modCal t (fun c => { c with holdoff := false }) s))

/-- CAL_START (R167). -/
def execCalStart (t : Fin 64) (s : State) : Host.Outcome State Fault Refusal :=
  .next (let c := (tileOf s t).cal
    if c.requested || (c.due && calEn s t) then calTry t s else s)

/-- CLOSE_UNCONFIRMED (R157). -/
def execCloseUnconfirmed (t : Fin 64) (s : State) : Host.Outcome State Fault Refusal :=
  .next (if (tileOf s t).cal.phase = .close then moveNow t (.abandon 1) s else s)

/-- ACCUM_END (R157): the poisoned count decides between COMPUTE and abandonment. -/
def execAccumEnd (t : Fin 64) (s : State) : Host.Outcome State Fault Refusal :=
  .next (if calMove s t = .compute then moveNow t .compute s else moveNow t (.abandon 6) s)

/-- COMPUTE_END (R157, R160). -/
def execComputeEnd (t : Fin 64) (s : State) : Host.Outcome State Fault Refusal := .next (moveNow t .open s)

/-- OPEN_UNCONFIRMED (R157, R165): also the end of an OPEN phase that follows an abandonment. -/
def execOpenUnconfirmed (t : Fin 64) (s : State) : Host.Outcome State Fault Refusal :=
  .next (if calMove s t = .openUnconfirmed then moveNow t .openUnconfirmed s else moveNow t (.idleAfter true) s)

/-- TRAVERSE_END (R162). -/
def execTraverseEnd (t : Fin 64) (s : State) : Host.Outcome State Fault Refusal := .next (moveNow t .finish s)

end Sys2Proof.Machine
end

