-- ==== Sys2Proof/Machine/TrailMap.lean ====
section
/-! DEFINITION. The BAR0 map (21 R445, R446) and the Trail Map that describes it (14 R342 to R347). -/
namespace Sys2Proof.Machine

/-- A block type: TYPE_ID, instances, offset of instance 0, size of an instance, CAPS (R344, R345). -/
structure BlockType where
  ty : Nat
  count : Nat
  base : Nat
  size : Nat
  caps : Nat
  deriving DecidableEq, Repr

/-- The block types in ascending BAR0 offset (R344). -/
def blockTypes : List BlockType :=
  [⟨0x01, 1, 0x00000000, 0x10000, 8⟩, ⟨0x02, 1, 0x00010000, 0x1000, 0⟩, ⟨0x03, 1, 0x00011000, 0x1000, 0⟩,
   ⟨0x04, 1, 0x00012000, 0x1000, 0⟩, ⟨0x05, 1, 0x00013000, 0x1000, 0⟩, ⟨0x10, 1, 0x00020000, 0x1000, 0⟩,
   ⟨0x11, 1, 0x00030000, 0x4000, 2⟩, ⟨0x20, 1, 0x00040000, 0x8000, 2⟩, ⟨0x21, 8, 0x00048000, 0x1000, 0⟩,
   ⟨0x30, 1, 0x00050000, 0x1000, 6⟩, ⟨0x31, 1, 0x00058000, 0x2000, 6⟩, ⟨0x32, 1, 0x0005A000, 0x1000, 2⟩,
   ⟨0x33, 1, 0x0005B000, 0x1000, 2⟩, ⟨0x34, 1, 0x0005C000, 0x2000, 0⟩, ⟨0x35, 1, 0x0005E000, 0x1000, 0⟩,
   ⟨0x40, 64, 0x00100000, 0x4000, 6⟩, ⟨0x41, 96, 0x00200000, 0x2000, 6⟩, ⟨0x80, 1, 0x01000000, 0x800000, 1⟩,
   ⟨0x81, 1, 0x01800000, 0x800000, 9⟩, ⟨0x82, 1, 0x03000000, 0x1000000, 1⟩]

/-- Implemented offsets of a block type, as first and last register of each run (R446). -/
def implemented : Nat → List (Nat × Nat)
  | 0x01 => [(0, 0x173C)]
  | 0x02 => [(0, 0x24)]
  | 0x03 => [(0, 0), (0x10, 0x48)]
  | 0x04 => [(0, 4), (0x10, 0x30)]
  | 0x05 => [(0, 0x2C)]
  | 0x10 => [(0, 0x4C), (0x400, 0x7FC)]
  | 0x11 => [(0, 0x14), (0x100, 0x4FC), (0x800, 0x81C), (0x1000, 0x303C)]
  | 0x20 => [(0, 0x30), (0x40, 0x50), (0x100, 0x1BC), (0x400, 0x4FC)]
  | 0x21 => [(0, 0x28), (0x100, 0x110), (0x120, 0x134), (0x140, 0x154), (0x160, 0x1A8), (0x1C0, 0x1FC)]
  | 0x30 => [(0, 0x20), (0x100, 0x2FC), (0x400, 0x7FC)]
  | 0x31 => [(0, 0x2C), (0x100, 0x2FC), (0x300, 0x3BC)]
  | 0x32 => [(0, 0x14), (0x100, 0x17C)]
  | 0x33 => [(0, 0x0C)]
  | 0x34 => [(0, 0x20), (0x100, 0x37C)]
  | 0x35 => [(0, 0x2C)]
  | 0x40 => [(0, 0x38), (0x100, 0x14C), (0x200, 0x264), (0x300, 0x330)]
  | 0x41 => [(0, 0x34)]
  | 0x80 => [(0, 0x7FFFFC)]
  | 0x81 => [(0, 0x7FFFFC)]
  | 0x82 => [(0, 0xFFFFFC)]
  | _ => []

/-- A register offset is implemented (R446). -/
def isImplemented (ty ofs : Nat) : Bool := (implemented ty).any fun r => decide (r.1 ≤ ofs) && decide (ofs ≤ r.2)
/-- LAST_REG (R315, R446). -/
def lastReg (ty : Nat) : Nat := ((implemented ty).map fun r => r.2).foldl max 0
/-- REG_COUNT (R343, R447). -/
def regCount (ty : Nat) : Nat := ((implemented ty).map fun r => (r.2 - r.1) / 4 + 1).sum

/-- One instance of a block. -/
structure Block where
  type : BlockType
  inst : Nat
  deriving DecidableEq, Repr

def Block.base (b : Block) : Nat := b.type.base + b.inst * b.type.size

/-- The instances in ascending BAR0 offset (R342). -/
def blocks : List Block := blockTypes.flatMap fun t => (List.range t.count).map fun i => ⟨t, i⟩

/-- The block that holds a BAR0 offset (R445). -/
def blockAt (a : Nat) : Option Block :=
  match blockTypes.find? fun t => decide (t.base ≤ a) && decide (a < t.base + t.count * t.size) with
  | some t => some ⟨t, (a - t.base) / t.size⟩
  | none => none

/-- Instances of a type, 0 for an unknown one. -/
def instCount (ty : Nat) : Nat := match blockTypes.find? fun t => t.ty = ty with | some t => t.count | none => 0

/-- Word j of a map entry (R343). -/
def Block.word (b : Block) (j : Nat) : Word :=
  match j with
  | 0 => fields [(b.type.ty, 0), (b.inst, 16), (b.type.count, 24)]
  | 1 => Machine.word b.base
  | 2 => Machine.word b.type.size
  | 3 => fields [(regCount b.type.ty % 65536, 0), (0x0100, 16)]
  | 4 => Machine.word b.type.caps
  | 5 => Machine.word (lastReg b.type.ty)
  | _ => 0

/-- MAP_BYTES (R342). -/
def mapBytes : Nat := 5952

/-- The word at an offset of the Trail Map (R342). -/
def mapWord (ofs : Nat) : Word :=
  if ofs < 32 then
    match ofs / 4 with
    | 0 => 0x4E593634
    | 1 => fields [(0x0100, 0), (185, 16)]
    | 2 => fields [(32, 0), (32, 16)]
    | 3 => Machine.word mapBytes
    | 4 => 0xB0
    | _ => 0
  else match blocks[(ofs - 32) / 32]? with
    | some b => b.word (ofs % 32 / 4)
    | none => 0

end Sys2Proof.Machine
end

