-- ==== Sys2Proof/Machine/Operands.lean ====
section
/-! DEFINITION. The operand forms of the command packets: which opcodes exist, the lengths they allow, and the parameter
checks that depend only on the packet and the BAR0 map (13 R305, R314 to R325; 11 R274 to R278; 18 R406). -/
namespace Sys2Proof.Machine

/-- Parameter word w(2 + j). -/
def par (ps : List Word) (j : Nat) : Nat := (ps.getD j 0).toNat
/-- A u64 parameter of words j and j + 1. -/
def par64 (ps : List Word) (j : Nat) : Nat := par ps j + 2 ^ 32 * par ps (j + 1)

/-- Opcode, fewest and most parameter words, of every command (R314, R316, R317, R321 to R325). -/
def opcodes : List (Nat × Nat × Nat) :=
  [(0x00, 0, 0), (0x01, 2, 2), (0x02, 2, 62), (0x03, 2, 2), (0x04, 2, 2), (0x10, 2, 62), (0x11, 2, 2), (0x12, 0, 0),
   (0x13, 0, 0), (0x20, 0, 0), (0x21, 0, 0), (0x22, 4, 5), (0x23, 4, 4), (0x24, 8, 8), (0x25, 1, 1), (0x26, 1, 1),
   (0x30, 2, 2), (0x31, 3, 3), (0x32, 0, 0), (0x33, 1, 1), (0x34, 3, 3), (0x40, 3, 3), (0x41, 6, 6), (0x42, 1, 1),
   (0x50, 2, 2), (0x51, 3, 34), (0x52, 2, 62), (0x53, 2, 2), (0x54, 1, 1), (0x55, 0, 0), (0x60, 1, 1), (0x61, 0, 0),
   (0x62, 1, 1), (0x70, 1, 1), (0x71, 1, 1), (0x72, 1, 1)]

def opcodeRow (op : Nat) : Option (Nat × Nat × Nat) := opcodes.find? fun r => r.1 = op

/-- The address of READ_REGS and WRITE_REGS: a multiple of 4, within a block up to its last register (R315). -/
def regAddrOk (a : Nat) : Bool :=
  match blockAt a with
  | some b => a % 4 = 0 && decide (a - b.base ≤ lastReg b.type.ty)
  | none => false

/-- A register range stays within its block (R315). -/
def regRangeOk (a n : Nat) : Bool :=
  match blockAt a with
  | some b => decide (a - b.base + 4 * (n - 1) ≤ lastReg b.type.ty)
  | none => false

/-- A table word (R318). -/
def tableWordOk (w : Nat) : Bool :=
  let tile := bits w 7 0
  let kind := bits w 15 8
  let dbuf := bits w 21 16
  bits w 31 22 = 0 && (if kind = 5 then tile = 0xFF && 3 ≤ dbuf else kind ≤ 4 && tile ≤ 63 && dbuf = 0)

/-- The data rates of R243. -/
def mtsRates : List Nat := [6400, 7467, 8533, 9600, 10667]

/-- Payload words that a ring takes (R404, R406). -/
def ringWords (r : Nat) : Nat := if r ≤ 67 then 58 else 26

/-- The parameters pass the checks that depend only on the packet and the BAR0 map (R305.4); every bit that the opcode
tables do not name is zero (R304). -/
def paramOk (op : Nat) (ps : List Word) : Bool :=
  let w := par ps
  match op with
  | 0x01 => regAddrOk (w 0) && 1 ≤ w 1 && w 1 ≤ 59
  | 0x02 => regAddrOk (w 0) && regRangeOk (w 0) (ps.length - 1)
  | 0x03 => w 0 % 4 = 0 && w 0 < mapBytes && 1 ≤ w 1 && w 1 ≤ 59
  | 0x10 => w 0 % 4 = 0 && w 0 + 4 * (ps.length - 1) ≤ 8388608
  | 0x11 => w 0 % 4 = 0 && 64 ≤ w 0 && w 0 ≤ 8388608
  | 0x22 => tableWordOk (w 0) && w 1 % 64 = 0 && w 3 ≤ 1 && decide ((w 3 = 1) = (ps.length = 5))
  | 0x23 => tableWordOk (w 0) && w 1 % 64 = 0 && w 3 ≤ 1
  | 0x24 => w 0 % 64 = 0 && w 2 % 64 = 0 && 203423744 ≤ par64 ps 2 && w 4 % 4096 = 0 && 1 ≤ w 6 && w 6 ≤ 65536 && w 7 ≤ 1
  | 0x26 => w 0 ≤ 1
  | 0x30 => par64 ps 0 ≠ 0
  | 0x31 => par64 ps 0 ≠ 0 && w 2 ≤ 1
  | 0x33 => bits (w 0) 7 6 = 0 && bits (w 0) 9 8 ≠ 0 && bits (w 0) 31 10 = 0
  | 0x34 => par64 ps 0 ≠ 0 && 1 ≤ w 2 && w 2 ≤ 64
  | 0x40 => bits (w 0) 1 0 ≠ 3 && bits (w 0) 7 2 = 0 && bits (w 0) 15 8 ≠ 0 && bits (w 0) 22 16 ≤ 63
      && bits (w 0) 31 23 = 0 && (bits (w 0) 1 0 ≠ 0 || w 1 = 0 || mtsRates.contains (w 1))
  | 0x41 => bits (w 0) 1 0 ≠ 3 && bits (w 0) 3 2 ≠ 3 && bits (w 0) 7 5 = 0 && bits (w 0) 15 8 ≠ 0
      && bits (w 0) 23 16 ≠ 0 && bits (w 0) 31 24 = 0 && w 1 % 64 = 0 && w 3 % 64 = 0 && par64 ps 3 ≠ 0
  | 0x42 => w 0 ≤ 1
  | 0x50 => w 0 < 524288 && 1 ≤ w 1 && w 1 ≤ 236 && w 0 + w 1 ≤ 524288
  | 0x51 => w 0 < 524288 && 1 ≤ w 1 && w 1 ≤ 128 && w 0 % 128 + w 1 ≤ 128 && ps.length = 2 + ceilDiv (w 1) 4
  | 0x52 => w 0 ≤ 79 && ps.length - 1 ≤ ringWords (w 0)
  | 0x53 => w 0 ≤ 79
  | 0x54 => w 0 ≤ 3
  | 0x60 => w 0 ≤ 1
  | 0x62 => bits (w 0) 31 13 = 0
  | 0x70 => 1 ≤ w 0 && w 0 ≤ 7
  | 0x71 => w 0 ≤ 1
  | 0x72 => match blockTypes.find? fun t => t.ty = bits (w 0) 15 0 with
      | some t => bits (w 0) 31 16 < t.count
      | none => true
  | _ => true

end Sys2Proof.Machine
end

