-- ==== Sys2Proof/Machine/Sync.lean ====
section
/-! DEFINITION. Skewaost (15): the line, delay measurement, the judgement of TICK messages, states and rejoin, the SFN
jump of an adoption tick, identities, and the SYNC registers. Times are in 1/8 ns. -/
namespace Sys2Proof.Machine

/-- A LATE rejection is counted, flagged in the next header and raised (02 R53, R57; 19 R412). -/
def lateEvent (h : Hdr) (s : State) : State :=
  raiseErr (mkErr 2 0x20 0xFF (pathCode h.path) (word h.tag.toNat))
    (modTick (fun t => { t with lateCnt := satInc t.lateCnt, lateSeen := true, lateNext := true }) s)

/-! ### Messages (R347, R348, R352) -/

/-- Whether a downstream port is up and enabled (R349, R352, R360). -/
def synDown (s : State) (n : Nat) : Bool := s.sync.up.getLsbD (n + 1) && s.sync.dnEn.getLsbD n

/-- A message (R348): its start character K28.n, the payload, the CRC-16 of the payload, high byte first, and K29.7. -/
def syncMsg (n : Nat) (payload : List Byte) : List SyncChar :=
  let c := (crc16 payload).toNat
  .k 28 n :: ((payload ++ (leBytes 2 c).reverse).map .d ++ [.k 29 7])

def tickPayload (sfn lead period depth : Nat) (holdover : Bool) : List Byte :=
  leBytes 4 sfn ++ leBytes 4 lead ++ leBytes 4 period ++ leBytes 1 depth ++ leBytes 1 holdover.toNat

/-- A TICK message on every downstream port that is up and enabled. -/
def sendTick (payload : List Byte) (s : State) : State :=
  forEach ((List.range 4).filter (synDown s)) (fun n => emit (.sync (n + 1) (syncMsg 1 payload))) s

/-- P of the present period, in 1/8 ns. -/
def period8 (s : State) : Int := 8 * s.tick.period.toNat

/-- The device's own next tick (R351, R355). -/
def ownTick (s : State) : Int := s.sync.tPrev + period8 s

/-- A message on SYU that fails its CRC is counted and discarded, and one with invalid characters is discarded and counts
each of them (R348, R362). -/
def lineOk (l : LineCheck) (payload : List Byte) (f : State → State) (s : State) : State :=
  match l with
  | .crc c => if c = crc16 payload then f s else modSync (fun y => { y with crc := satInc y.crc }) s
  | .badChars n => modSync (fun y => { y with code := satAdd y.code n }) s

/-- The payloads of R348. -/
def rspPayload (seq : BitVec 16) (turn : Word) : List Byte := leBytes 2 seq.toNat ++ leBytes 4 turn.toNat
def idPayload (id : BitVec 12) (tree : Bool) : List Byte := leBytes 2 id.toNat ++ leBytes 1 tree.toNat

/-! ### States (R353, R355) -/

/-- Entry to HOLDOVER (R355). -/
def enterHoldover (cause : BitVec 3) (s : State) : State :=
  sendVector 6 (raiseErr (mkErr 2 0x2D 0xFF cause.toNat 0)
    (modSync (fun y => { y with state := .holdover, cause := cause, holdover := satInc y.holdover, holdoverSeen := true,
                                rejoin := [], adopt := none, placed := none, enterNext := none, missedRun := 0,
                                periodRun := 0, depthRun := 0 }) s))

/-- The first event that brings HOLDOVER at the next tick (R355). -/
def holdoverNext (cause : BitVec 3) (s : State) : State :=
  if s.sync.state = .locked && s.sync.enterNext.isNone then modSync (fun y => { y with enterNext := some cause }) s else s

/-- The trim of a follower in LOCKED: a free value within ±200,000 (R353, log entry 9). -/
def trimNow (s : State) : Int := clamp (Config.trim s.free) (-200000) 200000

/-! ### TICK messages (R351, R352, R356) -/

/-- What the registers show of an accepted message (R351, R362). -/
def noteAccepted (t : Int) (holdover : Bool) (s : State) : State :=
  modSync (fun y => { y with phaseErr := BitVec.ofInt 32 (t - ownTick s), aboveHoldover := holdover }) s

/-- An accepted message places the next tick and is forwarded; the time it is sent on is free within 1,500 ns of its
arrival (R351, R352, log entry 43). -/
def acceptTick (a t : Int) (sfn : Sfn) (period : Word) (depth : Byte) (holdover : Bool) (s : State) : State :=
  let trim := trimNow s
  let sent := a + ((Config.word (s.free + 1)).toNat % 12001 : Nat)
  let s' := bumpFree (bumpFree (modSync (fun y => { y with
    placed := some t, placedHoldover := holdover, depth := BitVec.ofNat 4 (depth.toNat + 1), missedRun := 0,
    periodRun := 0, depthRun := 0, trim := BitVec.ofInt 32 trim }) (noteAccepted t holdover s)))
  sendTick (tickPayload sfn.toNat (wrap 32 (t - sent)) period.toNat (depth.toNat + 1) holdover) s'

/-- The frame of the present period is a slip frame: its flags show it, and its side record (R67, R356). In replay the
flags are those of the recorded frame (R359). -/
def markSlip (s : State) : State :=
  if s.tick.replaying then s
  else
    let s := modTick (fun t => { t with flags := match t.flags with | f :: r => setBit f 4 :: r | [] => [] }) s
    match activeSet s with
    | some b =>
      { s with sides := s.sides.map fun p =>
          if s.tick.imaging && p.1 = s.cfg.n % Bank.nRaw b then
            (p.1, p.2.take 0x14 ++ leBytes 4 (s.tick.flags.headD 0).toNat ++ p.2.drop 0x18) else p }
    | none => s

/-- The third consistent message in HOLDOVER, at depth `depth`, decides the rejoin (R356). -/
def decideRejoin (m : RejoinMsg) (depth : Byte) (holdover : Bool) (s : State) : State :=
  let own := ownTick s
  let n := if own - 8000 ≤ m.t then 0 else ((own - 8000 - m.t + 8 * m.period - 1) / (8 * m.period)).toNat
  let up := m.t + 8 * m.period * n
  let sUp := sfnAdd m.sfn n
  let late : Bool := own + 8000 < up
  let slip := late || sUp ≠ sfnNext s.tick.sfn
  let s := modSync (fun y => { y with
    adopt := some (up, sUp, slip), rejoin := [], depth := BitVec.ofNat 4 (depth.toNat + 1), placedHoldover := holdover }) s
  if late then markSlip s else s

/-- A message that passes every test of rejoin (R356). -/
def rejoinMsg (t : Int) (sfn : Sfn) (period : Word) (depth : Byte) (holdover : Bool) (s : State) : State :=
  let m : RejoinMsg := { t, sfn, period := period.toNat }
  let follows : Bool := match s.sync.rejoin.getLast? with
    | none => true
    | some p => sfn = sfnNext p.sfn && (t - p.t - 8 * (period.toNat : Int)).natAbs ≤ 8000
  let l := if follows then s.sync.rejoin ++ [m] else [m]
  let s := modSync (fun y => { y with rejoin := l, periodRun := 0, depthRun := 0 }) s
  if 3 ≤ l.length then decideRejoin m depth holdover s else s

/-- In HOLDOVER the window decides whether the message is accepted or counted as off it, and either is judged for rejoin
(R351, R356; log entry 152). -/
def holdoverMsg (t : Int) (sfn : Sfn) (period : Word) (depth : Byte) (holdover : Bool) (s : State) : State :=
  rejoinMsg t sfn period depth holdover
    (if 8000 < (t - ownTick s).natAbs then modSync (fun y => { y with offwin := satInc y.offwin }) s
     else noteAccepted t holdover s)

/-- A TICK message of a follower is judged in the order of R351; `own` is the P that its next period will have. -/
def judgeTick (own : Word) (a : Int) (sfn : Sfn) (lead period : Word) (depth : Byte) (holdover : Bool) (s : State) :
    State :=
  let y := s.sync
  let t := a + lead.toNat - y.d.toNat
  let unused := fun (s : State) => modSync (fun y => { y with rejoin := [] }) s
  if !y.follow || y.adopt.isSome then s
  else if !y.dValid || t < a + 16000 then unused (modSync (fun y => { y with periodRun := 0, depthRun := 0 }) s)
  else if y.state = .locked && 10 * t < 10 * y.tPrev + 9 * period8 s then
    let s' := modSync (fun y => { y with early := satInc y.early, earlySeen := true, earlyNow := true }) s
    if y.earlyNow then s' else raiseErr (mkErr 2 0x2F 0xFF 0 0) s'
  else if 8 ≤ depth.toNat then
    let s := unused (modSync (fun y => { y with depthExceeded := true, depthRun := y.depthRun + 1, periodRun := 0 }) s)
    if 2 ≤ s.sync.depthRun then holdoverNext 5 s else s
  else if period ≠ own then
    let s := unused (modSync (fun y => { y with periodMismatch := true, periodRun := y.periodRun + 1, depthRun := 0 }) s)
    if 2 ≤ s.sync.periodRun then holdoverNext 4 s else s
  else if y.state = .locked then
    if 8000 < (t - ownTick s).natAbs || sfn ≠ sfnNext s.tick.sfn then
      modSync (fun y => { y with offwin := satInc y.offwin, periodRun := 0, depthRun := 0 }) s
    else acceptTick a t sfn period depth holdover s
  else holdoverMsg t sfn period depth holdover s

/-- TICK of a root, or of a follower for a missed or holdover tick (R349, R352): SFN and P of the next period. -/
def sendOwnTick (own : Word) (s : State) : State :=
  let y := s.sync
  let due : Bool := s.tick.running && (!y.follow || y.state = .holdover || y.placed.isNone)
  let sfn := match y.adopt with | some p => p.2.1 | none => sfnNext s.tick.sfn
  if due then
    sendTick (tickPayload sfn.toNat 800000 own.toNat (if y.follow then y.depth.toNat else 0) (y.state = .holdover)) s
  else s

/-! ### The tick (R351, R355 to R357) -/

/-- A queued command whose frame the adopted SFN passes over is rejected (R357). -/
def jumped (s sUp : Sfn) (q : Queued) : Bool := sfnDiff q.hdr.sfn s < sfnDiff sUp s

/-- The SFN jump at an adoption tick, `next` being the device's own next SFN (R357). -/
def jumpSfn (next sUp : Sfn) (s : State) : State :=
  let n := sfnDiff sUp next
  let forward : Bool := n ≤ 0x7FFFFFFF
  let gone := if forward then s.tick.queue.filter (jumped next sUp) else []
  let s := modTick (fun t => { t with
    queue := if forward then t.queue.filter fun q => !jumped next sUp q else t.queue,
    replayOfs := if t.replaying then sfnAdd t.replayOfs n else t.replayOfs }) s
  let s := { s with tiles := s.tiles.map fun x => { x with
    cal := { x.cal with dueSfn := sfnAdd x.cal.dueSfn n, lastSfn := sfnAdd x.cal.lastSfn n } } }
  let s := modHold (fun h => if h.state = .pending then { h with endSfn := sfnAdd h.endSfn n } else h) s
  forEach gone (fun q s => reply { q.hdr with sfn := sUp } q.opcode.toNat stLate [] (lateEvent q.hdr s)) s

/-- The sync part of a tick: a period with the trim at its limit counts (R353), the SFN of the tick is set, a rejoin is adopted, a state change falls due, and a new ID
applies (R351, R355 to R357, R360). -/
def syncTick (s : State) : State :=
  let y := s.sync
  let next := sfnNext s.tick.sfn
  let t := match y.adopt, y.placed with | some p, _ => p.1 | none, some t => t | none, none => ownTick s
  let placed : Bool := y.adopt.isSome || y.placed.isSome
  let s := modTick (fun t => { t with sfn := match y.adopt with | some p => p.2.1 | none => next }) s
  let run := if y.trim = BitVec.ofInt 32 200000 || y.trim = BitVec.ofInt 32 (-200000) then y.limitRun + 1 else 0
  let s := modSync (fun y => { y with
    limitRun := run, freqLimit := y.freqLimit || decide (16 ≤ run), tPrev := t, placed := none, adopt := none, earlyNow := false, placedHoldover := placed && y.placedHoldover,
    id := y.idNext.getD y.id, idNext := none, slipFrames := [] }) s
  match y.adopt, y.enterNext with
  | some p, _ =>
    let s := sendVector 6 (modSync (fun y => { y with state := .locked, enterNext := none }) s)
    if p.2.2 then
      let s := if p.2.1 = next then s else jumpSfn next p.2.1 s
      raiseErr (mkErr 2 0x2E 0xFF 0 p.2.1)
        (modSync (fun y => { y with slip := satInc y.slip, slipSfn := p.2.1, slipSeen := true,
                                    slipFrames := [p.2.1] }) s)
    else s
  | none, some c => enterHoldover c s
  | none, none => s

/-! ### Identities (R360) -/

/-- The assignment goes on from port `n`: the next port that is up and enabled is asked, or the assignment ends. -/
def assignOn : Nat → Nat → Assign → State → State
  | 0, _, _, s => s
  | f + 1, n, a, s =>
    if n < 4 then
      if !synDown s n then assignOn f (n + 1) a s
      else if 4095 < a.next then assignOn f (n + 1) { a with truncated := true } s
      else emit (.sync (n + 1) (syncMsg 4 (leBytes 2 a.next ++ leBytes 1 1)))
        (modSync (fun y => { y with assign := some { a with port := some n } }) s)
    else
      let s := modSync (fun y => { y with assign := none }) s
      match a.hdr with
      | some h => reply h 0x62 (if a.truncated then stTruncated else stOk) [word a.count] s
      | none => emit (.sync 0 (syncMsg 6 (leBytes 2 a.count ++ leBytes 1 a.truncated.toNat))) s

/-- The device takes an ID as its own and, with TREE, assigns IDs down its subtree. -/
def assignStart (h : Option Hdr) (id : BitVec 12) (tree : Bool) (s : State) : State :=
  let s := modSync (fun y => { y with idNext := some id }) s
  let a : Assign := { hdr := h, next := id.toNat + 1, port := none, count := 1, truncated := false }
  assignOn 5 (if tree then 0 else 4) a s

/-! ### Commands -/

/-- SYNC_JOIN at its tick (R353, R358). -/
def joinCmd (h : Hdr) (follow : Bool) (s : State) : State :=
  runAtTick h 0x60 (fun s =>
    let s :=
      if follow then
        if s.sync.follow then s else enterHoldover 1 (modSync (fun y => { y with follow := true }) s)
      else if !s.sync.follow then s
      else
        let was : Bool := s.sync.state = .holdover
        let s := modSync (fun y => { y with follow := false, state := .root, trim := 0, depth := 0, rejoin := [],
                                            adopt := none, placed := none, enterNext := none, missedRun := 0,
                                            periodRun := 0, depthRun := 0, limitRun := 0 }) s
        if was then sendVector 6 s else s
    reply h 0x60 stOk [] s) s

/-- The SYNC registers at offsets 0x000 to 0x02C (R361, R362). -/
def syncReg (s : State) (i : Nat) : Word :=
  let y := s.sync
  match i with
  | 0 =>
    let st := match y.state with | .root => 0 | .locked => 1 | .holdover => 2
    fields [(st, 0), (y.follow.toNat, 2), (y.cause.toNat, 3), (y.depth.toNat, 6), (y.up.toNat, 10),
      (y.assign.isSome.toNat, 15), (y.aboveHoldover.toNat, 16)]
  | 1 => word y.dnEn.toNat
  | 2 => word y.id.toNat
  | 3 => fields [(y.d.toNat, 0), (y.dValid.toNat, 20)]
  | 4 => y.trim
  | 5 => y.phaseErr
  | 6 => y.early
  | 7 => fields [(y.miss.toNat, 0), (y.offwin.toNat, 16)]
  | 8 => fields [(y.crc.toNat, 0), (y.code.toNat, 16)]
  | 9 => fields [(y.slip.toNat, 0), (y.holdover.toNat, 16)]
  | 10 => y.slipSfn
  | 11 => fields [(y.earlySeen.toNat, 0), (y.holdoverSeen.toNat, 1), (y.slipSeen.toNat, 2),
      (y.periodMismatch.toNat, 3), (y.depthExceeded.toNat, 4), (y.freqLimit.toNat, 5), (y.assignTimeout.toNat, 6),
      (y.dlyReject.toNat, 7)]
  | _ => 0

def statusCmd (h : Hdr) (s : State) : State :=
  runAtTick h 0x61 (fun s => reply h 0x61 stOk ((List.range 12).map (syncReg s)) s) s

/-- SYNC_ASSIGN_ID at its tick (R360). -/
def assignCmd (h : Hdr) (id : BitVec 12) (tree : Bool) (s : State) : State :=
  runAtTick h 0x62 (fun s =>
    if s.sync.assign.isSome then reply h 0x62 stBusy [] s else assignStart (some h) id tree s) s

/-- SYNC_JOIN (R358). -/
def execSyncJoin (h : Hdr) (follow : Bool) (s : State) : Host.Outcome State Fault Refusal := .next (joinCmd h follow s)

/-- SYNC_STATUS (R361). -/
def execSyncStatus (h : Hdr) (s : State) : Host.Outcome State Fault Refusal := .next (statusCmd h s)

/-- SYNC_ASSIGN_ID (R360). -/
def execSyncAssignId (h : Hdr) (id : BitVec 12) (tree : Bool) (s : State) : Host.Outcome State Fault Refusal :=
  .next (assignCmd h id tree s)

/-! ### Events of the line -/

/-- SYNC_RX_UP (R347). -/
def execSyncRxUp (port : Fin 5) (s : State) : Host.Outcome State Fault Refusal :=
  .next (modSync (fun y => { y with up := setBit y.up port.val }) s)

/-- SYNC_RX_DOWN (R347, R355). -/
def execSyncRxDown (port : Fin 5) (s : State) : Host.Outcome State Fault Refusal :=
  let s := modSync (fun y => { y with up := clrBit y.up port.val }) s
  .next (if port.val = 0 then holdoverNext 2 s else s)

/-- MISSED_TICK (R351, R355): a follower in LOCKED has accepted no message within the window. -/
def execMissedTick (s : State) : Host.Outcome State Fault Refusal :=
  if s.sync.state = .locked && s.sync.placed.isNone then
    let s := modSync (fun y => { y with miss := satInc y.miss, missedRun := y.missedRun + 1 }) s
    .next (if 2 ≤ s.sync.missedRun then holdoverNext (if s.sync.freqLimit then 6 else 3) s else s)
  else .next s

/-- DLY_REQ_SEND (R350): a follower's request at time `t`. -/
def execDlyReqSend (t : Int) (s : State) : Host.Outcome State Fault Refusal :=
  .next (if s.sync.follow then
    let q := s.sync.reqSeq + 1
    emit (.sync 0 (syncMsg 2 (leBytes 2 q.toNat))) (modSync (fun y => { y with reqSeq := q, reqTime := some t }) s)
  else s)

/-- DLY_REQ (R350): answered at once on its port. -/
def execDlyReq (port : Fin 4) (seq : BitVec 16) (turn : Word) (s : State) : Host.Outcome State Fault Refusal :=
  .next (emit (.sync (port.val + 1) (syncMsg 3 (rspPayload seq turn))) s)

/-- A delay measurement (R350). -/
def syncMeasure (m : Int) (s : State) : State :=
  let y := s.sync
  if m < 0 || 80000 < m || (y.dValid && 64 < (m - y.d.toNat).natAbs) then
    let n := if y.dValid then y.rejects + 1 else 0
    if 8 ≤ n then modSync (fun y => { y with dlyReject := true, dValid := false, meas := [], rejects := 0 }) s
    else modSync (fun y => { y with dlyReject := true, rejects := n }) s
  else
    let l := (y.meas ++ [m.toNat])
    let l := l.drop (l.length - 8)
    if l.length = 8 then
      modSync (fun y => { y with meas := l, rejects := 0, dValid := true,
                                 d := BitVec.ofInt 20 (rndDiv (l.sum : Nat) 8) }) s
    else modSync (fun y => { y with meas := l, rejects := 0 }) s

/-- DLY_RSP (R350). -/
def execDlyRsp (t : Int) (line : LineCheck) (seq : BitVec 16) (turn : Word) (s : State) :
    Host.Outcome State Fault Refusal :=
  .next (lineOk line (rspPayload seq turn) (fun s =>
    match s.sync.reqTime with
    | some q =>
      if s.sync.follow && seq = s.sync.reqSeq then
        syncMeasure (rndShr (t - q - turn.toNat) 1) (modSync (fun y => { y with reqTime := none }) s)
      else s
    | none => s) s)

/-- ID_SET (R360): answered with COUNT 0 while the device is assigning. -/
def execIdSet (line : LineCheck) (id : BitVec 12) (tree : Bool) (s : State) : Host.Outcome State Fault Refusal :=
  .next (lineOk line (idPayload id tree) (fun s =>
    if s.sync.assign.isSome then emit (.sync 0 (syncMsg 6 (leBytes 2 0 ++ leBytes 1 0))) s else assignStart none id tree s) s)

/-- ID_DONE (R360). -/
def execIdDone (port : Fin 4) (count : BitVec 16) (truncated : Bool) (s : State) : Host.Outcome State Fault Refusal :=
  .next (match s.sync.assign with
    | some a =>
      if a.port = some port.val then
        assignOn 5 (port.val + 1) { a with next := a.next + count.toNat, count := a.count + count.toNat,
                                           truncated := a.truncated || truncated, port := none } s
      else s
    | none => s)

/-- ASSIGN_TIMEOUT (R360). -/
def execAssignTimeout (s : State) : Host.Outcome State Fault Refusal :=
  .next (match s.sync.assign with
    | some a =>
      match a.port with
      | some n => assignOn 5 (n + 1) { a with truncated := true, port := none }
          (modSync (fun y => { y with assignTimeout := true }) s)
      | none => s
    | none => s)

end Sys2Proof.Machine
end

