-- ==== Sys2Proof/Machine/Tables.lean ====
section
/-! DEFINITION. TABLE_LOAD and TABLE_SAVE (05 R146; 06 R169; 13 R318, R319), and how their bases settle at a tick. -/
namespace Sys2Proof.Machine

/-- Fields of a table word (R318). -/
def twTile (w : Word) : Nat := bits w.toNat 7 0
def twKind (w : Word) : Nat := bits w.toNat 15 8
def twDbuf (w : Word) : Nat := bits w.toNat 21 16

/-- The table has no region: the tile is not enabled, or the buffer is not defined (R318). -/
def noTable (b : Bank) (w : Word) : Bool :=
  if twKind w = 5 then !dbufDefined b (twDbuf w) else !Bank.enabled b (twTile w)

/-- The table's own place among the regions in use. -/
def ownRegion (w : Word) (r : Region) : Bool :=
  if twKind w = 5 then r.sec = 8 && r.item = twDbuf w else r.sec = 2 && r.item = 5 * twTile w + twKind w

/-- The table's base: of a tile's table now, of a buffer as it serves the frame of this tick. -/
def tableBase (s : State) (b : Bank) (w : Word) : BitVec 64 :=
  if twKind w = 5 then (dbufAhead s b (twDbuf w)).base else curTable s (twTile w) (twKind w)

/-- A region leaves the installed capacity, reaches into the 64 MiB that the device keeps (R30), or overlaps one of `l`. -/
def badRegion (s : State) (l : List Region) (a n : Nat) : Bool :=
  decide (capacity s < a + n) || decide (a < reserveBytes) || l.any fun r => r.overlaps a n

/-- What R169, TF_EN and the set's marking forbid of a load. -/
def tableBarred (s : State) (b : Bank) (w : Word) (load : Bool) : Bool :=
  match twKind w with
  | 1 => (tileOf s (twTile w)).cal.phase ≠ .idle
  | 4 => !Bank.tileTf b (twTile w)
  | 5 => load && !namedDbuf b (twDbuf w)
  | _ => false

def setDbufNext (k : Nat) (x : TblBase) (s : State) : State :=
  modCfg (fun c => { c with dbufNext := (k, x) :: c.dbufNext.filter fun p => p.1 ≠ k }) s

/-- TABLE_LOAD makes the region the table from frame k on (R61, R146, R318): a load of O, G or D makes the frame fresh
(R142). -/
def takeTable (w : Word) (base : BitVec 64) (s : State) : State :=
  let t := twTile w
  let both : TblBase := { base, write := base }
  match twKind w with
  | 0 => modLane t (fun l => { l with cb := both }) s
  | 1 => modLane t (fun l => { l with o := base, freshNext := true }) s
  | 2 => modLane t (fun l => { l with g := base, freshNext := true }) s
  | 3 => modLane t (fun l => { l with d := base, freshNext := true }) s
  | 4 => modLane t (fun l => { l with t := both }) s
  | _ => setDbufNext (twDbuf w) both s

/-- TABLE_LOAD at its tick (R318). -/
def tableLoad (h : Hdr) (w : Word) (base : BitVec 64) (crc : Option Word) (s : State) : State :=
  runAtTick h 0x22 (fun s =>
    if s.dev.power = .low then reply h 0x22 stRefused [] s
    else match activeSet s with
    | none => reply h 0x22 stNotReady [] s
    | some b =>
      if noTable b w then reply h 0x22 stNotReady [] s
      else if tableBarred s b w true
          || badRegion s ((regionsInUse s).filter fun r => !ownRegion w r) base.toNat (saveBytes b w) then
        reply h 0x22 stRefused [] s
      else
        let old := tableBase s b w
        reply h 0x22 stOk [crc.getD 0, lo32 old, hi32 old] (takeTable w base s)) s

/-- The lanes move a table's write base to the destination: the region left is the saved copy (R146). -/
def redirect (w : Word) (dest : BitVec 64) (s : State) : State :=
  let t := twTile w
  if twKind w = 0 then modLane t (fun l => { l with cb := { l.cb with write := dest } }) s
  else modLane t (fun l => { l with t := { l.t with write := dest } }) s

/-- TABLE_SAVE at its tick (R319): CB, TEMPORAL and writable buffers are saved by moving the write base, the others by
a copy of the table as it stands. -/
def tableSave (h : Hdr) (w : Word) (dest : BitVec 64) (withCrc : Bool) (s : State) : State :=
  runAtTick h 0x23 (fun s =>
    if s.dev.power = .low then reply h 0x23 stRefused [] s
    else match activeSet s with
    | none => reply h 0x23 stNotReady [] s
    | some b =>
      let n := saveBytes b w
      if noTable b w then reply h 0x23 stNotReady [] s
      else if tableBarred s b w false || badRegion s (regionsInUse s) dest.toNat n then reply h 0x23 stRefused [] s
      else
        let k := twKind w
        let move := k = 0 || k = 4 || (k = 5 && (dbufOf b (twDbuf w)).writable)
        let p : Save := { hdr := h, at_ := s.tick.sfn, table := w, base := tableBase s b w, dest, bytes := n,
                          copy := !move, crc := withCrc }
        let s := if !move then dramWrite dest.toNat (dramRead s p.base.toNat n) s
          else if k = 5 then setDbufNext (twDbuf w) { base := p.base, write := dest } s
          else redirect w dest s
        modCfg (fun c => { c with saves := c.saves ++ [p] }) s) s

/-! ### The end of a save (R146, R319) -/

/-- The results of a save: the CRC and the base of the saved copy. -/
def saveWords (s : State) (p : Save) : List Word :=
  let a := if p.copy then p.dest else p.base
  let n := match activeSet s with | some b => saveBytes b p.table | none => 0
  [if p.crc then crc32 (dramRead s a.toNat n) else 0, lo32 a, hi32 a]

def dropSave (p : Save) (s : State) : State := modCfg (fun c => { c with saves := c.saves.erase p }) s

/-- The table reads its former region again from the next tick: the one it had when the save executed, whatever a
TABLE_LOAD after it brought (R146, R319). A buffer's bases stand among those of the next tick until that settles. -/
def unredirect (p : Save) (s : State) : State :=
  let t := twTile p.table
  let former : TblBase := { base := p.base, write := p.base }
  let back (l : List (Nat × TblBase)) : List (Nat × TblBase) :=
    l.map fun x => if x.1 = twDbuf p.table then (x.1, former) else x
  if twKind p.table = 0 then modLane t (fun l => { l with cb := { l.cb with write := p.base } }) s
  else if twKind p.table = 4 then modLane t (fun l => { l with t := { l.t with write := p.base } }) s
  else if sfnDiff s.tick.sfn p.at_ ≤ 1 then modCfg (fun c => { c with dbufNext := back c.dbufNext }) s
  else modCfg (fun c => { c with dbufBase := back c.dbufBase }) s

/-- A save that is incomplete: an overrun answers REFUSED with word 3 set to 1, a freeze FROZEN; words 1 and 2 are the
former region (R319). -/
def failSave (st : BitVec 16) (p : Save) (s : State) : State :=
  let s := unredirect p (dropSave p s)
  let s := if twKind p.table ≠ 5 then modLane (twTile p.table) (fun l => { l with saveFail := true }) s else s
  reply p.hdr 0x23 st [0, lo32 p.base, hi32 p.base, 1] s

/-- A lane that does not read the tile copies its words unchanged to the write base: the 2,048 bytes of each of the 776
rows, and nothing of what a stride leaves between them (R132, R146). -/
def copyUnread (p : Save) (s : State) : State :=
  let t := twTile p.table
  let x : TblBase := if twKind p.table = 0 then (tileOf s t).lane.cb else (tileOf s t).lane.t
  let stride := match activeSet s with | some b => Bank.tblStride b t (twKind p.table) | none => 0
  if (tileOf s t).lane.work.mode = .read || x.base = x.write then s
  else forEach (List.range 776) (fun r s =>
    let a := x.base.toNat + r * stride
    let z := x.write.toNat + r * stride
    let s := traffic (t / 16) [] [reads a 2048, writes z 2048] s
    stageWrite z (dramRead s a 2048) s) s

/-- What CTRL moves for a save: a copy, and the reading of the saved table for its CRC (R258, R319). -/
def saveSpans (p : Save) : List Span :=
  (if p.copy then [reads p.base.toNat p.bytes, writes p.dest.toNat p.bytes] else [])
    ++ (if p.crc then [reads (if p.copy then p.dest else p.base).toNat p.bytes] else [])

/-- A save of a tile's CB or temporal table ends: complete, or incomplete when the tile has overrun, by its lane's work
or by its crossing FIFO (R23, R146). -/
def endLaneSave (p : Save) (s : State) : State :=
  let t := twTile p.table
  if (tileOf s t).lane.work.overrun || s.tick.crossLanes.getLsbD t then failSave stRefused p s
  else
    let s := copyUnread p s
    reply p.hdr 0x23 stOk (saveWords s p) (dropSave p s)

/-- A save that only copies, or that has had its two periods, ends complete. -/
def endSave (p : Save) (s : State) : State := reply p.hdr 0x23 stOk (saveWords s p) (dropSave p s)

def laneSave (p : Save) : Bool := !p.copy && twKind p.table ≠ 5

/-- Before a tick the lanes have ended their saves (R145, R146), but for those whose frame a memory freeze has cut off,
which end with FROZEN (R319). -/
def laneSavesEnd (s : State) : State :=
  if s.err.freezeNext = 1 then s
  else forEach (s.cfg.saves.filter laneSave) (fun p s => endLaneSave p (traffic 10 [] (saveSpans p) s)) s

/-- From the tick the current base is the write base of the frame before it (R146). -/
def settleLane (t : Nat) (s : State) : State :=
  modLane t (fun l => { l with cb := { l.cb with base := l.cb.write }, t := { l.t with base := l.t.write } }) s

/-- The bases of the buffers settle at the tick, and those asked for at the tick before come into force (R318, R319). -/
def settleDbufs (s : State) : State :=
  let due := s.cfg.saves.filter fun p => !p.copy && twKind p.table = 5 && decide (2 ≤ sfnDiff s.tick.sfn p.at_)
  let s := modCfg (fun c => { c with
    dbufBase := c.dbufNext ++ ((c.dbufBase.filter fun p => !(c.dbufNext.any fun q => q.1 = p.1)).map fun p =>
      (p.1, { p.2 with base := p.2.write })),
    dbufNext := [] }) s
  forEach due (fun p s => endSave p (traffic 10 [] (saveSpans p) s)) s

/-- Every save whose frame a freeze cuts off is incomplete (R319). -/
def freezeSaves (s : State) : State := forEach (s.cfg.saves.filter fun p => !p.copy) (failSave stFrozen) s

/-! ### The commands and events -/

/-- TABLE_LOAD (R61, R146, R318). -/
def execTableLoad (h : Hdr) (table : Word) (base : BitVec 64) (crc : Option Word) (s : State) :
    Host.Outcome State Fault Refusal := .next (tableLoad h table base crc s)

/-- TABLE_SAVE (R61, R146, R319). -/
def execTableSave (h : Hdr) (table : Word) (dest : BitVec 64) (withCrc : Bool) (s : State) :
    Host.Outcome State Fault Refusal := .next (tableSave h table dest withCrc s)

/-- The save has done its work: the copy has been made, the buffer's two periods have passed, or the lane has finished
the frame. -/
def saveDone (s : State) (p : Save) : Bool :=
  let w := (tileOf s (twTile p.table)).lane.work
  if p.copy then true
  else if twKind p.table = 5 then decide (2 ≤ sfnDiff s.tick.sfn p.at_)
  else !(w.mode = .read && !w.done)

/-- The oldest save of a table ends, if its copy or its frame is done. CTRL holds its requests in a quiet window (02 R45); a
read that freezes the controller cuts the copy off (10 R261), and a freeze ends the others at the next tick (R319). -/
def saveCopyEnd (table : Word) (hits : List (Nat × EccHit)) (s : State) : State :=
  match s.cfg.saves.find? fun p => p.table = table with
  | none => s
  | some p =>
    if s.memc.quiet || !saveDone s p || spansWait s 10 (saveSpans p) then s
    else
      let s := traffic 10 hits (saveSpans p) s
      if s.err.freezeNext = 1 then s
      else if p.copy || twKind table = 5 then endSave p s
      else endLaneSave p s

/-- TABLE_SAVE_COPY_END (R146, R319). -/
def execTableSaveCopyEnd (table : Word) (s : State) (hits : List (Nat × EccHit) := []) : Host.Outcome State Fault Refusal :=
  .next (saveCopyEnd table hits s)

end Sys2Proof.Machine
end

