-- ==== Sys2Proof/Machine/Caravan.lean ====
section
/-! DEFINITION. Command packets on their way in (13 R304 to R313; 02 R53 to R56): the Caravan's rings, the two mailboxes,
the checks on arrival, the CRC check of a TABLE_LOAD, and the posting of replies. -/
namespace Sys2Proof.Machine

/-! ### Arrival (R53 to R55, R305) -/

/-- The arming cutoff of the next frame has been reached (R53). -/
def pastCutoff (s : State) : Bool := decide (s.clock.lastTick + s.tick.period.toNat ≤ s.clock.now + 200000)

/-- The frame at which a command with effective frame `e` runs, or none when it is LATE (R53, R54). -/
def resolveFrame (s : State) (e : Word) : Option Sfn :=
  if e = 0xFFFFFFFF then some (sfnAdd s.tick.sfn (if pastCutoff s then 2 else 1))
  else
    let d := sfnDiff e s.tick.sfn
    if d = 0 || 0x7FFFFFFF < d || (d = 1 && pastCutoff s) then none else some e

/-- Checks 5 and 6 of R305: the packet enters the timed queue, or is rejected LATE or BUSY. -/
def takeIn (q : Queued) (e : Word) (s : State) : State :=
  match resolveFrame s e with
  | none => replyReject q.hdr q.opcode.toNat stLate (lateEvent q.hdr s)
  | some f =>
    if 256 ≤ s.tick.queue.length then replyReject q.hdr q.opcode.toNat stBusy s
    else modTick (fun t => { t with
        queue := t.queue ++ [{ q with hdr := { q.hdr with sfn := f }, acc := t.accNext }], accNext := t.accNext + 1 }) s

/-- A TABLE_LOAD with CHECK: its region is read before the packet has arrived (R318). -/
def startLoadCheck (q : Queued) (e : Word) (s : State) : State :=
  match activeSet s with
  | none => takeIn q e s
  | some b =>
    let w := q.params.getD 0 0
    if noTable b w then takeIn q e s
    else if s.dev.power = .frozen then replyReject q.hdr 0x22 stFrozen s
    else modCmdq (fun c => { c with
      checks := c.checks ++ [{ q, eff := e, region := (par64 q.params 1, saveBytes b w) }] }) s

/-- The status with which a packet fails checks 1 to 4 of R305. -/
def packetFault (len op : Nat) (ps : List Word) : Option (BitVec 16) :=
  if 62 < len then some stBadLength
  else match opcodeRow op with
    | none => some stBadOpcode
    | some r =>
      if len < r.2.1 || r.2.2 < len then some stBadLength
      else if !paramOk op ps then some stBadParam
      else none

/-- The fields of a packet (R304): opcode, parameter length, parameters, effective frame, and what the command keeps. -/
def packetOp (ws : List Word) : Nat := bits (ws.getD 0 0).toNat 7 0
def packetLen (ws : List Word) : Nat := bits (ws.getD 0 0).toNat 15 8
def packetPars (ws : List Word) : List Word := (List.range (packetLen ws)).map fun j => ws.getD (j + 2) 0
def packetEff (ws : List Word) : Word := ws.getD 1 0
def packetHdr (path : Path) (ws : List Word) : Hdr :=
  { path, tag := BitVec.ofNat 16 ((ws.getD 0 0).toNat / 65536), sfn := 0 }
/-- The packet as it enters the timed queue. -/
def packetCmd (path : Path) (ws : List Word) : Queued :=
  { hdr := packetHdr path ws, opcode := BitVec.ofNat 8 (packetOp ws), params := packetPars ws, acc := 0 }

/-- A packet has finished arriving (R304, R305): nothing is taken before the firmware is ready (R442). -/
def packetArrival (path : Path) (ws : List Word) (s : State) : State :=
  if s.dev.phase ≠ .ready || s.dev.power = .off then s
  else match packetFault (packetLen ws) (packetOp ws) (packetPars ws) with
    | some st => replyReject (packetHdr path ws) (packetOp ws) st s
    | none =>
      if packetOp ws = 0x22 && packetLen ws = 5 then startLoadCheck (packetCmd path ws) (packetEff ws) s
      else takeIn (packetCmd path ws) (packetEff ws) s

/-- The oldest TABLE_LOAD check ends: the packet has arrived, or its CRC does not match (R318). CTRL holds its requests in a
quiet window (02 R45); a frozen controller ends the check with the entry to FROZEN. -/
def endLoadCheck (hits : List (Nat × EccHit)) (s : State) : State :=
  match s.cmdq.checks with
  | [] => s
  | x :: r =>
    let l := [reads x.region.1 x.region.2]
    if s.memc.quiet || s.memc.frozen || spansWait s 10 l then s else
    let s := traffic 10 hits l s
    if s.memc.frozen then s else
    let s := modCmdq (fun c => { c with checks := r }) s
    let crc := crc32 (dramRead s x.region.1 x.region.2)
    if crc ≠ x.q.params.getD 4 0 then replyReject x.q.hdr 0x22 stBadParam s else takeIn x.q x.eff s

/-! ### The Caravan (R310 to R312) -/

/-- ENABLE clears: a fetch in progress and every held part are discarded, each part counted (R312). -/
def caravanClear (s : State) : State :=
  let n := s.cmdq.held.length + s.cmdq.behind.length
  modCmdq (fun c => { c with enable := false, fetching := false, held := [], behind := [], lostCnt := satAdd c.lostCnt n,
                             rplLost := c.rplLost || 0 < n }) s

/-- A ring size (R312): a power of two from 16 to 4,096. -/
def ringSizeOk (n : BitVec 13) : Bool := (List.range 9).any fun i => n.toNat = 2 ^ (i + 4)

/-- What setting ENABLE requires (R312). -/
def caravanGood (c : Cmdq) : Bool :=
  ringSizeOk c.ringSize && ringSizeOk c.rplSize && c.ringBase.toNat % 4096 = 0 && c.rplBase.toNat % 4096 = 0
    && c.rplWb.toNat % 64 = 0

/-- ENABLE is written 1 (R312). -/
def caravanEnable (s : State) : State :=
  if s.cmdq.enable then s
  else if caravanGood s.cmdq then
    modCmdq (fun c => { c with enable := true, head := 0, tail := 0, rplProd := 0, rplCons := 0, sinceIrq := 0 }) s
  else modCmdq (fun c => { c with cfgBad := true }) s

/-- The device fetches entry HEAD when all the conditions of R310 hold. -/
def mayFetch (s : State) : Bool :=
  s.dev.phase = .ready && s.cmdq.enable && canIssue s && s.cmdq.tail ≠ s.cmdq.head && s.cmdq.held.length < 64
    && !s.cmdq.fetching

/-- Bytes of a read request: 256, or fewer under Max_Read_Request_Size 128 (R280, R310). -/
def readBytes (s : State) : Nat := min 256 (128 * 2 ^ s.host.mrrs.toNat)

def caravanFetch (s : State) : State :=
  if mayFetch s then
    let a := s.cmdq.ringBase.toNat + 256 * (s.cmdq.head.toNat % s.cmdq.ringSize.toNat)
    let n := readBytes s
    forEach (List.range (256 / n)) (fun i => emit (.hostRead (a + n * i) n)) (modCmdq (fun c => { c with fetching := true }) s)
  else s

/-- A fetch completes (R310). -/
def caravanFetchDone (ok : Bool) (words : List Word) (s : State) : State :=
  if !s.cmdq.fetching then s
  else if ok then
    packetArrival .caravan words (modCmdq (fun c => { c with fetching := false, head := c.head + 1 }) s)
  else
    raiseErr (mkErr 2 0x2C 0xFF 0 s.cmdq.head)
      (caravanClear (modCmdq (fun c => { c with fetching := false, fetchErr := true }) s))

/-- A TAIL write (R310). -/
def writeTail (v : Word) (s : State) : State :=
  if (v - s.cmdq.head).toNat ≤ s.cmdq.ringSize.toNat then modCmdq (fun c => { c with tail := v }) s
  else modCmdq (fun c => { c with tailBad := true }) s

/-- A CONS write (R311). -/
def writeRplCons (v : Word) (s : State) : State :=
  if (v - s.cmdq.rplCons).toNat ≤ (s.cmdq.rplProd - s.cmdq.rplCons).toNat then modCmdq (fun c => { c with rplCons := v }) s
  else modCmdq (fun c => { c with consBad := true }) s

/-- A write to a size, a base or WB: dropped while ENABLE is set (R312). -/
def writeRingReg (f : Cmdq → Cmdq) (s : State) : State :=
  if s.cmdq.enable then modCmdq (fun c => { c with cfgBad := true }) s else modCmdq f s

/-! ### The mailboxes (R313) -/

def mboxPath (mgmt : Bool) : Path := if mgmt then .mgmt else .mailbox

/-- GO: ignored while BUSY, and before the firmware is ready (R313, R442). -/
def mboxGo (mgmt : Bool) (s : State) : State :=
  if s.dev.phase ≠ .ready || s.dev.power = .off || (mboxOf s mgmt).busy then modCmdq (fun c => { c with mboxBusy := true }) s
  else
    packetArrival (mboxPath mgmt) (mboxOf s mgmt).cmd.toList
      (modMbox mgmt (fun m => { m with busy := true, done := false, parts := [] }) s)

/-- NEXT: ignored with no further part (R313). -/
def mboxNext (mgmt : Bool) (s : State) : State := mboxShow mgmt s

/-- A write to word i of a CMD window: dropped while BUSY (R313). -/
def mboxCmdWrite (mgmt : Bool) (i : Nat) (v : Word) (s : State) : State :=
  if (mboxOf s mgmt).busy then modCmdq (fun c => { c with mboxBusy := true }) s
  else modMbox mgmt (fun m => { m with cmd := vset m.cmd i v }) s

/-! ### The events -/

/-- PACKET_ARRIVAL (R304, R305). -/
def execPacketArrival (path : Path) (words : List Word) (s : State) : Host.Outcome State Fault Refusal :=
  .next (packetArrival path words s)

/-- CARAVAN_FETCH (R310). -/
def execCaravanFetch (s : State) : Host.Outcome State Fault Refusal := .next (caravanFetch s)

/-- CARAVAN_FETCH_DONE (R310). -/
def execCaravanFetchDone (ok : Bool) (words : List Word) (s : State) : Host.Outcome State Fault Refusal :=
  .next (caravanFetchDone ok words s)

/-- REPLY_POST (R311): a held part is posted once there is room. -/
def execReplyPost (s : State) : Host.Outcome State Fault Refusal := .next (postHeld s)

/-- MSI_X_MESSAGE (R300): a pending message is sent once nothing blocks it. -/
def execMsiXMessage (vector : Fin 512) (s : State) : Host.Outcome State Fault Refusal := .next (sendPending vector.val s)

/-- ENABLE_SET (R312). -/
def execEnableSet (s : State) : Host.Outcome State Fault Refusal := .next (caravanEnable s)

/-- ENABLE_CLEAR (R312). -/
def execEnableClear (s : State) : Host.Outcome State Fault Refusal := .next (caravanClear s)

/-- CMDQ_TAIL_WRITE (R310). -/
def execCmdqTailWrite (v : Word) (s : State) : Host.Outcome State Fault Refusal :=
  .next (barAccess (writeTail v) s)

/-- CMDQ_RPL_CONS_WRITE (R311). -/
def execCmdqRplConsWrite (v : Word) (s : State) : Host.Outcome State Fault Refusal :=
  .next (barAccess (writeRplCons v) s)

/-- MBOX_GO (R313). -/
def execMboxGo (mgmt : Bool) (s : State) : Host.Outcome State Fault Refusal := .next (mboxGo mgmt s)

/-- MBOX_NEXT (R313). -/
def execMboxNext (mgmt : Bool) (s : State) : Host.Outcome State Fault Refusal := .next (mboxNext mgmt s)

/-- TABLE_LOAD_CHECK_END (R318). -/
def execTableLoadCheckEnd (s : State) (hits : List (Nat × EccHit) := []) : Host.Outcome State Fault Refusal :=
  .next (endLoadCheck hits s)

end Sys2Proof.Machine
end

