-- ==== Sys2Proof/Machine/ConfigCheck.lean ====
section
/-! DEFINITION. The checks of COMMIT_SHADOW on a set by itself (14 R336, R337): header, directory, reserved bits, ranges,
readout, phases, preparation, shutter, rotation, housekeeping table, regions, rings, placement, streams and the hold
buffer. Every check answers the first failure in ascending section and item, or none. -/
namespace Sys2Proof.Machine

/-- A failed check: REASON, item, section (0xFF where none applies) and period (R336, R337). -/
structure SetFault where
  reason : Nat
  item : Nat
  sec : Nat
  period : Nat
  deriving DecidableEq, Repr

/-- DETAIL (R337). -/
def SetFault.detail (f : SetFault) : Word := fields [(f.item % 65536, 0), (f.sec, 16), (f.period, 24)]

/-- A condition that must hold, and the failure where it does not. -/
def need (ok : Bool) (reason item sec : Nat) : Option SetFault := if ok then none else some ⟨reason, item, sec, 0⟩

/-- The first failure of a check over a list of items. -/
def needAll (l : List Nat) (f : Nat → Option SetFault) : Option SetFault := l.findSome? f

/-- Items that must each meet a condition. -/
def needEach (l : List Nat) (reason sec : Nat) (ok : Nat → Bool) : Option SetFault :=
  needAll l fun i => need (ok i) reason i sec

/-- The first failure of a sequence of checks. -/
def firstFault : List (Option SetFault) → Option SetFault
  | [] => none
  | c :: r => match c with | some f => some f | none => firstFault r

/-- `n` zero bytes from an address (reserved bytes). -/
def zeros (b : Bank) (a n : Nat) : Bool := (List.range n).all fun i => Bank.u8 b (a + i) = 0
/-- The bits of a mask are zero in a value. -/
def clear (v mask : Nat) : Bool := v &&& mask = 0
def inRange (lo hi v : Nat) : Bool := decide (lo ≤ v) && decide (v ≤ hi)
def mult (n v : Nat) : Bool := v % n = 0

/-- MAGIC, VERSION, HDR_BYTES and SET_BYTES (R327, reason 0x04). -/
def headerCheck (b : Bank) (bytes : Nat) : Option SetFault :=
  need (Bank.u32 b 0 = 0x54455343 && Bank.u16 b 4 = 1 && Bank.u16 b 6 = 256 && Bank.setBytes b = bytes) 0x04 0 0xFF

/-! ### Directory (R328, R329, reason 0x05) -/

/-- BYTES of sections 1 to 13 (R328, R369). -/
def sectionBytes : Nat → Nat
  | 1 => 32768
  | 2 => 8192
  | 3 => 4096
  | 4 => 576
  | 5 => 528
  | 6 => 1376
  | 7 => 768
  | 8 => 2048
  | 9 => 96
  | 10 => 2048
  | 11 => 32
  | 12 => 64
  | 13 => 256
  | _ => 0

/-- Whether a section is placed as R328 and R329 say; of two that overlap the later fails. -/
def sectionOk (b : Bank) (s : Nat) : Bool :=
  let o := Bank.secOfs b s
  let n := Bank.secLen b s
  if 14 ≤ s then o = 0 && n = 0
  else
    (if s = 0 then decide (64 ≤ n) else decide (n = sectionBytes s)) && mult 64 o && decide (256 ≤ o)
      && decide (o + n ≤ Bank.setBytes b)
      && (List.range s).all fun j => decide (o + n ≤ Bank.secOfs b j) || decide (Bank.secOfs b j + Bank.secLen b j ≤ o)

def directoryCheck (b : Bank) : Option SetFault := needAll (List.range 24) fun s => need (sectionOk b s) 0x05 s s

/-! ### The Piste's tables (R41) -/

/-- A table of the Piste lies wholly within the PISTE section, past the header; an empty one occupies nothing. -/
def pisteInside (b : Bank) (ofs len : Nat) : Bool := len = 0 || (decide (64 ≤ ofs) && decide (ofs + len ≤ Bank.secLen b 0))

/-- Chain body c as the directory names it: offset from the Piste and length (R193). -/
def chainBody (b : Bank) (c : Nat) : Nat × Nat := (Bank.u32 b (Bank.chainDir b c), Bank.chainBytes b c)
def slotTableIn (b : Bank) : Bool := pisteInside b (Bank.slotOfs b) (16 * Bank.nSlots b)
def regionTableIn (b : Bank) : Bool := pisteInside b (Bank.regionOfs b) (16 * Bank.nRegions b)
def chainDirIn (b : Bank) : Bool := pisteInside b (Bank.chainOfs b) (8 * Bank.nChains b)
def chainBodyIn (b : Bank) (c : Nat) : Bool := pisteInside b (chainBody b c).1 (chainBody b c).2

/-! ### Reserved bytes and bits (reason 0x06) -/

def tileReserved (b : Bank) (t : Nat) : Bool :=
  let a := Bank.tileRec b t
  let w := Bank.tileWord b t
  zeros b (a + 0x31) 15 && zeros b (a + 0x84) 124 && zeros b (a + 0x180) 128
    && (!Bank.enabled b t ||
      (clear (w 0x00) 0x00FCE0F0 && clear (w 0x04) 0xFFFFFC00 && clear (w 0x08) 0xC0C0C0C0 && clear (w 0x0C) 0xF000F000
        && clear (w 0x10) 0xFFFF0000 && clear (w 0x18) 0xFFFF0E00 && clear (w 0x1C) 0xFF000000
        && clear (w 0x20) 0xFF000000 && clear (w 0x24) 0x0000F000 && clear (w 0x28) 0xFFF00000
        && clear (w 0x2C) 0xFFF00000 && (List.range 32).all fun j => clear (w (0x100 + 4 * j)) 0x0000FF80))

def laneReserved (b : Bank) (t : Nat) : Bool :=
  let a := Bank.laneRec b t
  zeros b (a + 0x48) 56 && (!Bank.enabled b t || clear (Bank.u32 b (a + 0x3C)) 0xFFFFFF00)

def calRecAt (b : Bank) (t : Nat) : Nat := Bank.secOfs b 3 + 64 * t

def calReserved (b : Bank) (t : Nat) : Bool :=
  let a := calRecAt b t
  zeros b (a + 0x17) 1 && zeros b (a + 0x20) 32 && (!Bank.enabled b t || clear (Bank.u8 b (a + 0x16)) 0xFC)

/-- Word w of the shutter record of group g (R175). -/
def grpWord (b : Bank) (g w : Nat) : Nat := Bank.u32 b (Bank.secOfs b 5 + 0x10 + 32 * g + 4 * w)

def groupReserved (b : Bank) (g : Nat) : Bool :=
  clear (grpWord b g 0) 0xF000F000 && clear (grpWord b g 3) 0x0000F000 && clear (grpWord b g 4) 0xF000F000
    && clear (grpWord b g 5) 0xF8000000 && clear (grpWord b g 6) 0xFFFF0000 && grpWord b g 7 = 0

/-- Address of a housekeeping entry: table entries 0 to 63, injected entries as 64 to 71 (R369). -/
def hkEntAt (b : Bank) (i : Nat) : Nat :=
  if i < 64 then Bank.secOfs b 6 + 0x40 + 8 * i else Bank.secOfs b 6 + 0x240 + 8 * (i - 64)

def hkEntReserved (b : Bank) (i : Nat) : Bool := clear (Bank.u8 b (hkEntAt b i + 1)) 0x80 && zeros b (hkEntAt b i + 6) 2

/-- Reserved bits of a chain body (R193, R195, R197, R200). -/
def chainReserved (b : Bank) (c : Nat) : Bool :=
  let a := Bank.chainAt b c
  zeros b (a + 5) 59 && ((List.range 16).all fun k => clear (Bank.u32 b (Bank.bufAt b c k)) 0x3FFC0000)
    && (List.range (min (Bank.nOps b c) ((Bank.chainBytes b c - 0xC0) / 64))).all fun i =>
      let o := oprOf b c i
      clear o.flags 0xF0 && (!(o.isLoad || o.isStore) || clear (o.u 0) 0xF8000000)

/-- The Piste: its header, then slots, regions (0x2000 + i) and chains (0x1000 + c) of the tables that lie inside the
section (DESIGN CHOICE, log entry 50). -/
def pisteReserved (b : Bank) : Option SetFault :=
  let p := Bank.piste b
  firstFault [
    (if slotTableIn b then needEach (List.range (Bank.nSlots b)) 0x06 0 fun i =>
      clear (Bank.u8 b (Bank.slotAt b i + 3)) 0xFE && zeros b (Bank.slotAt b i + 0x0A) 6 else none),
    (if chainDirIn b then needAll (List.range (Bank.nChains b)) fun c =>
      if chainBodyIn b c then need (chainReserved b c) 0x06 (0x1000 + c) 0 else none else none),
    (if regionTableIn b then needAll (List.range (Bank.nRegions b)) fun i =>
      need (zeros b (Bank.regionAt b i + 0x0B) 5) 0x06 (0x2000 + i) 0 else none),
    need (zeros b (p + 0x17) 1 && zeros b (p + 0x28) 24) 0x06 0xFFFF 0]

def reservedCheck (b : Bank) : Option SetFault :=
  let o := Bank.secOfs b
  firstFault [
    need (zeros b 0x14 12 && zeros b 0xE0 32 && clear (Bank.u32 b 0x10) 0xFFFFFFFE) 0x06 0 0xFF,
    pisteReserved b,
    needEach (List.range 64) 0x06 1 (tileReserved b),
    needEach (List.range 64) 0x06 2 (laneReserved b),
    needEach (List.range 64) 0x06 3 (calReserved b),
    need (zeros b (o 4 + 0x38) 8 && clear (Bank.u8 b (o 4 + 0x0D)) 0xFE) 0x06 0 4,
    needEach (List.range 16) 0x06 5 (groupReserved b),
    need (zeros b (o 5 + 1) 1 && zeros b (o 5 + 4) 12) 0x06 0xFFFF 5,
    needEach (List.range 72) 0x06 6 (hkEntReserved b),
    need (zeros b (o 6 + 6) 58) 0x06 0xFFFF 6,
    needEach (List.range 96) 0x06 7 (fun e => zeros b (o 7 + 8 * e + 2) 6),
    needEach (List.range 64) 0x06 8 (fun k => clear (Bank.u8 b (dbufAt b k + 0x1B)) 0xFC),
    needEach (List.range 12) 0x06 9 (fun p => clear (Bank.u32 b (o 9 + 8 * p + 4)) 0xFFC00000),
    needEach (List.range 32) 0x06 10 (fun m => clear (Bank.u8 b (Bank.strAt b m + 1)) 0xFC && zeros b (Bank.strAt b m + 0x39) 7),
    need (zeros b (o 11 + 0x10) 16) 0x06 0 11,
    need (zeros b (o 12 + 0x2A) 6 && zeros b (o 12 + 0x38) 8) 0x06 0 12]

/-! ### Ranges (reason 0x07) -/

def tileTcfgCount (b : Bank) (t : Nat) : Nat := Bank.u8 b (Bank.tileRec b t + 0x30)

/-- R101, R110, R113, R124, R129, R331. -/
def tileRange (b : Bank) (t : Nat) : Bool :=
  let w := Bank.tileWord b t
  let n := tileTcfgCount b t
  inRange 2 16 (bits (w 0) 12 8) && inRange 1 255 (bits (w 0) 31 24)
    && decide (toSigned 16 (w 0x14) ≤ toSigned 16 (w 0x14 / 65536))
    && inRange 1 64 (bits (w 0x18) 6 0) && decide (bits (w 0x18) 15 12 ≤ 8)
    && decide (bits (w 0x1C) 23 0 ≤ 2097151) && decide (bits (w 0x20) 23 0 ≤ 2097151)
    && inRange 1 63 (bits (w 0x24) 21 16) && decide (bits (w 0x24) 11 0 + 3 * bits (w 0x24) 21 16 ≤ 4095)
    && inRange 65536 262143 (bits (w 0x28) 19 0) && inRange 65536 262143 (bits (w 0x2C) 19 0)
    && decide (n ≤ 32) && (List.range 32).all fun j => decide (j < n) || w (0x100 + 4 * j) = 0

/-- R132, R134: the temporal table's base counts only where TF_EN is 1. -/
def laneRange (b : Bank) (t : Nat) : Bool :=
  let a := Bank.laneRec b t
  let f := Bank.u32 b (a + 0x3C)
  ((tileTables b t).all fun k => mult 64 (Bank.tblBase b t k))
    && ((List.range 5).all fun k => mult 64 (Bank.tblStride b t k) && decide ((if k = 1 then 4096 else 2048) ≤ Bank.tblStride b t k))
    && decide (bits f 3 2 ≤ 2) && inRange 1 8 (bits f 7 4) && inRange 1 256 (Bank.u16 b (a + 0x40))
    && decide (-8388608 ≤ Bank.s32 b (a + 0x44)) && decide (Bank.s32 b (a + 0x44) ≤ 8388607)

def slotOrNone (v : Nat) : Bool := decide (v ≤ 63) || v = 0xFF

/-- R154. -/
def calRange (b : Bank) (t : Nat) : Bool :=
  let a := calRecAt b t
  slotOrNone (Bank.u8 b (a + 0x14)) && slotOrNone (Bank.u8 b (a + 0x15)) && mult 64 (Bank.targetBase b t)

/-- R155. -/
def rotationRange (b : Bank) : Bool :=
  let a := Bank.secOfs b 4
  decide (Bank.u32 b a ≤ 86400) && inRange 8 64 (Bank.u8 b (a + 6)) && inRange 1 64 (Bank.u8 b (a + 7))
    && inRange 2 15 (Bank.u8 b (a + 8)) && inRange 1 15 (Bank.u8 b (a + 9)) && decide (Bank.u8 b (a + 0x0A) ≤ 8)
    && decide (Bank.u8 b (a + 0x0B) ≤ 8) && inRange 1 4 (Bank.u8 b (a + 0x0C))
    && (List.range 4).all fun i => mult 64 (Bank.accSlot b i)

/-- R189. -/
def groupRange (b : Bank) (g : Nat) : Bool :=
  let w := grpWord b g
  inRange 1 2400 (bits (w 0) 11 0) && inRange 1 2400 (bits (w 0) 27 16) && inRange 100 65535 (bits (w 1) 15 0)
    && inRange 100 65535 (bits (w 1) 31 16) && decide (bits (w 2) 15 0 ≤ 65534) && inRange 1 65535 (bits (w 2) 31 16)
    && inRange 1 2400 (bits (w 3) 11 0) && inRange 1 128 (bits (w 3) 23 16) && inRange 2 2450 (bits (w 4) 11 0)
    && inRange 1 2400 (bits (w 4) 27 16) && inRange 1 65535 (bits (w 5) 15 0) && inRange 20 200 (bits (w 5) 23 16)
    && decide (bits (w 5) 26 24 ≤ 4)

def shutHeadRange (b : Bank) : Bool :=
  inRange 1 16 (Bank.u8 b (Bank.secOfs b 5)) && decide (Bank.u16 b (Bank.secOfs b 5 + 2) ≤ 10000)

/-- Entries from N_ENT and N_INJ on are zero (R369). DEDUCED: refused as HK_TABLE between cases 2 and 3 of R371, which has
no case for it (log entry 50). -/
def hkEntRange (b : Bank) (i : Nat) : Bool :=
  let n := Bank.u8 b (Bank.secOfs b 6 + 4)
  let m := Bank.u8 b (Bank.secOfs b 6 + 5)
  (if i < 64 then decide (i < n) else decide (i - 64 < m)) || zeros b (hkEntAt b i) 8

/-- R199: entries 0 to 2 are zero; a defined entry is checked in full. -/
def dbufRange (b : Bank) (k : Nat) : Bool :=
  let d := dbufOf b k
  if k < 3 then zeros b (dbufAt b k) 32
  else !dbufDefined b k || (mult 64 d.base && mult 64 d.slotBytes && mult 64 d.tileBytes && mult 64 d.rowBytes
    && inRange 1 256 d.nSlots)

/-- Classes that R255 allows a port. -/
def rtOnly (p : Nat) : Bool := decide (p < 4) || p = 8

/-- R256. -/
def regulatorRange (b : Bank) (p : Nat) : Bool :=
  let a := Bank.secOfs b 9 + 8 * p
  let w := Bank.u32 b (a + 4)
  decide (Bank.u32 b a ≤ 204800) && decide (64 ≤ w % 2 ^ 20) && decide (bits w 21 20 ≤ 2)

def powerOfTwo (lo hi v : Nat) : Bool := (List.range 33).any fun i => v = 2 ^ i && inRange lo hi v

/-- R290; a descriptor of TYPE 0 is not checked. -/
def streamRange (b : Bank) (m : Nat) : Bool :=
  let ty := Bank.strType b m
  let v := Bank.strVector b m
  let whole := ty = 4 || ty = 5 || ty = 7
  ty = 0 || (decide (ty ≤ 7) && (!Bank.strBlind b m || ty = 2) && (inRange 16 511 v || v = 0xFFFF)
    && inRange 1 4096 (Bank.strIrqEvery b m) && inRange 1 256 (Bank.strDiv b m) && (!whole || Bank.strMask b m = 0)
    && mult 4096 (Bank.strDataBase b m) && mult 4096 (Bank.strDataBytes b m) && mult 64 (Bank.strEntBase b m)
    && powerOfTwo 16 65536 (Bank.strEntries b m) && mult 64 (Bank.strWb b m)
    && (if ty = 5 then inRange 1 65536 (Bank.strParam b m) else if ty = 7 then mult 4096 (Bank.strParam b m)
        else Bank.strParam b m = 0)
    && (if ty = 3 || ty = 4 then inRange 3 63 (Bank.strSrc b m) else Bank.strSrc b m = 0))

/-- R330, with a bit of TABLE_DBUF that names no buffer (R199). -/
def ringsRange (b : Bank) : Bool :=
  mult 64 (Bank.corrBase b) && mult 64 (Bank.rawBase b) && mult 64 (Bank.statsBase b) && mult 64 (Bank.evtBase b)
    && mult 64 (Bank.evtSlotBytes b) && inRange 3 256 (Bank.nCorr b)
    && (if Bank.nRaw b = 0 then Bank.rawBase b = 0 else inRange 3 256 (Bank.nRaw b)) && inRange 3 256 (Bank.nStats b)
    && (List.range 64).all fun k => !namedDbuf b k || (decide (3 ≤ k) && dbufDefined b k)

def rangeCheck (b : Bank) : Option SetFault :=
  let en := Bank.enabledTiles b
  firstFault [
    need (inRange 10000000 1000000000 (Bank.periodNs b) && inRange 5000 50000 (Bank.pclkKhz b)) 0x07 0 0,
    needEach en 0x07 1 (tileRange b),
    needEach en 0x07 2 (laneRange b),
    needEach en 0x07 3 (calRange b),
    need (rotationRange b) 0x07 0 4,
    needEach (List.range 16) 0x07 5 (groupRange b),
    need (shutHeadRange b) 0x07 0xFFFF 5,
    needEach (List.range 96) 0x07 7 (fun e => inRange 100 4000 (dmaMbps b e)),
    needEach (List.range 64) 0x07 8 (dbufRange b),
    needEach (List.range 12) 0x07 9 (regulatorRange b),
    needEach (List.range 32) 0x07 10 (streamRange b),
    need (ringsRange b) 0x07 0 12]

/-! ### Readout, phases, preparation, shutter, rotation (reasons 0x08 to 0x0C) -/


def readoutCheck (b : Bank) : Option SetFault := need (decide (readNs b + 200000 ≤ Bank.periodNs b)) 0x08 0 0

/-- R107 for both taps. -/
def phaseOk (b : Bank) (t : Nat) : Bool :=
  let w := Bank.tileWord b t 8
  let least := ceilDiv (1024 * Bank.pclkKhz b) 1000000
  inRange least 63 (bits w 5 0 + bits w 21 16) && inRange least 63 (bits w 13 8 + bits w 29 24)

/-- prep_ns (R82). -/
def prepNs (b : Bank) (t : Nat) : Nat :=
  let n := tileTcfgCount b t
  let v := ((List.range n).filter fun j => (Bank.tileWord b t (0x100 + 4 * j)).testBit 6).length
  bits (Bank.tileWord b t 0x10) 15 0 * 1000 + ceilDiv (64 * 1000000) (Bank.pclkKhz b) + n * 64000 + v * 80000
    + ceilDiv (32 * 1000000) (Bank.pclkKhz b)

def prepOk (b : Bank) (t : Nat) : Bool :=
  decide (prepNs b t ≤ (bits (Bank.tileWord b t 0) 12 8 - 1) * Bank.periodNs b)

/-- The relations of R175 for a group. -/
def shutterOk (b : Bank) (g : Nat) : Bool :=
  let w := grpWord b g
  let peak := bits (w 0) 11 0
  let hold := bits (w 0) 27 16
  let oc := bits (w 4) 11 0
  decide (hold ≤ peak) && decide (bits (w 4) 27 16 ≤ peak) && decide (peak < oc)
    && decide (bits (w 2) 15 0 < bits (w 2) 31 16) && decide (bits (w 2) 31 16 ≤ bits (w 1) 15 0)
    && decide (bits (w 5) 15 0 ≤ bits (w 1) 15 0) && decide (bits (w 5) 26 24 + 1 < bits (w 5) 23 16)
    && (!(w 3).testBit 27 || decide (3 * hold + peak < oc))
    && (List.range 4).all fun i =>
      let t := 4 * g + i
      !(Bank.enabled b t && (Bank.u8 b (calRecAt b t + 0x16)).testBit 0) || (w 3).testBit (28 + i)

/-- R154: ANCHOR needs a flag slot. -/
def anchorOk (b : Bank) (t : Nat) : Bool :=
  !((Bank.u8 b (calRecAt b t + 0x16)).testBit 1 && Bank.u8 b (calRecAt b t + 0x15) = 0xFF)

def adjRow (b : Bank) (t : Nat) : Nat := Bank.u64 b (Bank.secOfs b 4 + 0x40 + 8 * t)

/-- R155: ADJ is symmetric with a clear diagonal. -/
def adjOk (b : Bank) : Bool :=
  (List.range 64).all fun t => !(adjRow b t).testBit t &&
    (List.range 64).all fun u => (adjRow b t).testBit u = (adjRow b u).testBit t

def rotationCheck (b : Bank) : Option SetFault :=
  firstFault [needEach (Bank.enabledTiles b) 0x0C 3 (anchorOk b), need (adjOk b) 0x0C 0xFFFF 4]

/-! ### The housekeeping table (R371, reason 0x0D) -/

def hkByte (b : Bank) (i j : Nat) : Nat := Bank.u8 b (hkEntAt b i + j)
def hkOw (b : Bank) (i : Nat) : Nat := bits (hkByte b i 1) 2 1
def hkDest (b : Bank) (i : Nat) : Nat := hkByte b i 3
def hkDelay (b : Bank) (i : Nat) : Nat := Bank.u16 b (hkEntAt b i + 4)
def hkN (b : Bank) (i : Nat) : Nat := hkByte b i 2 + 1

/-- The entries of a set in the order of R371: table entries, then injected entries. -/
def hkEntries (b : Bank) : List Nat :=
  List.range (Bank.u8 b (Bank.secOfs b 6 + 4)) ++ (List.range (Bank.u8 b (Bank.secOfs b 6 + 5))).map (64 + ·)

/-- Slots that an enabled tile uses (case 7). -/
def hkUsed (b : Bank) (t : Nat) : List Nat :=
  [Bank.u8 b (calRecAt b t + 0x14), Bank.u8 b (calRecAt b t + 0x15)].filter fun x => x ≠ 0xFF

def hkTicks (b : Bank) : Bool := let a := Bank.secOfs b 6; Bank.u8 b a = 1 && (Bank.u8 b (a + 1) = 1 || Bank.u8 b (a + 1) = 3)

/-- T_c of converter c (R371). -/
def hkTime (b : Bank) (c : Nat) : Nat :=
  (((hkEntries b).filter fun i => (hkByte b i 1) % 2 = c).map fun i =>
    (if i < 64 then hkDelay b i else 0) * 1000 + hkN b i * 1000).sum + 1000

/-- An entry that would be written a second time names itself (case 6). -/
def hkTwice (b : Bank) : List Nat → List Nat → Option Nat
  | _, [] => none
  | seen, i :: r => if hkDest b i ≠ 0xFF && seen.contains (hkDest b i) then some i else hkTwice b (hkDest b i :: seen) r

def hkCheck (b : Bank) : Option SetFault :=
  let a := Bank.secOfs b 6
  let mode := Bank.u8 b a
  let src := Bank.u8 b (a + 1)
  let div := Bank.u16 b (a + 2)
  let es := hkEntries b
  let p := Bank.periodNs b
  let dests := es.map (hkDest b)
  let used := (Bank.enabledTiles b).flatMap (hkUsed b)
  let inj := (es.filter (64 ≤ ·)).map (hkDest b)
  firstFault [
    need (((mode = 0 && src = 0) || (mode = 1 && inRange 1 3 src)) && div ≠ 0) 0x0D 0xFFFF 6,
    need (inRange 1 64 (Bank.u8 b (a + 4)) && decide (Bank.u8 b (a + 5) ≤ 8)) 0x0D 0xFFFF 6,
    needEach (List.range 72) 0x0D 6 (hkEntRange b),
    needEach es 0x0D 6 (fun i => decide (hkByte b i 0 ≤ 47) && decide (hkOw b i ≤ 2) && decide (bits (hkByte b i 1) 6 3 ≤ 8)
      && slotOrNone (hkDest b i)),
    needEach es 0x0D 6 (fun i => hkOw b i = 0 || hkDest b i = 0xFF),
    needEach (es.filter (64 ≤ ·)) 0x0D 6 (fun i => hkOw b i = 0 && hkDelay b i = 0 && decide (hkByte b i 2 ≤ 15)),
    (match hkTwice b [] es with | some i => some ⟨0x0D, i, 6, 0⟩ | none => none),
    needAll (Bank.enabledTiles b) (fun t => need ((hkUsed b t).all fun x => dests.contains x) 0x0D (0x100 + t) 6),
    needAll [0, 1] (fun c => need (
      (mode ≠ 0 || decide (hkTime b c + 1400000 ≤ p)) && (!hkTicks b || decide (hkTime b c + 1400000 ≤ div * p)))
      0x0D (0x200 + c) 6),
    needEach (es.filter (· < 64)) 0x0D 6 (fun i => !(used.contains (hkDest b i) && !inj.contains (hkDest b i))
      || mode = 0 || (hkTicks b && div = 1))]

/-! ### Regions and rings (reasons 0x0E and 0x0F) -/

/-- R30, R477: in order, a region fails that leaves the capacity, touches the reserve or overlaps an earlier one. -/
def regionFault (cap : Nat) : List Region → List Region → Option SetFault
  | _, [] => none
  | before, r :: rest =>
    if r.base < reserveBytes || cap < r.base + r.len || before.any (fun x => x.overlaps r.base r.len)
    then some ⟨0x0E, r.item, r.sec, 0⟩ else regionFault cap (before ++ [r]) rest

def regionCheck (cap : Nat) (b : Bank) : Option SetFault := regionFault cap [] ((setRegions b).filter fun r => r.len ≠ 0)

/-- Sum of P1 over every CLUSTER operator of the Piste's chains (R330). -/
def clusterRecordsMax (b : Bank) : Nat :=
  if chainDirIn b then
    (((List.range (Bank.nChains b)).filter (chainBodyIn b)).map fun c =>
      (((List.range (min (Bank.nOps b c) 64)).map fun i => oprOf b c i).map fun o =>
        if o.opc = 0x16 then o.u 1 else 0).sum).sum
  else 0

/-- R31 and the EVT_SLOT_BYTES bound of R330; the RADIO32 and DISP8 rings are named by their stream (DESIGN CHOICE, log
entry 50). -/
def ringCheck (b : Bank) : Option SetFault :=
  firstFault [
    needEach ((List.range 32).filter fun m => Bank.strType b m = 3 || Bank.strType b m = 4) 0x0F 10 (fun m =>
      !dbufDefined b (Bank.strSrc b m) || decide (2 ≤ (dbufOf b (Bank.strSrc b m)).nSlots)),
    need (decide (3 ≤ Bank.nCorr b)) 0x0F 0 12,
    need (Bank.nRaw b = 0 || decide (3 ≤ Bank.nRaw b)) 0x0F 1 12,
    need (decide (3 ≤ Bank.nStats b)) 0x0F 2 12,
    need (decide (32 * clusterRecordsMax b ≤ Bank.evtSlotBytes b)) 0x0F 3 12]

/-! ### Placement, streams, hold buffer (reasons 0x12 to 0x14) -/

/-- PY and PX of a tile's cell (R232). -/
def cellOf (b : Bank) (t : Nat) : Nat × Nat := (Bank.u16 b (Bank.secOfs b 13 + 4 * t), Bank.u16 b (Bank.secOfs b 13 + 4 * t + 2))

def cellsMeet (x y : Nat × Nat) : Bool :=
  decide (x.1 < y.1 + 768) && decide (y.1 < x.1 + 768) && decide (x.2 < y.2 + 1024) && decide (y.2 < x.2 + 1024)

def placementCheck (b : Bank) : Option SetFault :=
  let en := Bank.enabledTiles b
  needEach en 0x12 13 fun t =>
    let c := cellOf b t
    decide (c.1 + 768 ≤ 6144) && decide (c.2 + 1024 ≤ 8192)
      && (en.filter (· < t)).all fun u => !cellsMeet (cellOf b u) c

/-- Length of a piece of `n` data bytes (R236). -/
def pieceBytes (n : Nat) : Nat := ceilDiv (32 + n) 64 * 64

/-- Worst output of LCOMP in a pass (R210). -/
def lcompWorst (rows cols : Nat) : Nat := 8 + 8 * ceilDiv (rows * ceilDiv cols 32 * 517) 64

/-- Most bytes that the append store i of chain c writes in a pass. -/
def appendMax (b : Bank) (c i : Nat) (g : Pass) : Nat :=
  let o := oprOf b c i
  match ((List.range i).reverse.map fun j => oprOf b c j).find? fun x => x.out = o.in0 with
  | some x =>
    if x.opc = 0x17 then lcompWorst g.rows g.cols else if x.opc = 0x16 then 32 * x.u 1
    else if x.opc = 0x0F then 1024 else if x.opc = 0x10 then 32 else if x.opc = 0x11 then 512
    else g.rows * g.cols * (typeBits o.tin / 8)
  | none => g.rows * g.cols * (typeBits o.tin / 8)

/-- The largest piece that the hold chains of a set can append (R291). -/
def holdPieceMax (b : Bank) : Nat :=
  ((List.range (Bank.nSlots b)).flatMap fun i =>
    let c := Bank.slotChain b i
    (List.range (nPasses b i)).flatMap fun p =>
      ((passOps b i p).filter fun j =>
        let o := oprOf b c j
        o.isStore && o.mode = 3 && (dbufOf b o.dbuf).stream).map fun j => pieceBytes (appendMax b c j (passOf b i p))).foldl max 0

/-- R291. -/
def streamOk (b : Bank) (m : Nat) : Bool :=
  let ty := Bank.strType b m
  let tiles := ty = 1 || ty = 2 || ty = 3 || ty = 6
  ty = 0 || (((Bank.strTiles b m).all fun t => Bank.enabled b t) && (!tiles || Bank.strMask b m ≠ 0)
    && (ty ≠ 1 || Bank.nRaw b ≠ 0)
    && (!(ty = 3 || ty = 4) || dbufDefined b (Bank.strSrc b m))
    && (ty ≠ 7 || (Bank.hasHold b && ((List.range m).all fun j => Bank.strType b j ≠ 7)
      && decide (holdPieceMax b ≤ Bank.strParam b m)))
    && decide (2 * fMax b m ≤ Bank.strDataBytes b m))

/-- R234. -/
def holdOk (b : Bank) : Bool :=
  let h := Bank.holdDbuf b
  let streams := (List.range 64).filter fun k => 3 ≤ k && dbufDefined b k && (dbufOf b k).stream
  inRange 1 16 (Bank.holdDiv b) && inRange 16 65536 (Bank.holdNIdx b) && mult 64 (Bank.holdIndex b)
    && decide (streams = if h = 0xFF then [] else [h])

def holdCheck (b : Bank) : Option SetFault := need (holdOk b) 0x14 0 11

end Sys2Proof.Machine
end

