-- ==== Sys2Proof/Machine/Operators.lean ====
section
/-! DEFINITION. The operator catalogue of the stream engines (08 R195, R196, R198, R202 to R210; 09 R227 to R229) over an
engine's local memory. -/
namespace Sys2Proof.Machine

/-! ### Local memory (R190, R191): bytes written since the period began; the others are free (R38, log entry 7) -/

/-- Write one byte of a sparse list of written bytes, addresses strictly rising. -/
def putByte : List (Nat × Byte) → Nat → Byte → List (Nat × Byte)
  | [], a, v => [(a, v)]
  | (k, c) :: r, a, v => if a < k then (a, v) :: (k, c) :: r else if a = k then (a, v) :: r else (k, c) :: putByte r a v

def putBytes : List (Nat × Byte) → Nat → List Byte → List (Nat × Byte)
  | m, _, [] => m
  | m, a, v :: r => putBytes (putByte m a v) (a + 1) r

def lmemByteOf (e : Nat) (x : Eng) (a : Nat) : Byte :=
  match x.lmem.find? fun p => p.1 = a with
  | some p => p.2
  | none => Config.lmemByte x.lmemEpoch e a

def lmemBytes (e : Nat) (x : Eng) (a n : Nat) : List Byte := (List.range n).map fun i => lmemByteOf e x (a + i)
def lmemPut (x : Eng) (a : Nat) (bs : List Byte) : Eng := { x with lmem := putBytes x.lmem a bs }

/-! ### The operator at hand -/

/-- What an operator runs under: the set, slot, chain, operator index and descriptor, pass, engine, whether the region
is gated, the region's status byte, and the SFN that outputs of the frame carry. -/
structure OpCtx where
  b : Bank
  e : Nat
  slot : Nat
  c : Nat
  i : Nat
  o : Opr
  passNo : Nat
  g : Pass
  status : BitVec 8
  sfn : Sfn
  free : Nat

/-- The region's frame has VALID clear and the operator is marked GATE (R198). -/
def OpCtx.gated (x : OpCtx) : Bool := x.o.gate && x.g.tile < 64 && !x.status.getLsbD 0

/-- An operator reads buffer k or leaves elements of it as they are, so that the operand there stays where it lies: one
that works in place (R202), or a WARP, which leaves elements of its output unchanged (R205). -/
def Opr.keeps (o : Opr) (k : Nat) : Bool := o.opc = 0x0E || o.in0 = k || o.in1 = k || o.in2 = k

/-- The LOAD with explicit geometry whose operand buffer k holds after the first `i` operators of a chain, if it holds
one: such an operand has no halo shift (R196). DEDUCED: log entry 149. -/
def explicitLoad (b : Bank) (c : Nat) : Nat → Nat → Option Opr
  | 0, _ => none
  | i + 1, k =>
    let o := oprOf b c i
    if o.isLoad then (if o.out = k then (if o.mode = 1 then some o else none) else explicitLoad b c i k)
    else if !o.isStore && (o.out = k || o.out2 = k) && !o.keeps k then none
    else explicitLoad b c i k

/-- Bit address of element (y, x) of a buffer as it stands after `i` operators (R196): a linear buffer holds its elements packed in row-major order
(DEDUCED, log entry 21). -/
def OpCtx.bitAddr (x : OpCtx) (i k ty : Nat) (y c : Int) : Nat :=
  let base : Int := Bank.lofs x.b x.c k * 8
  let pitch : Int := Bank.bufPitch x.b x.c k * 8
  let sz : Int := typeBits ty
  let h : Int := x.g.halo
  let a : Int :=
    if Bank.bufLinear x.b x.c k then base + (y * x.g.cols + c) * sz
    else if (explicitLoad x.b x.c i k).isSome then base + y * pitch + c * sz
    else base + (y + h) * pitch + (c + h) * sz
  a.toNat

/-- The raw bits of an element. -/
def OpCtx.raw (x : OpCtx) (m : Eng) (k ty : Nat) (y c : Int) : Nat :=
  let a := x.bitAddr x.i k ty y c
  if typeBits ty = 1 then ((lmemByteOf x.e m (a / 8)).toNat.testBit (a % 8)).toNat
  else leNat (lmemBytes x.e m (a / 8) (typeBits ty / 8))

/-- The value of raw bits of a type (R197). -/
def typeVal (ty raw : Nat) : Int := if typeSigned ty then toSigned (typeBits ty) raw else raw

/-- Write the low bits of a value to an element of the operator's output. -/
def OpCtx.put (x : OpCtx) (k ty : Nat) (y c v : Int) (m : Eng) : Eng :=
  let a := x.bitAddr (x.i + 1) k ty y c
  if typeBits ty = 1 then
    let old := (lmemByteOf x.e m (a / 8)).toNat
    let bit := 2 ^ (a % 8)
    let cleared := if old.testBit (a % 8) then old - bit else old
    lmemPut m (a / 8) [BitVec.ofNat 8 (if v % 2 = 0 then cleared else cleared + bit)]
  else lmemPut m (a / 8) (leInt (typeBits ty / 8) v)

/-- An element that the checks of R198 make invalid. -/
def OpCtx.invalid (x : OpCtx) (ty raw : Nat) : Bool :=
  x.gated || (x.o.checkInv && ((ty = 1 && raw = 0xFFFF) || (ty = 3 && raw = 0xFFFFFFFF)))

/-- An element as a value; none when it is invalid. -/
def OpCtx.get (x : OpCtx) (m : Eng) (k ty : Nat) (y c : Int) : Option Int :=
  let r := x.raw m k ty y c
  if x.invalid ty r then none else some (typeVal ty r)

/-- A result is clamped to the output type, and away from the invalid codes under CHECK_INV (R198). -/
def clampType (ty : Nat) (inv : Bool) (v : Int) : Int :=
  match ty with
  | 0 => clamp v 0 0xFF
  | 1 => clamp v 0 (if inv then 0xFFFE else 0xFFFF)
  | 2 => clamp v (-32768) 32767
  | 3 => clamp v 0 (if inv then 0xFFFFFFFE else 0xFFFFFFFF)
  | 4 => clamp v (-2147483648) 2147483647
  | _ => clamp v 0 1

/-- Write a result to the output element, INV for an invalid one (R198). -/
def OpCtx.result (x : OpCtx) (y c : Int) (r : Option Int) (m : Eng) : Eng :=
  match r with
  | some v => x.put x.o.out x.o.tout y c (clampType x.o.tout x.o.checkInv v) m
  | none => x.put x.o.out x.o.tout y c (x.o.u 13) m

/-- Run a function over the elements of a rectangle of `rows` by `cols`, row by row. -/
def overRect (rows cols : Nat) (f : Int → Int → Eng → Eng) (m : Eng) : Eng :=
  forEach (List.range rows) (fun y => forEach (List.range cols) fun c => f y c) m

def OpCtx.over (x : OpCtx) (f : Int → Int → Eng → Eng) (m : Eng) : Eng := overRect x.g.rows x.g.cols f m

/-- A parameter as the output type reads it. -/
def OpCtx.par (x : OpCtx) (j : Nat) : Int := if typeSigned x.o.tout then x.o.s j else x.o.u j

/-! ### Element-wise operators (R202, R203) -/

/-- One input, one output. -/
def OpCtx.map1 (x : OpCtx) (f : Int → Int) (m : Eng) : Eng :=
  x.over (fun y c m => x.result y c ((x.get m x.o.in0 x.o.tin y c).map f) m) m

/-- Two inputs, one output. -/
def OpCtx.map2 (x : OpCtx) (f : Int → Int → Int) (m : Eng) : Eng :=
  x.over (fun y c m => x.result y c
    (match x.get m x.o.in0 x.o.tin y c, x.get m x.o.in1 x.o.tin y c with
     | some a, some b => some (f a b)
     | _, _ => none) m) m

def opFill (x : OpCtx) (m : Eng) : Eng := x.over (fun y c => x.result y c (some (x.par 0))) m

def opCopy (x : OpCtx) (m : Eng) : Eng :=
  x.map1 (fun v => if x.o.tout = 5 then (if v = 0 then 0 else 1) else rndShr v (x.o.u 0)) m

def opAffine (x : OpCtx) (m : Eng) : Eng :=
  x.map1 (fun v => clamp (rndShr (v * x.o.s 0 + x.o.s 1) (x.o.u 2)) (x.par 3) (x.par 4)) m

/-- BINARY (R202): a OR (b << P1) is taken on the bits of both. -/
def binaryFn (mode sh : Nat) (a b : Int) : Int :=
  match mode with
  | 0 => a + b
  | 1 => a - b
  | 2 => min a b
  | 3 => max a b
  | 4 => (a - b).natAbs
  | 5 => rndShr (a + b) 1
  | 6 => rndShr (a * b) sh
  | _ => ((wrap 64 a ||| wrap 64 (b * 2 ^ sh) : Nat) : Int)

/-- A result of mode 7 is read back as signed where the output type is. -/
def opBinary (x : OpCtx) (m : Eng) : Eng :=
  x.map2 (fun a b =>
    let v := binaryFn (x.o.u 0) (x.o.u 1) a b
    if x.o.u 0 = 7 && typeSigned x.o.tout then toSigned 64 v.toNat else v) m

def opSelect (x : OpCtx) (m : Eng) : Eng :=
  x.over (fun y c m => x.result y c
    (if x.gated then none
     else if x.raw m x.o.in2 5 y c ≠ 0 then x.get m x.o.in0 x.o.tin y c else x.get m x.o.in1 x.o.tin y c) m) m

/-- Entry j of a table placed linearly in a buffer. -/
def OpCtx.entry (x : OpCtx) (m : Eng) (k ty j : Nat) : Int :=
  typeVal ty (leNat (lmemBytes x.e m (Bank.lofs x.b x.c k + j * (typeBits ty / 8)) (typeBits ty / 8)))

/-- LUT_INTERP (R203). -/
def lutInterp (t : Nat → Int) (v : Nat) : Int :=
  let j := v / 257
  if j = 255 then t 255 else t j + rndDiv ((t (j + 1) - t j) * (v % 257 : Nat)) 257

/-- DRAM buffer of the form of the radiometric table (09 R217). -/
def radioTable (d : DBuf) : Bool := d.nSlots = 1 && d.tileBytes = 2048 && !d.writable

/-- The largest value that 09 R217 allows a table entry at local byte `a`, where a linear LOAD of the radiometric table
by an operator before this one brought it in. -/
def OpCtx.radioMax (x : OpCtx) (a : Nat) : Option Nat :=
  ((List.range x.i).reverse.map fun j => oprOf x.b x.c j).findSome? fun o =>
    let l := Bank.lofs x.b x.c o.out
    if o.isLoad && o.mode = 2 && radioTable (dbufOf x.b o.dbuf) && decide (l ≤ a) && decide (a < l + o.u 2) then
      some (if o.u 1 + (a - l) < 0x400 then 16777215 else 15)
    else none

/-- Entry j of the table is a radiometric entry outside its range: what it reaches is undefined (09 R217). -/
def OpCtx.badEntry (x : OpCtx) (m : Eng) (j : Nat) : Bool :=
  match x.radioMax (Bank.lofs x.b x.c x.o.in1 + 4 * j) with
  | some n => x.o.tout = 3 && decide ((n : Int) < x.entry m x.o.in1 3 j)
  | none => false

/-- The free value of element (y, c) of the operator at hand: log entry 10. -/
def OpCtx.freeAt (x : OpCtx) (y c : Int) : Int :=
  ((Config.word (x.free + 32 + y.toNat * x.g.cols + c.toNat)).toNat : Int)

def opLut (x : OpCtx) (m : Eng) : Eng :=
  let src := m
  x.over (fun y c m => x.result y c
    ((x.get m x.o.in0 x.o.tin y c).map fun v =>
      let j := v.toNat / 257
      if x.badEntry src j || (j ≠ 255 && x.badEntry src (j + 1)) then x.freeAt y c
      else lutInterp (x.entry src x.o.in1 x.o.tout) v.toNat) m) m

def opThresh (x : OpCtx) (m : Eng) : Eng :=
  x.over (fun y c m => x.put x.o.out 5 y c
    (match x.get m x.o.in0 x.o.tin y c with
     | some v =>
       let lo : Int := if typeSigned x.o.tin then x.o.s 0 else x.o.u 0
       let hi : Int := if typeSigned x.o.tin then x.o.s 1 else x.o.u 1
       if lo ≤ v ∧ v ≤ hi then 1 else 0
     | none => 0) m) m

def maskFn (mode : Nat) (a b : Int) : Int :=
  let p := a ≠ 0
  let q := b ≠ 0
  let r : Bool := match mode with
    | 0 => p && q
    | 1 => p || q
    | 2 => p && !q
    | 3 => p != q
    | _ => !p
  if r then 1 else 0

/-- MASKOP: NOT takes one input. -/
def opMask (x : OpCtx) (m : Eng) : Eng :=
  if x.o.u 0 = 4 then x.map1 (fun a => maskFn 4 a 0) m else x.map2 (maskFn (x.o.u 0)) m

/-! ### Neighbourhood operators (R204) -/

/-- Kernel entries: P0 to P4 hold ten of them. Of CONV5's twenty-five the manual places no more than these, and the
others are free (log entry 22). -/
def OpCtx.kernel (x : OpCtx) (j : Nat) : Int :=
  if j < 10 then toSigned 16 (x.o.u (j / 2) / 2 ^ (16 * (j % 2)))
  else toSigned 16 (Config.word (x.free + j)).toNat

def opConv (x : OpCtx) (n : Nat) (m : Eng) : Eng :=
  let r : Int := (n / 2 : Nat)
  let src := m
  x.over (fun y c m => x.result y c
    ((x.get src x.o.in0 x.o.tin y c).map fun v =>
      let sum := ((List.range (n * n)).map fun j =>
        let q := x.get src x.o.in0 x.o.tin (y + (j / n : Nat) - r) (c + (j % n : Nat) - r)
        x.kernel j * q.getD v).sum
      clamp (rndShr (sum + x.o.s 6) (x.o.u 5)) (x.par 7) (x.par 8)) m) m

/-- The nine elements about (y, c). -/
def OpCtx.nine (x : OpCtx) (m : Eng) (y c : Int) : List Int :=
  (List.range 9).filterMap fun j =>
    x.get m x.o.in0 x.o.tin (y + (j / 3 : Nat) - 1) (c + (j % 3 : Nat) - 1)

def opMedian (x : OpCtx) (m : Eng) : Eng :=
  let src := m
  x.over (fun y c m =>
    let s := (x.nine src y c).insertionSort (· ≤ ·)
    x.result y c (if s.isEmpty then none else s[(s.length - 1) / 2]?) m) m

def opMorph (x : OpCtx) (m : Eng) : Eng :=
  let src := m
  x.over (fun y c m =>
    let l := x.nine src y c
    let l := if x.o.tin = 5 then
      (List.range 9).map fun j => ((x.raw src x.o.in0 5 (y + (j / 3 : Nat) - 1) (c + (j % 3 : Nat) - 1) : Nat) : Int) else l
    x.result y c (match l with
      | [] => none
      | a :: r => some (r.foldl (if x.o.u 0 = 0 then max else min) a)) m) m

/-- DOWN2: the output rectangle has half the rows and columns. -/
def opDown (x : OpCtx) (m : Eng) : Eng :=
  let src := m
  overRect (x.g.rows / 2) (x.g.cols / 2) (fun y c m =>
    let l := (List.range 4).filterMap fun j => x.get src x.o.in0 x.o.tin (2 * y + (j / 2 : Nat)) (2 * c + (j % 2 : Nat))
    x.result y c (if l.isEmpty then none else some (rndDiv l.sum l.length)) m) m

/-! ### WARP (R205) -/

/-- One tap of the source: its row and column, its weight. Invalid outside P0 rows and P1 columns. -/
def OpCtx.tap (x : OpCtx) (m : Eng) (iy ix : Int) : Option Int :=
  if iy < 0 || (x.o.u 0 : Int) ≤ iy || ix < 0 || (x.o.u 1 : Int) ≤ ix then none else x.get m x.o.in0 x.o.tin iy ix

def opWarp (x : OpCtx) (m : Eng) : Eng :=
  let src := m
  x.over (fun y c m =>
    let e := x.raw src x.o.in1 3 y c
    if e = 0x80008000 then m
    else
      let mx := toSigned 16 e
      let my := toSigned 16 (e / 65536)
      let ix := sar mx 4
      let fx := mx % 16
      let iy := sar my 4
      let fy := my % 16
      let taps : List (Int × Option Int) :=
        [((16 - fx) * (16 - fy), x.tap src iy ix), (fx * (16 - fy), x.tap src iy (ix + 1)),
         ((16 - fx) * fy, x.tap src (iy + 1) ix), (fx * fy, x.tap src (iy + 1) (ix + 1))]
      let bad := taps.any fun p => decide (0 < p.1) && p.2.isNone
      x.result y c (if bad then none else some (rndShr ((taps.map fun p => p.1 * p.2.getD 0).sum) 8)) m) m

/-! ### HIST, STATS, TONECURVE (R202, R206) -/

/-- Add to a little-endian field of `n` bytes in a buffer. -/
def OpCtx.addField (x : OpCtx) (k ofs n v : Nat) (m : Eng) : Eng :=
  let a := Bank.lofs x.b x.c k + ofs
  lmemPut m a (leBytes n (leNat (lmemBytes x.e m a n) + v))
def OpCtx.field (x : OpCtx) (m : Eng) (k ofs n : Nat) : Nat := leNat (lmemBytes x.e m (Bank.lofs x.b x.c k + ofs) n)
def OpCtx.setField (x : OpCtx) (k ofs n v : Nat) (m : Eng) : Eng :=
  lmemPut m (Bank.lofs x.b x.c k + ofs) (leBytes n v)

def opHist (x : OpCtx) (m : Eng) : Eng :=
  x.over (fun y c m => match x.get m x.o.in0 x.o.tin y c with
    | some v => x.addField x.o.out (4 * min (v.toNat / 2 ^ x.o.u 0) 255) 4 1 m
    | none => m) m

def opStats (x : OpCtx) (m : Eng) : Eng :=
  x.over (fun y c m => match x.get m x.o.in0 x.o.tin y c with
    | some v =>
      let m := x.addField x.o.out 0x10 8 v.toNat (x.addField x.o.out 0 4 1 m)
      let m := if v.toNat < x.field m x.o.out 8 2 then x.setField x.o.out 8 2 v.toNat m else m
      if x.field m x.o.out 0xA 2 < v.toNat then x.setField x.o.out 0xA 2 v.toNat m else m
    | none => x.addField x.o.out 4 4 1 m) m

/-- t[j] of TONECURVE. -/
def toneEntry (h : List Nat) (clip lo hi j : Nat) : Int :=
  let cs := h.map fun v => if clip = 0 then v else min v clip
  let total := cs.sum
  if total = 0 then lo + rndDiv (j * ((hi : Int) - lo)) 255
  else lo + rndDiv (((cs.take (j + 1)).sum : Int) * ((hi : Int) - lo)) total

def opTone (x : OpCtx) (m : Eng) : Eng :=
  let h := (List.range 256).map fun j => x.field m x.o.in0 (4 * j) 4
  let t := (List.range 256).flatMap fun j => leInt 2 (toneEntry h (x.o.u 0) (x.o.u 1) (x.o.u 2) j)
  lmemPut m (Bank.lofs x.b x.c x.o.out) t

/-! ### ROR, LABEL and CLUSTER (R207 to R209, R227 to R229) -/

/-- One pixel of ROR: the new state and whether it is a candidate. -/
def rorPixel (v st af as_ thr floor : Nat) (reset : Bool) : Nat × Bool :=
  if reset then (0xFFFFFFFF, false)
  else if v = 0xFFFF then (st, false)
  else
    let f : Int := if st = 0xFFFFFFFF then v else (st % 65536 : Nat) + rndShr (((v : Int) - (st % 65536 : Nat)) * af) 8
    let s : Int := if st = 0xFFFFFFFF then v else (st / 65536 : Nat) + rndShr (((v : Int) - (st / 65536 : Nat)) * as_) 8
    (s.toNat * 65536 + f.toNat, decide (f - s > thr) && decide (floor ≤ v))

/-- A run of candidates (R207). -/
structure Run where
  row : Nat
  c0 : Nat
  c1 : Nat
  peak : Nat
  rise : Nat
  tile : Nat
  label : Nat
  deriving DecidableEq, Repr

def runBytes (r : Run) : List Byte :=
  [r.row, r.c0, r.c1, r.peak, r.rise, r.tile, r.label, 0].flatMap fun v => leBytes 2 v

def runOf (l : List Byte) : Run :=
  let f (k : Nat) : Nat := leNat ((l.drop (2 * k)).take 2)
  { row := f 0, c0 := f 1, c1 := f 2, peak := f 3, rise := f 4, tile := f 5, label := f 6 }

/-- The runs of one row of (f, s, candidate) triples, from column `c` on. -/
def rowRuns (tile row : Nat) : Nat → Option Run → List (Nat × Nat × Bool) → List Run
  | _, none, [] => []
  | _, some r, [] => [r]
  | c, cur, (f, s, true) :: l =>
    let r := match cur with
      | some r => { r with c1 := c, peak := max r.peak f, rise := max r.rise (f - s) }
      | none => { row, c0 := c, c1 := c, peak := f, rise := f - s, tile, label := 0 }
    rowRuns tile row (c + 1) (some r) l
  | c, none, (_, _, false) :: l => rowRuns tile row (c + 1) none l
  | c, some r, (_, _, false) :: l => r :: rowRuns tile row (c + 1) none l

/-- Append a run to a run list; once the count reaches RUNS_MAX nothing more is appended and the overflow flag is set
(R207; log entry 23). -/
def appendRun (x : OpCtx) (k cap : Nat) (r : Run) (m : Eng) : Eng :=
  let n := x.field m k 0 4
  if cap ≤ n then x.setField k 4 4 1 m
  else
    let m := x.setField k 0 4 (n + 1) (lmemPut m (Bank.lofs x.b x.c k + 16 + 16 * n) (runBytes r))
    if n + 1 = cap then x.setField k 4 4 1 m else m

def opRor (x : OpCtx) (m : Eng) : Eng :=
  let o := x.o
  let reset := (BitVec.ofNat 8 (o.u 4) &&& x.status ≠ 0#8) && x.g.tile < 64
  let m := forEach (List.range x.g.rows) (fun y m =>
    let px := (List.range x.g.cols).map fun (c : Nat) =>
      let v := match x.get m o.in0 1 y c with | some v => v.toNat | none => 0xFFFF
      rorPixel v (x.raw m o.in1 3 y c) (o.u 0) (o.u 1) (o.u 2) (o.u 3) reset
    let m := forEach px.zipIdx (fun p m =>
      x.put o.out2 5 y p.2 (if p.1.2 then 1 else 0) (x.put o.out 3 y p.2 p.1.1 m)) m
    let runs := rowRuns x.g.tile (x.g.row0 + x.g.first + y) x.g.col0 none
      (px.map fun p => (p.1 % 65536, p.1 / 65536, p.2))
    forEach runs (appendRun x o.in2 (o.u 5)) m) m
  if x.field m o.in2 4 4 ≠ 0 then
    { m with runOvf := if m.runCapped then m.runOvf else satInc m.runOvf, runCapped := true, capSeen := true }
  else m

/-- The runs of a run list. -/
def OpCtx.runs (x : OpCtx) (m : Eng) (k : Nat) : List Run :=
  (List.range (x.field m k 0 4)).map fun j =>
    runOf (lmemBytes x.e m (Bank.lofs x.b x.c k + 16 + 16 * j) 16)

/-- Two runs are joined (R208). -/
def runsJoin (a b : Run) : Bool :=
  a.tile = b.tile &&
    (((a.row = b.row + 1 || b.row = a.row + 1) && a.c0 ≤ b.c1 + 1 && b.c0 ≤ a.c1 + 1)
      || (a.row = b.row && (a.c1 + 1 = b.c0 || b.c1 + 1 = a.c0)))

/-- One round of labelling: each run takes the least label of those joined to it. -/
def labelRound (l : List Run) : List Run :=
  l.map fun a => { a with label := (l.filter fun b => runsJoin a b).foldl (fun n b => min n b.label) a.label }

/-- Sort, index and label runs (R208). -/
def labelRuns (l : List Run) : List Run :=
  let s := l.insertionSort fun a b =>
    a.tile < b.tile || (a.tile = b.tile && (a.row < b.row || (a.row = b.row && a.c0 ≤ b.c0)))
  let s := s.zipIdx.map fun p => { p.1 with label := p.2 }
  (List.range s.length).foldl (fun s _ => labelRound s) s

def opLabel (x : OpCtx) (m : Eng) : Eng :=
  let o := x.o
  let ks := (List.range (o.u 0)).map fun j => o.in0 + j
  let all := ks.flatMap fun k => x.runs m k
  let ovf := decide (o.u 1 < all.length) || ks.any fun k => x.field m k 4 4 ≠ 0
  let l := labelRuns (all.take (o.u 1))
  let m := x.setField o.out 4 4 ovf.toNat (x.setField o.out 0 4 l.length m)
  lmemPut m (Bank.lofs x.b x.c o.out + 16) (l.flatMap runBytes)

/-- The records of CLUSTER and whether it overflowed. -/
def clusterRecords (o : Opr) (sfn : Sfn) (tile : Nat) (runs : List Run) (inOvf : Bool) : List (List Byte) × Bool :=
  let labels := (runs.map fun r => r.label).dedup.insertionSort (· ≤ ·)
  let areaOf (g : List Run) : Nat := (g.map fun r => r.c1 + 1 - r.c0).sum
  let groups := (labels.map fun n => runs.filter fun r => r.label = n).filter fun g => o.u 0 ≤ areaOf g
  let ovf := inOvf || decide (o.u 1 < groups.length)
  let kept := groups.take (o.u 1)
  let mk (t idx rmin cmin rmax cmax area peak rise n : Nat) : List Byte :=
    leBytes 4 sfn.toNat ++ [BitVec.ofNat 8 t, BitVec.ofNat 8 ovf.toNat] ++ leBytes 2 idx ++ leBytes 2 rmin
      ++ leBytes 2 cmin ++ leBytes 2 rmax ++ leBytes 2 cmax ++ leBytes 4 area ++ leBytes 4 peak ++ leBytes 2 rise
      ++ leBytes 2 n ++ leBytes 4 0
  let tileOf (g : List Run) : Nat := match g with | r :: _ => r.tile | [] => tile
  let recs := kept.zipIdx.map fun p =>
    let g := p.1
    let peak := (g.map fun r => r.peak).foldl max 0
    let idx := ((kept.take p.2).filter fun h => tileOf h = tileOf g).length
    mk (tileOf g) idx ((g.map fun r => r.row).foldl min 0xFFFF) ((g.map fun r => r.c0).foldl min 0xFFFF)
      ((g.map fun r => r.row).foldl max 0) ((g.map fun r => r.c1).foldl max 0) (areaOf g)
      (clamp (rndShr ((peak : Int) * o.s 2 + o.s 3) (o.u 4)) 0 (o.u 5)).toNat
      ((g.map fun r => r.rise).foldl max 0) g.length
  (if recs.isEmpty && ovf then [mk tile 0 0 0 0 0 0 0 0 0] else recs, ovf)

def opCluster (x : OpCtx) (m : Eng) : Eng :=
  let o := x.o
  let (recs, ovf) := clusterRecords o x.sfn x.g.tile (x.runs m o.in0) (x.field m o.in0 4 4 ≠ 0)
  let bytes := recs.flatMap id
  let m := lmemPut m (Bank.lofs x.b x.c o.out) bytes
  let m := { m with produced := (o.out, bytes.length) :: m.produced.filter fun p => p.1 ≠ o.out }
  if ovf then
    { m with clOvf := if m.clCapped then m.clOvf else satInc m.clOvf, clCapped := true, capSeen := true, ovfNow := true }
  else m

/-! ### LCOMP (R210) -/

/-- `n` bits of a value, most significant first. -/
def msbBits (n v : Nat) : List Bool := (List.range n).reverse.map fun i => v.testBit i

/-- Bits of a block under code k. -/
def blockSize (k : Nat) (us : List Nat) : Nat :=
  if k = 16 then 16 * us.length else (us.map fun u => u / 2 ^ k + 1 + k).sum

/-- The code with the fewest bits, the lowest on a tie. -/
def blockCode (us : List Nat) : Nat :=
  (List.range 17).foldl (fun best k => if blockSize k us < blockSize best us then k else best) 0

def blockBits (us : List Nat) : List Bool :=
  let k := blockCode us
  msbBits 5 k ++ us.flatMap fun u =>
    if k = 16 then msbBits 16 u else List.replicate (u / 2 ^ k) true ++ [false] ++ msbBits k (u % 2 ^ k)

/-- u of an element and its prediction. -/
def residual (v pred : Nat) : Nat :=
  let d := toSigned 16 ((v + 65536 - pred) % 65536)
  if 0 ≤ d then (2 * d).toNat else (-2 * d - 1).toNat

/-- The residuals of a row, given the prediction of its first element. -/
def rowResiduals : Nat → List Nat → List Nat
  | _, [] => []
  | p, v :: r => residual v p :: rowResiduals v r

/-- The payload bits of rows of elements; `above` predicts the first element. -/
def lcompBits : Nat → List (List Nat) → List Bool
  | _, [] => []
  | above, row :: r =>
    ((chunks row.length 32 (rowResiduals above row)).flatMap blockBits) ++ lcompBits (row.headD 0) r

/-- Bits packed most significant first into bytes, padded with zeros to a multiple of `8` bytes. -/
def packBits (l : List Bool) : List Byte :=
  let l := l ++ List.replicate (ceilDiv l.length 64 * 64 - l.length) false
  (chunks l.length 8 l).map fun c => BitVec.ofNat 8 (c.foldl (fun a x => 2 * a + x.toNat) 0)

/-- LCOMP of a pass (R210). -/
def lcomp (rows : List (List Nat)) : List Byte :=
  let p := packBits (lcompBits 0 rows)
  leBytes 4 p.length ++ leBytes 2 rows.length ++ leBytes 2 (rows.headD []).length ++ p

def opLcomp (x : OpCtx) (m : Eng) : Eng :=
  let rows := (List.range x.g.rows).map fun (y : Nat) => (List.range x.g.cols).map fun (c : Nat) => x.raw m x.o.in0 1 y c
  let out := lcomp rows
  let m := lmemPut m (Bank.lofs x.b x.c x.o.out) out
  { m with produced := (x.o.out, out.length) :: m.produced.filter fun p => p.1 ≠ x.o.out }

/-! ### The catalogue (R202), less LOAD and STORE -/

/-- Run a compute operator over local memory. -/
def compute (x : OpCtx) (m : Eng) : Eng :=
  match x.o.opc with
  | 0x03 => opFill x m
  | 0x04 => opCopy x m
  | 0x05 => opAffine x m
  | 0x06 => opBinary x m
  | 0x07 => opSelect x m
  | 0x08 => opLut x m
  | 0x09 => opConv x 3 m
  | 0x0A => opConv x 5 m
  | 0x0B => opMedian x m
  | 0x0C => opMorph x m
  | 0x0D => opDown x m
  | 0x0E => opWarp x m
  | 0x0F => opHist x m
  | 0x10 => opStats x m
  | 0x11 => opTone x m
  | 0x12 => opThresh x m
  | 0x13 => opMask x m
  | 0x14 => opRor x m
  | 0x15 => opLabel x m
  | 0x16 => opCluster x m
  | 0x17 => opLcomp x m
  | _ => m

end Sys2Proof.Machine
end

