-- ==== Sys2Proof/Machine/ConfigChain.lean ====
section
/-! DEFINITION. The checks of COMMIT_SHADOW on the Piste (02 R41 to R44, reason 0x10) and on the chains that its slots run
(08 R193 to R212, 09 R228, reason 0x11). -/
namespace Sys2Proof.Machine

/-! ### The Piste -/

/-- Two spans of bytes do not meet; an empty one meets nothing. -/
def apart (x y : Nat × Nat) : Bool :=
  x.2 = 0 || y.2 = 0 || decide (x.1 + x.2 ≤ y.1) || decide (y.1 + y.2 ≤ x.1)

/-- The chain table: its directory and the bodies it names (R41). -/
def chainTable (b : Bank) : List (Nat × Nat) :=
  (Bank.chainOfs b, 8 * Bank.nChains b) :: (List.range (Bank.nChains b)).map (chainBody b)

/-- The tables lie inside the section and apart from each other (R41). -/
def tablesPlaced (b : Bank) : Bool :=
  let slots := (Bank.slotOfs b, 16 * Bank.nSlots b)
  let regs := (Bank.regionOfs b, 16 * Bank.nRegions b)
  let quiet := (Bank.quietOfs b, 8 * Bank.nQuiet b)
  let chains := chainTable b
  ([slots, regs, quiet] ++ chains).all (fun x => pisteInside b x.1 x.2)
    && apart slots regs && apart slots quiet && apart regs quiet
    && chains.all fun x => apart x slots && apart x regs && apart x quiet

def pisteHeaderOk (b : Bank) : Bool :=
  let p := Bank.piste b
  Bank.u32 b p = 0x45545350 && Bank.u16 b (p + 4) = 1 && Bank.u16 b (p + 6) = 64 && decide (Bank.nSlots b ≤ 4096)
    && decide (Bank.nChains b ≤ 1024) && decide (Bank.nRegions b ≤ 2048) && decide (Bank.nQuiet b ≤ 4)
    && mult 16 (Bank.slotOfs b) && mult 16 (Bank.chainOfs b) && mult 16 (Bank.regionOfs b) && mult 8 (Bank.quietOfs b)
    && tablesPlaced b

/-- The slots that must end before slot i starts: the one before it on its engine, and those that signal its barrier
(R42). -/
def slotNeeds (b : Bank) (i : Nat) : List Nat :=
  (match prevSlot b i with | some j => [j] | none => []) ++ signallers b (Bank.slotWait b i)

/-- Every slot that ends before slot i starts, i among them where the barriers form a cycle with engine order. -/
def slotsBefore (b : Bank) (i : Nat) : List Nat :=
  (List.range (Bank.nSlots b)).foldl (fun l _ => (l ++ l.flatMap (slotNeeds b)).dedup) (slotNeeds b i)

def barrierField (v : Nat) : Bool := decide (v ≤ 63) || v = 0xFF

/-- R42: fields in range, ORDER unique per engine, no cycle. -/
def slotOk (b : Bank) (i : Nat) : Bool :=
  decide (Bank.slotEng b i ≤ 95) && barrierField (Bank.slotWait b i) && barrierField (Bank.slotSignal b i)
    && decide (Bank.slotChain b i < Bank.nChains b) && decide (Bank.slotRegion b i < Bank.nRegions b)
    && ((List.range i).all fun j => !(Bank.slotEng b j = Bank.slotEng b i && Bank.slotOrder b j = Bank.slotOrder b i))
    && !(slotsBefore b i).contains i

/-- R43. -/
def regionOk (b : Bank) (r : Nat) : Bool :=
  let t := Bank.regTile b r
  (decide (t ≤ 63) || t = 0xFF) && decide (Bank.regSource b r ≤ 1) && decide (Bank.regHalo b r ≤ 2)
    && (t = 0xFF || (inRange 1 768 (Bank.regRows b r) && inRange 1 1024 (Bank.regCols b r)
      && decide (Bank.regRow0 b r + Bank.regRows b r ≤ 768) && decide (Bank.regCol0 b r + Bank.regCols b r ≤ 1024)))

/-- R44. -/
def windowOk (b : Bank) (i : Nat) : Bool :=
  let w := Bank.quiet b i
  inRange 50000 1000000 w.2 && decide (readNs b + 10000 ≤ w.1) && decide (w.1 + w.2 + 20000 ≤ Bank.periodNs b)
    && (List.range i).all fun j => apart (Bank.quiet b j) w

def pisteCheck (b : Bank) : Option SetFault :=
  firstFault [
    need (pisteHeaderOk b) 0x10 0xFFFF 0,
    needEach (List.range (Bank.nSlots b)) 0x10 0 (slotOk b),
    needAll (List.range (Bank.nRegions b)) (fun r => need (regionOk b r) 0x10 (0x2000 + r) 0),
    needAll (List.range (Bank.nQuiet b)) (fun i => need (windowOk b i) 0x10 (0x3000 + i) 0)]

/-! ### Chain bodies and buffers (R193, R195) -/

def bufferOk (b : Bank) (c k : Nat) : Bool :=
  mult 64 (Bank.lofs b c k) && mult 64 (Bank.bufPitch b c k) && inRange 64 65472 (Bank.bufPitch b c k)
    && inRange 1 4096 (Bank.bufRows b c k) && decide (Bank.lofs b c k + Bank.bufBytes b c k ≤ 262144)
    && (List.range k).all fun j => apart (Bank.lofs b c j, Bank.bufBytes b c j) (Bank.lofs b c k, Bank.bufBytes b c k)

def chainBodyOk (b : Bank) (c : Nat) : Bool :=
  let n := Bank.nBuf b c
  mult 64 (chainBody b c).1 && inRange 1 64 (Bank.nOps b c) && (chainBody b c).2 = 0xC0 + 64 * Bank.nOps b c
    && decide (Bank.stripRows b c ≤ 768) && inRange 1 16 n && ((List.range n).all (bufferOk b c))
    && (List.range 16).all fun k => decide (k < n) || zeros b (Bank.bufAt b c k) 8

/-! ### Operands (R196, R212) -/

/-- Bytes of a row of `n` elements of a type (R197). -/
def rowBytes (ty n : Nat) : Nat := if typeBits ty = 1 then 2 * ceilDiv n 16 else n * (typeBits ty / 8)

/-- A rectangle of elements, or a span of bytes, fits buffer k. -/
def fits2D (b : Bank) (c k ty rows cols : Nat) : Bool :=
  decide (k < Bank.nBuf b c) &&
    (if Bank.bufLinear b c k then decide (rows * rowBytes ty cols ≤ Bank.bufBytes b c k)
     else decide (rows ≤ Bank.bufRows b c k) && decide (rowBytes ty cols ≤ Bank.bufPitch b c k))

/-- A linear operand of `n` bytes. -/
def fitsLinear (b : Bank) (c k n : Nat) : Bool :=
  decide (k < Bank.nBuf b c) && Bank.bufLinear b c k && decide (n ≤ Bank.bufBytes b c k)

/-- The LOAD with explicit geometry from which the source in buffer k comes, itself or mapped by operators on the way
(R205; 09 R233). -/
def sourceLoad (b : Bank) (c : Nat) : Nat → Nat → Option Opr
  | 0, _ => none
  | i + 1, k =>
    let o := oprOf b c i
    if o.isStore || !(o.out = k || o.out2 = k) then sourceLoad b c i k
    else if o.isLoad then (if o.mode = 1 then some o else none)
    else sourceLoad b c i o.in0

/-- An element operand of the pass rectangle, as it stands after `i` operators: with its halo, or without one where it was
loaded with explicit geometry. -/
def fitsOperand (b : Bank) (c i k ty : Nat) (g : Pass) : Bool :=
  match explicitLoad b c i k with
  | some o => fits2D b c k ty (o.u 3) (o.u 4) && fits2D b c k ty g.rows g.cols
  | none => fits2D b c k ty (g.rows + 2 * g.halo) (g.cols + 2 * g.halo)

def runListBytes (n : Nat) : Nat := 16 + 16 * n
def zeroLinear (b : Bank) (c k n : Nat) : Bool := fitsLinear b c k n && Bank.bufZero b c k

/-! ### LOAD and STORE (R199, R200, R212) -/

/-- The bytes of a slot of its buffer that a LOAD or STORE touches in a pass, as start and length. -/
def moveSpans (b : Bank) (c i : Nat) (g : Pass) : List (Int × Nat) :=
  let o := oprOf b c i
  let d := dbufOf b o.dbuf
  let tile := o.tileOf g
  if o.mode = 3 then []
  else if o.mode = 2 then [(((if tile < 64 then tile * d.tileBytes else 0) + o.u 1 : Nat), o.u 2)]
  else o.spans d g

def moveOk (b : Bank) (c i : Nat) (g : Pass) : Bool :=
  let o := oprOf b c i
  let d := dbufOf b o.dbuf
  let k := if o.isLoad then o.out else o.in0
  decide (o.dbuf < 64) && dbufDefined b o.dbuf && (decide (o.tileField ≤ 63) || o.tileField = 0xFF)
    && decide (-8 ≤ o.frameOfs) && decide (o.frameOfs ≤ 8)
    && ((moveSpans b c i g).all fun x => decide (0 ≤ x.1) && decide (x.1 + x.2 ≤ d.slotBytes))
    && (if o.isLoad then o.mode ≠ 3 && o.dbuf ≠ 2
        else d.writable && (if o.mode = 3 then o.dbuf = 2 || d.stream else o.dbuf ≠ 2))
    && (match o.mode with
        | 0 => if o.isLoad then fits2D b c k o.moveType (g.rows + 2 * g.halo) (g.cols + 2 * g.halo)
               else fitsOperand b c i k o.moveType g
        | 1 => fits2D b c k o.moveType (o.u 3) (o.u 4)
        | 2 => decide (k < Bank.nBuf b c) && decide (o.u 2 ≤ Bank.bufBytes b c k)
        | _ => decide (k < Bank.nBuf b c))

/-! ### The catalogue (R202 to R210) -/

/-- Operands, parameters and buffers of operator i of chain c in a pass, for the opcodes other than LOAD and STORE. -/
def catalogueOk (b : Bank) (c i : Nat) (g : Pass) : Bool :=
  let o := oprOf b c i
  let elt (k ty : Nat) : Bool := fitsOperand b c i k ty g
  let dst (k ty : Nat) : Bool := fitsOperand b c (i + 1) k ty g
  let num := decide (o.tin ≤ 4) && decide (o.tout ≤ 4)
  match o.opc with
  | 0x03 => dst o.out o.tout
  | 0x04 => elt o.in0 o.tin && dst o.out o.tout
  | 0x05 => elt o.in0 o.tin && dst o.out o.tout && decide (o.u 2 ≤ 31)
  | 0x06 => elt o.in0 o.tin && elt o.in1 o.tin && dst o.out o.tout && decide (o.u 0 ≤ 7)
  | 0x07 => elt o.in0 o.tin && elt o.in1 o.tin && elt o.in2 5 && dst o.out o.tout
  | 0x08 => o.tin = 1 && (o.tout = 1 || o.tout = 3) && elt o.in0 1 && dst o.out o.tout
      && decide (o.in1 < Bank.nBuf b c) && decide (256 * (typeBits o.tout / 8) ≤ Bank.bufBytes b c o.in1)
  | 0x09 => num && decide (1 ≤ g.halo) && elt o.in0 o.tin && dst o.out o.tout && o.out ≠ o.in0 && decide (o.u 5 ≤ 31)
  | 0x0A => num && decide (2 ≤ g.halo) && elt o.in0 o.tin && dst o.out o.tout && o.out ≠ o.in0 && decide (o.u 5 ≤ 31)
  | 0x0B => num && decide (1 ≤ g.halo) && elt o.in0 o.tin && dst o.out o.tout && o.out ≠ o.in0
  | 0x0C => decide (1 ≤ g.halo) && elt o.in0 o.tin && dst o.out o.tout && o.out ≠ o.in0 && decide (o.u 0 ≤ 1)
  | 0x0D => num && elt o.in0 o.tin && fits2D b c o.out o.tout (g.rows / 2 + 2 * g.halo) (g.cols / 2 + 2 * g.halo)
      && o.out ≠ o.in0 && mult 2 (Bank.stripRows b c) && mult 2 g.cols
  | 0x0E =>
      let h := if (explicitLoad b c i o.in0).isSome then 0 else g.halo
      o.tin = 1 && elt o.in1 3 && dst o.out o.tout && o.out ≠ o.in0 && o.out ≠ o.in1
      && (match sourceLoad b c i o.in0 with
          | some l => l.u 3 = o.u 0 && l.u 4 = o.u 1 && fits2D b c o.in0 1 (l.u 3 + h) (l.u 4 + h)
          | none => false)
  | 0x0F => decide (o.tin ≤ 1) && elt o.in0 o.tin && fitsLinear b c o.out 1024
  | 0x10 => o.tin = 1 && elt o.in0 1 && zeroLinear b c o.out 32
  | 0x11 => fitsLinear b c o.in0 1024 && fitsLinear b c o.out 512 && decide (o.u 1 ≤ o.u 2) && decide (o.u 2 ≤ 65535)
  | 0x12 => o.tout = 5 && elt o.in0 o.tin && dst o.out 5
  | 0x13 => o.tin = 5 && o.tout = 5 && decide (o.u 0 ≤ 4) && elt o.in0 5 && (o.u 0 = 4 || elt o.in1 5) && dst o.out 5
  | 0x14 => o.tin = 1 && o.tout = 3 && elt o.in0 1 && elt o.in1 3 && dst o.out 3 && dst o.out2 5
      && inRange 1 256 (o.u 0) && inRange 1 256 (o.u 1) && decide (o.u 2 ≤ 65535) && decide (o.u 3 ≤ 65535)
      && decide (o.u 4 ≤ 255) && inRange 1 8192 (o.u 5) && zeroLinear b c o.in2 (runListBytes (o.u 5))
  | 0x15 => inRange 1 16 (o.u 0) && inRange 1 8192 (o.u 1)
      && ((List.range (o.u 0)).all fun j => fitsLinear b c (o.in0 + j) 16) && fitsLinear b c o.out (runListBytes (o.u 1))
  | 0x16 => inRange 1 256 (o.u 1) && decide (o.u 4 ≤ 31) && decide (o.u 5 ≤ 16777215) && fitsLinear b c o.in0 16
      && fitsLinear b c o.out (32 * o.u 1)
  | 0x17 => o.tin = 1 && elt o.in0 1 && fitsLinear b c o.out (lcompWorst g.rows g.cols)
  | _ => false

/-- An operator in a pass: the types exist, its other buffers are buffers or 0xFF, its reserved flags are zero (R197), and
its own rules hold. -/
def operatorOk (b : Bank) (c i : Nat) (g : Pass) : Bool :=
  let o := oprOf b c i
  decide (o.tin ≤ 5) && decide (o.tout ≤ 5) && decide (o.flags < 16)
    && ([o.in1, o.in2, o.out, o.out2].all fun k => k = 0xFF || decide (k < Bank.nBuf b c))
    && (if o.isLoad || o.isStore then moveOk b c i g else catalogueOk b c i g)

/-- The passes in which an operator is checked: those that run it; one that no pass runs is a part of the chain all the
same, and is checked for pass 0, the largest (R202, R212). -/
def checkPasses (b : Bank) (i j : Nat) : List Nat :=
  let l := (List.range (nPasses b i)).filter fun p => (passOps b i p).contains j
  if l.isEmpty then [0] else l

/-- The chain of a slot over its region (R193 to R210, R228). -/
def slotChainOk (b : Bank) (i : Nat) : Bool :=
  let c := Bank.slotChain b i
  chainBodyOk b c && (List.range (Bank.nOps b c)).all fun j =>
    (checkPasses b i j).all fun p => operatorOk b c j (passOf b i p)

/-! ### Hazards between unordered slots (R212) -/

/-- One access of a slot to a DRAM buffer: which of its slots relative to the frame's, the bytes, and how. An append
counts as a write of the whole buffer against reads, and not against other writes. -/
structure Access where
  dbuf : Nat
  turn : Nat
  start : Int
  len : Nat
  write : Bool
  append : Bool
  deriving DecidableEq, Repr

def slotAccesses (b : Bank) (i : Nat) : List Access :=
  let c := Bank.slotChain b i
  (List.range (nPasses b i)).flatMap fun p =>
    (passOps b i p).flatMap fun j =>
      let o := oprOf b c j
      let d := dbufOf b o.dbuf
      let turn := (o.frameOfs % (d.nSlots : Int)).toNat
      if o.isStore && o.mode = 3 then [⟨o.dbuf, 0, 0, 0, true, true⟩]
      else if o.isLoad || o.isStore then
        (moveSpans b c j (passOf b i p)).map fun x => ⟨o.dbuf, turn, x.1, x.2, o.isStore, false⟩
      else []

def hazard (x y : Access) : Bool :=
  x.dbuf = y.dbuf && (x.write || y.write)
    && (if x.append || y.append then !(x.write && y.write)
        else x.turn = y.turn && !apart (x.start.toNat, x.len) (y.start.toNat, y.len))

/-- Slot i meets no earlier slot that neither engine order nor barriers order against it. -/
def hazardsOk (b : Bank) (i : Nat) : Bool :=
  (List.range i).all fun j =>
    (slotsBefore b i).contains j || (slotsBefore b j).contains i
      || (slotAccesses b j).all fun x => (slotAccesses b i).all fun y => !hazard x y

def chainCheck (b : Bank) : Option SetFault :=
  needEach (List.range (Bank.nSlots b)) 0x11 0 fun i => slotChainOk b i && hazardsOk b i

end Sys2Proof.Machine
end

