-- ==== Sys2Proof/Machine/ConfigFit.lean ====
section
/-! DEFINITION. Proof of fit at COMMIT_SHADOW: finish times and output DMA time (02 R46, R47, R58), the bandwidth charges
(01 R26 to R28; 09 R235; 12 R281, R302), and the regulators (08 R192; 10 R258); reasons 0x15 to 0x19. -/
namespace Sys2Proof.Machine

/-- The derated figure B_d in bytes per second (R26). -/
def deratedBps (mts : Nat) : Nat := 147000000000 * mts / 10667

/-- Usable payload rate per lane in MB/s by speed code and MPS code (R281). -/
def laneRate (speed mps : Nat) : Nat :=
  match speed, mps with
  | 5, 0 => 3190
  | 5, 1 => 3480
  | 5, _ => 3625
  | 4, 0 => 1595
  | 4, 1 => 1740
  | 4, _ => 1812
  | 3, 0 => 797
  | 3, 1 => 870
  | 3, _ => 906
  | 2, 0 => 405
  | 2, 1 => 441
  | 2, _ => 460
  | 1, 0 => 202
  | 1, 1 => 220
  | 1, _ => 230
  | _, _ => 0

/-- The rate that a commit uses: that of the link, or 32.0 GT/s, 16 lanes and MPS 512 without one (R281). -/
def linkRate (s : State) : Nat :=
  if s.host.linkUp then laneRate s.host.speed.toNat s.host.mps.toNat * s.host.width.toNat else 58000

/-! ### Charges (R27, R235, R302) -/

/-- Bytes of a stream per frame (R302). -/
def streamCharge (b : Bank) (m : Nat) : Nat :=
  match Bank.strType b m with
  | 0 => 0
  | 7 => Bank.strParam b m + 128
  | _ => fMax b m

/-- A stream's divisor in R27: EVENT and HOLD ignore DIV (R290). -/
def streamDivisor (b : Bank) (m : Nat) : Nat :=
  let ty := Bank.strType b m
  if ty = 0 || ty = 5 || ty = 7 then 1 else max 1 (Bank.strDiv b m)

def streamTotal (b : Bank) : Nat := ((List.range 32).map (streamCharge b)).sum

/-- A common multiple of the divisors of a set: charges are kept as whole numbers of 1/chargeUnit bytes. -/
def chargeUnit (l e d : Bank) : Nat :=
  ((List.range 32).map (streamDivisor d)).foldl Nat.lcm (Nat.lcm (max 1 (Bank.holdDiv e)) (max 1 (Bank.holdDiv l)))

def dmaCharge (u : Nat) (d : Bank) : Nat := ((List.range 32).map fun m => streamCharge d m * (u / streamDivisor d m)).sum

/-- Lane bytes per read pixel of a tile (R27, R332). -/
def laneBytes (b : Bank) (t : Nat) : Nat :=
  14 + (if Bank.tileTf b t then 4 else 0) + (if Bank.nRaw b ≠ 0 then 4 else 0) + (if Bank.replayCharge b then 4 else 0)

/-- Lane charge of some tiles of a set, with the Traverse reserve over them (R27, R258). -/
def laneCharge (b : Bank) (ts : List Nat) : Nat :=
  (ts.map fun t => 794624 * laneBytes b t).sum + min 4 ts.length * 794624 * 4

/-- Charge of operator i of a slot in a pass: its lines, those of an append to the hold buffer over HOLD_DIV (R235). -/
def opCharge (u : Nat) (b : Bank) (c i : Nat) (g : Pass) : Nat :=
  let o := oprOf b c i
  if o.isLoad || o.isStore then
    let n := opLines b c i g * 64
    if o.isStore && o.mode = 3 && (dbufOf b o.dbuf).stream then n * (u / max 1 (Bank.holdDiv b)) else n * u
  else 0

def slotCharge (u : Nat) (b : Bank) (i : Nat) : Nat :=
  ((List.range (nPasses b i)).map fun p =>
    ((passOps b i p).map fun j => opCharge u b (Bank.slotChain b i) j (passOf b i p)).sum).sum

/-- Engine charge of the slots on some engines. -/
def engineCharge (u : Nat) (b : Bank) (on : Nat → Bool) : Nat :=
  (((List.range (Bank.nSlots b)).filter fun i => on (Bank.slotEng b i)).map (slotCharge u b)).sum

/-- A charge per second, rounded up to a whole byte (R27). -/
def perSecond (u period charge : Nat) : Nat := ceilDiv (charge * 1000000000) (u * period)

/-- A period of R58: the set that gives P, the windows and the regulators, and those that the lanes, the engines and
output DMA run under. -/
structure FitPeriod where
  no : Nat
  set : Bank
  lanes : Bank
  engines : Bank
  dma : Bank

def FitPeriod.unit (f : FitPeriod) : Nat := chargeUnit f.lanes f.engines f.dma

def regMbps (b : Bank) (p : Nat) : Nat := Bank.u32 b (Bank.secOfs b 9 + 8 * p)

/-- rt_bps and all_bps (R27). -/
def FitPeriod.rtBps (f : FitPeriod) : Nat :=
  perSecond f.unit (Bank.periodNs f.set) (laneCharge f.lanes (Bank.enabledTiles f.lanes) * f.unit + dmaCharge f.unit f.dma)
def FitPeriod.allBps (f : FitPeriod) : Nat :=
  perSecond f.unit (Bank.periodNs f.set)
    (laneCharge f.lanes (Bank.enabledTiles f.lanes) * f.unit + dmaCharge f.unit f.dma
      + engineCharge f.unit f.engines fun _ => true)
    + (regMbps f.set 9 + regMbps f.set 10 + regMbps f.set 11) * 1000000

/-! ### The tests -/

/-- A = P − Q − G (R46), as an integer. -/
def FitPeriod.budget (f : FitPeriod) : Int :=
  (Bank.periodNs f.set : Int) - Bank.quietTotal f.set - (Bank.periodNs f.set / 16 : Nat)

/-- R46 for every slot. -/
def engineFit (f : FitPeriod) : Option SetFault :=
  needAll (List.range (Bank.nSlots f.engines)) fun i =>
    let late : Int := if Bank.slotEmits f.engines i then 100000 else 0
    need (decide ((planNs f.engines i : Int) ≤ f.budget - late)) 0x15 i 0

/-- R47: the bytes of a frame at the link's rate. -/
def dmaFit (f : FitPeriod) (rate : Nat) : Option SetFault :=
  need (decide ((streamTotal f.dma * 1000 : Nat) ≤ f.budget * rate)) 0x16 0 0xFF

def budgetRt (f : FitPeriod) (mts : Nat) : Option SetFault := need (decide (f.rtBps * 100 ≤ 70 * deratedBps mts)) 0x17 0 0xFF
def budgetAll (f : FitPeriod) (mts : Nat) : Option SetFault := need (decide (f.allBps * 100 ≤ 95 * deratedBps mts)) 0x18 0 0xFF

/-- Checks 1 to 4 and 6 of R258 for a port, with the group test of R192. -/
def portFit (f : FitPeriod) (p : Nat) : Bool :=
  let rate := regMbps f.set p * 1000000
  let per := Bank.periodNs f.set
  let cls := bits (Bank.u32 f.set (Bank.secOfs f.set 9 + 8 * p + 4)) 21 20
  (!rtOnly p || cls = 0) &&
    (if p < 4 then
      decide (perSecond 1 per (laneCharge f.lanes ((Bank.enabledTiles f.lanes).filter fun t => t / 16 = p)) ≤ rate)
    else if p < 8 then
      decide (perSecond f.unit per (engineCharge f.unit f.engines fun e => e / 24 = p - 4) ≤ rate)
        && decide (((List.range 24).map fun j => dmaMbps f.engines (24 * (p - 4) + j) * 1000000).sum ≤ rate)
    else if p = 8 then decide (perSecond f.unit per (dmaCharge f.unit f.dma) ≤ rate)
    else p ≠ 10 || regMbps f.set p ≠ 0)

/-- Check 5 of R258. -/
def rtSumFit (f : FitPeriod) (mts : Nat) : Bool :=
  let rt := (List.range 12).filter fun p => bits (Bank.u32 f.set (Bank.secOfs f.set 9 + 8 * p + 4)) 21 20 = 0
  decide ((rt.map fun p => regMbps f.set p).sum * 1000000 * 100 ≤ 70 * deratedBps mts)

def regulatorFit (f : FitPeriod) (mts : Nat) : Option SetFault :=
  firstFault [needEach (List.range 12) 0x19 9 (portFit f), need (rtSumFit f mts) 0x19 0xFFFF 9]

/-- Checks 0x15 to 0x19 of one period (R336). -/
def fitChecks (f : FitPeriod) (rate mts : Nat) : Option SetFault :=
  (firstFault [engineFit f, dmaFit f rate, budgetRt f mts, budgetAll f mts, regulatorFit f mts]).map fun x =>
    { x with period := f.no }

/-- The set alone, and the two transition periods against the active set (R58, R336). -/
def setAlone (b : Bank) : FitPeriod := ⟨0, b, b, b, b⟩
def transitionK (b old : Bank) : FitPeriod := ⟨1, b, b, old, old⟩
def transitionK1 (b old : Bank) : FitPeriod := ⟨2, b, b, b, old⟩

/-- The fit checks of a commit, and the charges of the set alone where the checks reached code 0x17 (R337). -/
def fitAll (b : Bank) (old : Option Bank) (rate mts : Nat) : Option SetFault × Nat × Nat :=
  let alone := setAlone b
  let early := (firstFault [engineFit alone, dmaFit alone rate]).isSome
  let trans := match old with
    | some o => [fitChecks (transitionK b o) rate mts, fitChecks (transitionK1 b o) rate mts]
    | none => []
  (firstFault (fitChecks alone rate mts :: trans), if early then 0 else alone.rtBps, if early then 0 else alone.allBps)

end Sys2Proof.Machine
end

