-- ==== Sys2Proof/Machine/Hk.lean ====
section
/-! DEFINITION. The housekeeping converter (16): readings, self-calibration, open-wire tests, the table, triggers and
injected conversions, and the slots latched at the tick. -/
namespace Sys2Proof.Machine

/-! ### The HKTABLE section (R369, R370) -/

def hkPassMode (s : State) : Bool := activeByte s 6 0 = 1
def hkTrigSrc (s : State) : Nat := activeByte s 6 1
def hkTrigDiv (s : State) : Nat := activeHalf s 6 2
def hkNEnt (s : State) : Nat := activeByte s 6 4
def hkNInj (s : State) : Nat := activeByte s 6 5

/-- A table entry or an injected entry (R370). -/
structure HkEntry where
  input : Nat
  conv : Nat
  ow : Nat
  curve : Nat
  n : Nat
  dest : Nat
  delayUs : Nat
  deriving DecidableEq, Repr

/-- The entry whose eight bytes are the number `w`. -/
def hkEntryOf (w : Nat) : HkEntry :=
  { input := bits w 7 0, conv := bits w 8 8, ow := bits w 10 9, curve := bits w 14 11, n := bits w 23 16 + 1,
    dest := bits w 31 24, delayUs := bits w 47 32 }
def hkTableEntry (s : State) (i : Nat) : HkEntry := hkEntryOf (activeLong s 6 (0x40 + 8 * i))
def hkInjEntry (s : State) (i : Nat) : HkEntry := hkEntryOf (activeLong s 6 (0x240 + 8 * i))

/-! ### A reading (R365) -/

/-- The value of a reading from the sum of its raw codes (R365). -/
def hkValue (sum n : Nat) (calOfs : Int) (calGain : Nat) (chOfs : Int) (chGain : Nat) (curve : Option (Nat → Nat)) : Nat :=
  let m := rndDiv (sum * 16 : Nat) n
  let v1 := rndShr ((m - calOfs) * calGain) 15
  let v2 := (clamp (rndShr ((v1 - chOfs) * chGain) 15) 0 262143).toNat
  match curve with
  | none => v2
  | some c =>
    let seg := v2 / 16384
    wrap 32 ((c seg : Int) + rndShr (((c (seg + 1) : Int) - c seg) * (v2 % 16384 : Nat)) 14)

def hkConvOf (s : State) (c : Bool) : HkConv := if c then s.hk.c1 else s.hk.c0
def modConv (c : Bool) (f : HkConv → HkConv) (s : State) : State :=
  modHk (fun h => if c then { h with c1 := f h.c1 } else { h with c0 := f h.c0 }) s

/-- The value of an entry under the active set and the factors in force. -/
def hkEntryValue (s : State) (e : HkEntry) (sum : Nat) : Word :=
  let cv := hkConvOf s (e.conv = 1)
  let ch := activeWord s 6 (0x280 + 4 * e.input)
  word (hkValue sum e.n cv.ofs.toInt cv.gain.toNat (toSigned 16 ch) (ch / 65536)
    (if e.curve = 0 then none else some fun j => activeWord s 6 (0x340 + 68 * (e.curve - 1) + 4 * j)))

/-- A reading writes its slot, unless it has none or its input is judged open (R368, R372, R375). -/
def hkWrite (e : HkEntry) (sum : Nat) (s : State) : State :=
  if e.dest = 0xFF || s.hk.openMask.getLsbD e.input then s
  else
    let v := hkEntryValue s e sum
    modHk (fun h => { h with slots := vset h.slots e.dest (v, s.tick.sfn), fresh := setBit h.fresh e.dest }) s

/-- The verdict of a test entry (R368). -/
def hkTest (e : HkEntry) (sum : Nat) (s : State) : State :=
  let m := rndDiv (sum * 16 : Nat) e.n
  let isOpen : Bool := if e.ow = 1 then decide (261120 ≤ m) else decide (m ≤ 1024)
  if isOpen then
    let was := s.hk.openMask.getLsbD e.input
    let s := modHk (fun h => { h with openMask := setBit h.openMask e.input, openSeen := h.openSeen || !was }) s
    if was then s else raiseErr (mkErr 2 0x23 e.input 0 0) s
  else modHk (fun h => { h with openMask := clrBit h.openMask e.input }) s

/-! ### Sequencing (R372 to R374, R376) -/

/-- The table and the injected conversions run (R376). -/
def hkOn (s : State) : Bool :=
  s.cfg.hasActive && (s.dev.power = .parked || s.dev.power = .imaging || s.dev.power = .frozen)

/-- A converter goes on to the first of its table entries from index `i` on, or is done with the table. -/
def hkGo (c : Bool) (i : Nat) (s : State) : State :=
  match (List.range (hkNEnt s)).find? fun j => decide (i ≤ j) && decide ((hkTableEntry s j).conv = c.toNat) with
  | some j => modConv c (fun v => { v with
      phase := if (hkTableEntry s j).delayUs = 0 then .convert else .delay, entry := j, taken := 0, sum := 0 }) s
  | none => modConv c (fun v => { v with phase := .idle, doneTable := true }) s

/-- A pass starts (R372). -/
def hkStartPass (s : State) : State :=
  let s := modHk (fun h => { h with passRunning := true, c0 := { h.c0 with doneTable := false },
                                    c1 := { h.c1 with doneTable := false } }) s
  hkGo true 0 (hkGo false 0 s)

/-- A trigger arrives (R373). -/
def hkTrigger (s : State) : State :=
  if !s.hk.passRunning && !s.hk.calibrating then hkStartPass s
  else if !s.hk.pending then modHk (fun h => { h with pending := true }) s
  else
    let s := modHk (fun h => { h with missedCnt := satInc h.missedCnt, missedSeen := true }) s
    raiseErr (mkErr 2 0x21 0xFF 0 0) (modTick (fun t => { t with missedNext := true }) s)

/-- The tick source fires at this tick (R369, R373). -/
def hkTickFires (s : State) : Bool :=
  hkPassMode s && (hkTrigSrc s = 1 || hkTrigSrc s = 3) && decide (s.tick.sfn.toNat % hkTrigDiv s = 0)

/-- The injected entries of a converter, in ascending index (R374). -/
def hkInjList (s : State) (c : Bool) : List Nat :=
  (List.range (hkNInj s)).filter fun i => decide ((hkInjEntry s i).conv = c.toNat)

/-- A converter takes its injected entries: a table conversion under way ends first (R374). -/
def hkPreempt (running : Bool) (l : List Nat) (v : HkConv) : HkConv :=
  { v with inject := l, cut := running && v.inject.isEmpty && decide (v.phase = .convert) && !l.isEmpty }

/-- The injected conversions of a tick are triggered, or skipped for a self-calibration: once at one tick (R367, R374). -/
def hkInject (s : State) : State :=
  let n := hkNInj s
  if s.hk.skipped then s
  else if s.hk.calibrating then
    if n = 0 then s
    else
      let s := modHk (fun h => { h with skipCnt := satAdd h.skipCnt n, skipSeen := true, skipped := true }) s
      raiseErr (mkErr 2 0x22 0xFF n 0) (modTick (fun t => { t with skippedNext := true }) s)
  else
    let l (c : Bool) := hkInjList s c
    modHk (fun h => { h with c0 := hkPreempt h.passRunning (l false) h.c0, c1 := hkPreempt h.passRunning (l true) h.c1 }) s

/-- The table stops: the running pass, a pending trigger and the injected conversions are dropped (R376, R430). -/
def hkStop (s : State) : State :=
  let off (v : HkConv) : HkConv := { v with phase := .idle, taken := 0, sum := 0, inject := [], cut := false, doneTable := false }
  modHk (fun h => { h with passRunning := false, pending := false, restartNext := false, trigNow := false,
                           c0 := off h.c0, c1 := off h.c1 }) s

/-- The table starts at a tick under R373: a continuous one at once, a triggered one if the tick fires. -/
def hkRun (s : State) : State :=
  if !hkPassMode s then (if s.hk.passRunning then s else hkStartPass s)
  else if hkTickFires s then hkTrigger (modHk (fun h => { h with trigNow := true }) s) else s

/-- The table of a set that has just become active, or of a device that leaves LOW (R376, R431). -/
def hkStart (s : State) : State := if hkOn s then hkRun (hkInject s) else s

/-- At a tick the slots are latched (R375), the injected conversions are triggered and the tick source may fire. -/
def hkTick (s : State) : State :=
  let s := modHk (fun h => { h with latched := Vector.ofFn fun i => h.slots[i].1, stale := ~~~h.fresh, fresh := 0,
                                    skipped := false }) s
  if !hkOn s then s
  else
    let s := hkInject s
    if hkPassMode s || s.hk.restartNext then hkRun (modHk (fun h => { h with restartNext := false }) s) else s

/-! ### Self-calibration (R366, R367) -/

/-- The factors of a calibration, when it is accepted (R366). -/
def hkFactors (sl sh : Nat) : Option (Int × Int) :=
  let ml := rndShr sl 5
  let mh := rndShr sh 5
  if mh ≤ ml then none
  else
    let gain := rndDiv 7516192768 (mh - ml)
    if gain < 29491 || 36045 < gain then none
    else
      let ofs := ml - rndDiv 536870912 gain
      if 2048 < ofs.natAbs then none else some (ofs, gain)

/-- The four result words of HK_SELFCAL (R367). -/
def hkCalWords (s : State) (ok0 ok1 : Bool) : List Word :=
  let w (v : HkConv) (ok : Bool) : List Word :=
    [BitVec.ofInt 32 v.ofs.toInt, fields [(v.gain.toNat, 0), (ok.toNat, 31)]]
  w s.hk.c0 ok0 ++ w s.hk.c1 ok1

/-- A calibration is asked for: it starts once the conversions under way have ended (R367). -/
def hkAsk (h : Option Hdr) (s : State) : State :=
  modHk (fun k => { k with calRequested := true, calReply := k.calReply ++ h.toList }) s

/-- HK_SELFCAL at its tick (R367). -/
def hkSelfcal (h : Hdr) (s : State) : State :=
  runAtTick h 0x32 (fun s =>
    if s.hk.calibrating || s.hk.calRequested then reply h 0x32 stBusy [] s else hkAsk (some h) s) s

/-- A SELFCAL write (R367). -/
def hkSelfcalWrite (s : State) : State :=
  if s.dev.power = .off then s
  else if s.hk.calibrating || s.hk.calRequested then modHk (fun k => { k with selfcalDrop := true }) s
  else hkAsk none s

/-- One converter's result is stored or rejected (R366); the flag says accepted. -/
def hkStore (c : Bool) (sl sh : Nat) (s : State) : State × Bool :=
  match hkFactors sl sh with
  | some (o, g) =>
    (modHk (fun k => { k with calSfn := s.tick.sfn })
      (modConv c (fun v => { v with ofs := BitVec.ofInt 16 o, gain := BitVec.ofInt 16 g, calOk := true }) s), true)
  | none => (modHk (fun k => { k with calRejSeen := true }) (modConv c (fun v => { v with calOk := false }) s), false)

/-- A calibration ends: its results are judged, the commands answered, and a pending pass may start (R366, R367, R373). -/
def hkCalEnd (sl0 sh0 sl1 sh1 : Nat) (s : State) : State :=
  let (s, ok0) := hkStore false sl0 sh0 s
  let (s, ok1) := hkStore true sl1 sh1 s
  let s := raiseErrs ((if ok0 then [] else [mkErr 2 0x24 0 0 0]) ++ (if ok1 then [] else [mkErr 2 0x24 1 0 0])) s
  let l := s.hk.calReply
  let s := modHk (fun k => { k with calibrating := false, calReply := [] }) s
  let s := forEach l (fun h s => reply h 0x32 stOk (hkCalWords s ok0 ok1) s) s
  let s := if !s.hk.passRunning && s.hk.pending then hkStartPass (modHk (fun k => { k with pending := false }) s) else s
  if s.dev.phase = .hkcal then modDev (fun d => { d with phase := .ready }) s else s

/-- RESET_BLOCK on HKADC (R376): the factors, the slots and their SFNs are kept, and the injected conversions of the tick
still run. -/
def hkReset (s : State) : State :=
  let l := s.hk.calReply
  let s := forEach l (fun h s => reply h 0x32 stRefused (hkCalWords s false false) s) s
  modHk (fun k => { Hkadc.reset with
    c0 := { HkConv.reset with ofs := k.c0.ofs, gain := k.c0.gain, inject := k.c0.inject },
    c1 := { HkConv.reset with ofs := k.c1.ofs, gain := k.c1.gain, inject := k.c1.inject },
    slots := k.slots, fresh := k.fresh, latched := k.latched, stale := k.stale, skipped := k.skipped, restartNext := true }) s

/-! ### The commands and events of this chapter -/

/-- A software trigger (R373): the trigger of the tick under way counts as the same one, and a table that RESET_BLOCK
stopped takes none before it restarts (R376). -/
def hkSoftTrigger (s : State) : State :=
  if hkOn s && hkPassMode s && (hkTrigSrc s = 2 || hkTrigSrc s = 3) && !s.hk.trigNow && !s.hk.restartNext then hkTrigger s
  else s

/-- The tick is over: a later software trigger is one of its own (R373). -/
def hkTickOver (s : State) : State := modHk (fun h => { h with trigNow := false }) s

/-- The table of converter c goes on: a pass runs, no injected conversion waits, and no calibration runs. -/
def hkActive (s : State) (c : Bool) : Bool :=
  s.hk.passRunning && (hkConvOf s c).inject.isEmpty && !s.hk.calibrating

/-- A conversion of the entry in progress on converter c may end: the table goes on, or the tick has found that
conversion under way (R374). -/
def hkConverting (s : State) (c : Bool) : Bool :=
  hkActive s c || (s.hk.passRunning && (hkConvOf s c).cut && !s.hk.calibrating)

/-- HK_SELFCAL (R367). -/
def execHkSelfcal (h : Hdr) (s : State) : Host.Outcome State Fault Refusal := .next (hkSelfcal h s)

/-- HK_ENTRY_DELAY_END (R368, R372). -/
def execHkEntryDelayEnd (c : Bool) (s : State) : Host.Outcome State Fault Refusal :=
  .next (if hkActive s c && (hkConvOf s c).phase = .delay then modConv c (fun v => { v with phase := .convert }) s else s)

/-- The last conversion of a table entry ends (R365, R368, R372). -/
def hkEntryEnd (c : Bool) (codes : List (BitVec 14)) (s : State) : State :=
  let v := hkConvOf s c
  if hkConverting s c && v.phase = .convert then
    let e := hkTableEntry s v.entry
    let sum := v.sum + ((codes.take (e.n - v.taken)).map fun x => x.toNat).sum
    hkGo c (v.entry + 1) (modConv c (fun v => { v with cut := false }) <| if e.ow = 0 then hkWrite e sum s else hkTest e sum s)
  else s

/-- HK_ENTRY_END (R365, R368, R372). -/
def execHkEntryEnd (c : Bool) (codes : List (BitVec 14)) (s : State) : Host.Outcome State Fault Refusal :=
  .next (hkEntryEnd c codes s)

/-- The conversions of an injected entry end (R374). -/
def hkInjectedEnd (c : Bool) (codes : List (BitVec 14)) (s : State) : State :=
  match (hkConvOf s c).inject with
  | [] => s
  | i :: r =>
    if s.hk.calibrating then s
    else
      let e := hkInjEntry s i
      hkWrite e ((codes.take e.n).map fun x => x.toNat).sum (modConv c (fun v => { v with inject := r, cut := false }) s)

/-- HK_INJECTED_END (R365, R374). -/
def execHkInjectedEnd (c : Bool) (codes : List (BitVec 14)) (s : State) : Host.Outcome State Fault Refusal :=
  .next (hkInjectedEnd c codes s)

/-- Both converters have completed the table (R372, R373). -/
def hkPassEnd (s : State) : State :=
  if s.hk.passRunning && s.hk.c0.doneTable && s.hk.c1.doneTable && !s.hk.calibrating then
    let s := modHk (fun h => { h with passCnt := satInc h.passCnt, passRunning := false }) s
    if !hkPassMode s then hkStartPass s
    else if s.hk.pending then hkStartPass (modHk (fun h => { h with pending := false }) s) else s
  else s

/-- HK_PASS_END (R372, R373). -/
def execHkPassEnd (s : State) : Host.Outcome State Fault Refusal := .next (hkPassEnd s)

/-- TRIG (R373). -/
def execTrig (s : State) : Host.Outcome State Fault Refusal := .next (hkSoftTrigger s)

/-- SELFCAL (R367). -/
def execSelfcal (s : State) : Host.Outcome State Fault Refusal := .next (hkSelfcalWrite s)

/-- HK_SELFCAL_START (R366, R367): once the injected conversions have ended. -/
def execHkSelfcalStart (s : State) : Host.Outcome State Fault Refusal :=
  .next (if s.hk.calRequested && s.hk.c0.inject.isEmpty && s.hk.c1.inject.isEmpty then
      modHk (fun k => { k with calRequested := false, calibrating := true }) s
    else s)

/-- HK_SELFCAL_END (R366, R367). -/
def execHkSelfcalEnd (sl0 sh0 sl1 sh1 : Nat) (s : State) : Host.Outcome State Fault Refusal :=
  .next (if s.hk.calibrating then hkCalEnd sl0 sh0 sl1 sh1 s else s)

end Sys2Proof.Machine
end

