-- ==== Sys2Proof/Machine/Engines.lean ====
section
/-! DEFINITION. Stream engines at run time (08 R191, R194, R195, R199 to R201, R213 to R215; 02 R42, R49): slots, barriers,
loads, stores, appended events and hold pieces (09 R235, R236), faults and abandonment. -/
namespace Sys2Proof.Machine

/-! ### Slots and barriers (R42) -/

/-- The next slot of engine e that has not ended. -/
def nextSlot (s : State) (b : Bank) (e : Nat) : Option Nat :=
  (Bank.engSlots b e).find? fun i => !slotEnded s i

/-- A barrier is complete when every slot that signals it has ended (R42, R215). -/
def barrierDone (s : State) (b : Bank) (w : Nat) : Bool := (signallers b w).all fun i => slotEnded s i

/-- The slot of engine e comes to pass p, or past it where that runs no operator; without a later one its operators have
ended (R194). -/
def toPass (b : Bank) (i p : Nat) (x : Eng) : Eng :=
  match passFrom b i p with
  | some (q, j) => { x with pass := q, op := j, opsEnded := false }
  | none => { x with opsEnded := true }

/-- A slot starts: its ZERO buffers are cleared, and the minimum field of a STATS record is set (R195, R206). -/
def startSlot (e : Nat) (s : State) : State :=
  match engineSet s with
  | none => s
  | some b =>
    let x := engOf s e
    match nextSlot s b e with
    | none => s
    | some i =>
      if !s.eng.active || x.running.isSome || x.stopped || !barrierDone s b (Bank.slotWait b i) then s
      else
        let c := Bank.slotChain b i
        let stats := (List.range (Bank.nOps b c)).filterMap fun j =>
          let o := oprOf b c j
          if o.opc = 0x10 then some o.out else none
        modEng e (fun x =>
          let x := forEach (Bank.zeroBufs b c) (fun k x =>
            let x := lmemPut x (Bank.lofs b c k) (List.replicate (Bank.bufBytes b c k) 0)
            if stats.contains k then lmemPut x (Bank.lofs b c k + 8) [0xFF, 0xFF] else x) x
          toPass b i 0 { x with running := some i, pass := 0, op := 0, slotReg := BitVec.ofNat 12 i, produced := [],
                                runCapped := false, clCapped := false }) s

/-! ### LOAD and STORE (R200) -/

/-- The context of the operator at hand. -/
def opCtx (s : State) (b : Bank) (e i : Nat) : OpCtx :=
  let x := engOf s e
  let c := Bank.slotChain b i
  let g := passOf b i x.pass
  let st := if g.tile < 64 then
      (dramRead s (Bank.statsBase b + engIndex s % Bank.nStats b * 69696 + g.tile) 1).headD 0 else 0
  { b, e, slot := i, c, i := x.op, o := oprOf b c x.op, passNo := x.pass, g, status := st,
    sfn := (frameSfn s 1).getD 0, free := s.free }

/-- DRAM address of the slot of a buffer that an operator reaches (R199). -/
def dbufSlotAddr (s : State) (x : OpCtx) (store : Bool) : Nat :=
  let d := dbufOf x.b x.o.dbuf
  let n := (((engIndex s : Nat) + x.o.frameOfs) % (d.nSlots : Int)).toNat
  let bs := dbufBases s x.b x.o.dbuf
  (if store then bs.write.toNat else bs.base.toNat) + n * d.slotBytes

/-- Raw bits of an element of a row that starts at an address. -/
def dramElem (s : State) (ty a col : Nat) : Nat :=
  if typeBits ty = 1 then ((dramRead s (a + col / 8) 1).headD 0).toNat / 2 ^ (col % 8) % 2
  else leNat (dramRead s (a + col * (typeBits ty / 8)) (typeBits ty / 8))

/-- LOAD with region or explicit geometry: elements outside the limits are formed by EDGE (R200). Where nothing of the
operand was fetched, EDGE 0 has no element to take: a free value. -/
def loadRect (s : State) (x : OpCtx) (m : Eng) : Eng :=
  let o := x.o
  let d := dbufOf x.b o.dbuf
  let tile := o.tileOf x.g
  let rl := rowLimit d tile
  let cl := colLimit d tile o.tout
  let r := o.rect x.g
  let cut := r.cut rl cl
  let none_ := cut.rows = 0 || cut.cols = 0
  let a := dbufSlotAddr s x false
  overRect r.rows r.cols (fun y c m =>
    let row := r.row + y
    let col := r.col + c
    let inside := 0 ≤ row && row < (rl : Int) && 0 ≤ col && col < (cl : Int)
    let v := if inside || !(o.edgeConst || none_) then
        dramElem s o.tout (a + rowOffset d tile (clamp row cut.row (cut.row + cut.rows - 1))).toNat
          (clamp col cut.col (cut.col + cut.cols - 1)).toNat
      else if o.edgeConst then o.u 5
      else (Config.word s.free).toNat
    let sz := typeBits o.tout
    let addr := Bank.lofs x.b x.c o.out * 8
    let bit : Int := if Bank.bufLinear x.b x.c o.out then addr + (y * r.cols + c) * sz
      else addr + y * (Bank.bufPitch x.b x.c o.out * 8 : Nat) + c * sz
    if sz = 1 then
      let p := bit.toNat
      let old := (lmemByteOf x.e m (p / 8)).toNat
      let keep := if old.testBit (p % 8) then old - 2 ^ (p % 8) else old
      lmemPut m (p / 8) [BitVec.ofNat 8 (keep + v % 2 * 2 ^ (p % 8))]
    else lmemPut m (bit.toNat / 8) (leBytes (sz / 8) v)) m

/-- Bytes that a LOAD fetches or a STORE with geometry writes. -/
def rectBytes (x : OpCtx) : Nat :=
  let r := x.o.moved (dbufOf x.b x.o.dbuf) x.g
  r.rows * (colSpan x.o.moveType r.col r.cols).2

/-- The linear span of a LOAD or STORE. -/
def linearAddr (s : State) (x : OpCtx) (store : Bool) : Nat :=
  let d := dbufOf x.b x.o.dbuf
  let tile := x.o.tileOf x.g
  dbufSlotAddr s x store + (if tile < 64 then tile * d.tileBytes else 0) + x.o.u 1

def loadOp (s : State) (x : OpCtx) (m : Eng) : Eng :=
  if x.o.mode = 2 then
    { lmemPut m (Bank.lofs x.b x.c x.o.out) (dramRead s (linearAddr s x false) (x.o.u 2)) with
      dmaNow := m.dmaNow + x.o.u 2 }
  else { loadRect s x m with dmaNow := m.dmaNow + rectBytes x }

/-- STORE with geometry: the pass rectangle, or the explicit one, never a halo (R200). -/
def storeRect (x : OpCtx) (m : Eng) (s : State) : State :=
  let o := x.o
  let d := dbufOf x.b o.dbuf
  let tile := o.tileOf x.g
  let ty := o.tin
  let r := o.rect x.g
  let a := dbufSlotAddr s x true
  forEach (List.range r.rows) (fun y s =>
    let row0 := a + rowOffset d tile (r.row + y)
    forEach (List.range r.cols) (fun k s =>
      let col := r.col + k
      let v := x.raw m o.in0 ty y k
      if typeBits ty = 1 then
        let at_ := (row0 + col / 8).toNat
        let bit := (col % 8).toNat
        let old := ((dramRead s at_ 1).headD 0).toNat
        let keep := if old.testBit bit then old - 2 ^ bit else old
        stageWrite at_ [BitVec.ofNat 8 (keep + v % 2 * 2 ^ bit)] s
      else stageWrite (row0 + col * (typeBits ty / 8 : Nat)).toNat (leBytes (typeBits ty / 8) v) s) s) s

/-- The bytes that an append store sends: what its producer wrote (R200, R209, R210), else the elements of the pass
rectangle in row-major order (log entry 24). -/
def appendData (x : OpCtx) (m : Eng) : List Byte :=
  let k := x.o.in0
  let at_ (n : Nat) : List Byte := lmemBytes x.e m (Bank.lofs x.b x.c k) n
  match (m.produced.find? fun p => p.1 = k), ((List.range x.i).reverse.map fun j => oprOf x.b x.c j).find? fun o => o.out = k with
  | some p, _ => at_ p.2
  | none, some o =>
    if o.opc = 0x0F then at_ 1024 else if o.opc = 0x10 then at_ 32 else if o.opc = 0x11 then at_ 512
    else (List.range x.g.rows).flatMap fun (y : Nat) => (List.range x.g.cols).flatMap fun (c : Nat) =>
      leBytes (typeBits x.o.tin / 8) (x.raw m k x.o.tin y c)
  | none, none =>
    (List.range x.g.rows).flatMap fun (y : Nat) => (List.range x.g.cols).flatMap fun (c : Nat) =>
      leBytes (typeBits x.o.tin / 8) (x.raw m k x.o.tin y c)

/-- The SFN, as the device counts, of the frame the engines process. -/
def engLive (s : State) : Sfn := sfnAdd s.tick.sfn 0xFFFFFFFE

/-- The frame the engines process is one to record (R235, R239, R240). -/
def holdWanted (s : State) (b : Bank) : Bool :=
  match frameSfn s 1 with
  | none => false
  | some f =>
    Bank.hasHold b && decide (f.toNat % Bank.holdDiv b = 0) && !s.hold.skipNow &&
      (match s.hold.state with
       | .recording => true
       | .pending => engLive s = s.hold.endSfn || sfnBefore (engLive s) s.hold.endSfn
       | _ => false)

/-- Its pieces can be appended: in a memory freeze nothing is (R241). -/
def holdRecords (s : State) (b : Bank) : Bool := holdWanted s b && memServes s

/-- A hold piece: header, output, padding to a multiple of 64 (R236). -/
def holdPiece (x : OpCtx) (data : List Byte) : List Byte :=
  let l := leBytes 2 0x4850 ++ [BitVec.ofNat 8 x.g.tile, x.status] ++ leBytes 4 x.sfn.toNat ++ leBytes 2 x.slot
    ++ leBytes 2 x.passNo ++ leBytes 2 (x.g.row0 + x.g.first) ++ leBytes 2 x.g.col0 ++ leBytes 4 data.length
    ++ leBytes 4 (crc32 data).toNat ++ leBytes 8 0 ++ data
  l ++ List.replicate (ceilDiv l.length 64 * 64 - l.length) 0

/-- Write bytes into the hold ring from cursor `h` on (R236). -/
def holdRingWrite (b : Bank) (h : Nat) (bs : List Byte) (s : State) : State :=
  let c := holdCap b
  let p := h % c
  stageWrite (holdBase b) (bs.drop (c - p)) (stageWrite (holdBase b + p) (bs.take (c - p)) s)

/-- HOLD_APPEND (R235, R236): one piece at the cursor, charged its line count of R201. -/
def holdAppend (x : OpCtx) (data : List Byte) (s : State) : State :=
  if !holdRecords s x.b then s
  else
    let piece := holdPiece x data
    let start := s.hold.cursor.toNat
    let s := holdRingWrite x.b start piece s
    modHold (fun h => { h with
      cursor := h.cursor + BitVec.ofNat 64 piece.length,
      nowStart := if h.nowPieces.isEmpty then start else h.nowStart,
      nowCharged := h.nowCharged + opLines x.b x.c x.i x.g,
      nowPieces := h.nowPieces ++ [(x.slot, x.passNo, start, piece.length)] }) s

/-- An append to buffer 2 adds to the event records of the frame, and lies in the event buffer after those appended
before it (R200, log entry 25). -/
def eventAppend (x : OpCtx) (data : List Byte) (s : State) : State :=
  let used := (s.eng.events.map fun p => p.2.length).sum
  let room := Bank.evtSlotBytes x.b - used
  let s := stageWrite (Bank.evtBase x.b + engIndex s % 2 * Bank.evtSlotBytes x.b + used) (data.take room) s
  { s with eng := { s.eng with events := s.eng.events ++ [(x.slot, data)] } }

/-- The spans of DRAM that a LOAD or STORE moves (R200): an append lies after the event records or at the cursor of the hold
ring. -/
def opSpans (s : State) (x : OpCtx) : List Span :=
  let store := x.o.isStore
  if !(x.o.isLoad || store) then []
  else match x.o.mode with
  | 2 => [{ addr := linearAddr s x store, len := x.o.u 2, write := store }]
  | 3 =>
    let data := appendData x (engOf s x.e)
    let used := (s.eng.events.map fun p => p.2.length).sum
    if x.o.dbuf = 2 then
      [writes (Bank.evtBase x.b + engIndex s % 2 * Bank.evtSlotBytes x.b + used) (min data.length (Bank.evtSlotBytes x.b - used))]
    else if holdRecords s x.b then ringSpans x.b s.hold.cursor.toNat (holdPiece x data).length true
    else []
  | _ => (x.o.spans (dbufOf x.b x.o.dbuf) x.g).map fun p =>
      { addr := ((dbufSlotAddr s x store : Int) + p.1).toNat, len := p.2, write := store }

def storeOp (x : OpCtx) (s : State) : State :=
  let m := engOf s x.e
  match x.o.mode with
  | 2 =>
    let bs := lmemBytes x.e m (Bank.lofs x.b x.c x.o.in0) (x.o.u 2)
    modEng x.e (fun m => { m with dmaNow := m.dmaNow + bs.length }) (stageWrite (linearAddr s x true) bs s)
  | 3 =>
    let data := appendData x m
    let s := modEng x.e (fun m => { m with dmaNow := m.dmaNow + data.length }) s
    if x.o.dbuf = 2 then eventAppend x data s else holdAppend x data s
  | _ => modEng x.e (fun m => { m with dmaNow := m.dmaNow + rectBytes x }) (storeRect x m s)

/-! ### Faults and abandonment (R49, R214, R215) -/

/-- Tiles that an abandoned slot's region marks OVERRUN (R49). -/
def slotMarks (b : Bank) (i : Nat) : BitVec 64 :=
  if Bank.slotTile b i < 64 then setBit 0 (Bank.slotTile b i) else Bank.enabledMask b

/-- An ENG_FAULT capture, held until VALID is cleared (R216). -/
def captureFault (cause i : Nat) (f : Sfn) (x : Eng) : Eng :=
  if x.faultValid then x
  else { x with faultValid := true, faultCause := BitVec.ofNat 4 cause, faultSlot := BitVec.ofNat 12 i, faultSfn := f }

/-- A slot is abandoned with a cause: its fate, the marks of its tiles, and the registers of its engine. -/
def abandonSlot (b : Bank) (i cause : Nat) (s : State) : State :=
  if slotEnded s i then s
  else
    let e := Bank.slotEng b i
    let f := (frameSfn s 1).getD 0
    let s := { s with eng := { s.eng with fates := s.eng.fates ++ [(i, if cause = 3 then .abandoned else .faulted)] },
                      tick := { s.tick with engOvrTiles := s.tick.engOvrTiles ||| slotMarks b i } }
    modEng e (fun x =>
      let x := captureFault cause i f x
      let x := if x.running = some i then { x with running := none } else x
      { x with abandonSeen := true, abandonedNow := x.abandonedNow || cause = 3,
               faultSeen := true,
               abandonCnt := if cause = 3 then satInc x.abandonCnt else x.abandonCnt,
               faultCnt := if cause = 3 then x.faultCnt else satInc x.faultCnt }) s

/-- The slots that wait on a barrier to which one of `l` contributes, not ended yet. -/
def waiters (s : State) (b : Bank) (l : List Nat) : List Nat :=
  (List.range (Bank.nSlots b)).filter fun j => !slotEnded s j && l.any fun i =>
    Bank.slotSignal b i ≠ 0xFF && Bank.slotSignal b i = Bank.slotWait b j

/-- Abandon every slot that waits on an abandoned one, directly or through others (R214, R215). -/
def propagate (b : Bank) : Nat → List Nat → State → State
  | 0, _, s => s
  | n + 1, l, s =>
    let w := waiters s b l
    if w.isEmpty then s else propagate b n w (forEach w (fun j => abandonSlot b j 4) s)

/-- The slots that wait on a barrier of one of `l`, directly or through others. -/
def dependants (s : State) (b : Bank) : Nat → List Nat → List Nat
  | 0, l => l
  | n + 1, l => dependants s b n (l ++ waiters s b l).dedup

/-- The running slot of engine e faults (R215): one FRAME-class error, and the slots that wait on it are marked. -/
def faultSlot (b : Bank) (e i cause : Nat) (s : State) : State :=
  let s := raiseErr (mkErr 1 0x19 e cause (word i)) (abandonSlot b i cause s)
  propagate b (Bank.nSlots b) [i] s

/-- Event records of slots that have just ended are written where their place is settled (R298). -/
def afterSlots (b : Bank) (before : List Byte) (s : State) : State := eventsAtSlotEnd b before s

/-- A slot is abandoned at the stop point: an error, unless another slot's fault marks it (R214, R215). -/
def stopSlot (b : Bank) (marked : List Nat) (i : Nat) (s : State) : State :=
  let s := if marked.contains i then s else raiseErr (mkErr 1 0x19 (Bank.slotEng b i) 3 (word i)) s
  abandonSlot b i 3 s

/-- At the stop point, engine e issues no further request, and its slots that have not ended are abandoned (R214). -/
def stopEngine (b : Bank) (marked : List Nat) (e : Nat) (s : State) : State :=
  let l := (Bank.engSlots b e).filter fun i => !slotEnded s i
  if l.isEmpty then s
  else
    modEng e (fun x => { x with stopped := true }) (forEach l (stopSlot b marked) s)

/-- The slots that wait, directly or through others, on a slot that has not ended by the stop point: its fault marks
them, and raises the error (R214, R215). -/
def stopMarked (s : State) (b : Bank) : List Nat :=
  let l := (List.range (Bank.nSlots b)).filter fun i => !slotEnded s i
  l.filter fun i => (l.filter fun j => j ≠ i).any fun j => (dependants s b (Bank.nSlots b) (waiters s b [j])).contains i

/-- Every engine with slots of the frame still to run stops (R214). -/
def stopEngines (s : State) : State :=
  match engineSet s with
  | none => s
  | some b =>
    if !s.eng.active then s
    else
      let before := settledEvents s b
      afterSlots b before (forEach (List.range 96) (stopEngine b (stopMarked s b)) s)

/-! ### The commands and events of this chapter -/

/-- The operator at hand ends, or its fault abandons the slot (R191, R194, R215). A LOAD or STORE holds its requests in a
quiet window (02 R45), and does not end while one of them waits at its port (01 R28). -/
def endOperator (e : Nat) (check : LmemCheck) (hits : List (Nat × EccHit)) (s : State) : State :=
  match engineSet s, (engOf s e).running with
  | some b, some i =>
    if (engOf s e).opsEnded then s
    else
      let x := opCtx s b e i
      let dma := x.o.isLoad || x.o.isStore
      let port := 4 + e / 24
      if dma && (s.memc.quiet || spansWait s port (opSpans s x)) then s else
      let s := match check with
        | .corrected => modEng e (fun m => { m with eccCorr := satInc m.eccCorr, eccSeen := true }) s
        | .uncorrectable => modEng e (fun m => { m with eccUncorr := satInc m.eccUncorr }) s
        | _ => s
      let before := settledEvents s b
      if check = .uncorrectable then afterSlots b before (faultSlot b e i 1 s)
      else if dma && (check = .dmaError || !memServes s) then afterSlots b before (faultSlot b e i 2 s)
      else
        let s := traffic port hits (opSpans s x) s
        if dma && !memServes s then afterSlots b before (faultSlot b e i 2 s) else
        let s := if x.o.isLoad then modEng e (loadOp s x) s
          else if x.o.isStore then storeOp x s
          else modEng e (compute x) s
        let s := { s with free := s.free + 33 + x.g.rows * x.g.cols }
        let rest := (passOps b i x.passNo).filter fun j => x.i < j
        modEng e (fun m => match rest with
          | j :: _ => { m with op := j }
          | [] => toPass b i (x.passNo + 1) m) s
  | _, _ => s

/-- A slot finishes: it contributes to its barrier, its lateness is recorded, and its event records are written (R42,
R213, R298). -/
def endSlot (e : Nat) (s : State) : State :=
  match engineSet s, (engOf s e).running with
  | some b, some i =>
    if !(engOf s e).opsEnded then s
    else
      let now := s.clock.now - s.clock.lastTick
      let plan := planNs b i
      let before := settledEvents s b
      let s := { s with eng := { s.eng with fates := s.eng.fates ++ [(i, .finished)] } }
      let s := modEng e (fun x => { x with
        running := none, opsEnded := false, finishNow := now,
        lateMax := if x.lateMax.toNat < now - plan then satNat 32 (now - plan) else x.lateMax,
        lateSeen := x.lateSeen || decide (plan < now) }) s
      afterSlots b before s
  | _, _ => s

/-- ENGINE_STOP_POINT (R214). -/
def execEngineStopPoint (s : State) : Host.Outcome State Fault Refusal := .next (stopEngines s)

/-- SLOT_START (R42, R195). -/
def execSlotStart (e : Fin 96) (s : State) : Host.Outcome State Fault Refusal := .next (startSlot e.val s)

/-- OPERATOR_END (R191 to R212, R215, R235, R236). -/
def execOperatorEnd (e : Fin 96) (check : LmemCheck) (s : State) (hits : List (Nat × EccHit) := []) :
    Host.Outcome State Fault Refusal := .next (endOperator e.val check hits s)

/-- SLOT_END (R42, R213, R298). -/
def execSlotEnd (e : Fin 96) (s : State) : Host.Outcome State Fault Refusal := .next (endSlot e.val s)

end Sys2Proof.Machine
end

