-- ==== Sys2Proof/Machine/Hold.lean ====
section
/-! DEFINITION. The hold buffer (09 R234 to R242): index entries and retention at the tick, HOLD_FREEZE and HOLD_RELEASE. -/
namespace Sys2Proof.Machine

/-- Appends to the hold buffer that a chain makes in one pass. -/
def holdAppendsOf (b : Bank) (i p : Nat) : Nat :=
  let c := Bank.slotChain b i
  ((passOps b i p).filter fun j =>
    let o := oprOf b c j
    o.isStore && o.mode = 3 && o.dbuf ≠ 2).length

/-- The pieces that a frame has when none is abandoned (R236, R238). -/
def piecesExpected (b : Bank) : Nat :=
  ((List.range (Bank.nSlots b)).map fun i => ((List.range (nPasses b i)).map fun p => holdAppendsOf b i p).sum).sum

/-- A recorded frame is retained (R238). -/
def stillRetained (s : State) (b : Bank) (f : HoldFrame) : Bool :=
  decide (s.hold.cursor.toNat - f.start ≤ holdCap b) && decide (s.hold.count - 1 - f.no < Bank.holdNIdx b)

/-- The registers that show the retained frames (R242). -/
def holdShow (s : State) : State :=
  modHold (fun h => { h with
    tailSfn := match h.retained.head? with | some f => f.sfn | none => 0,
    headSfn := match h.retained.getLast? with | some f => f.sfn | none => 0,
    framesReg := satNat 32 h.retained.length }) s

/-- Retention is judged at each tick; a frame once lost is never retained again (R238). -/
def retain (b : Bank) (s : State) : State :=
  let kept := s.hold.retained.filter fun f => stillRetained s b f
  holdShow (modHold (fun h => { h with
    retained := kept, pieces := h.pieces.filter fun p => kept.any fun f => f.no = p.1 }) s)

/-- The index entries of frames are written, and wait while the controller does not serve (R238; log entry 150). -/
def writeIndex (b : Bank) (s : State) : State :=
  if memServes s then
    modHold (fun h => { h with indexDue := [] })
      (forEach s.hold.indexDue (fun f s =>
        let a := Bank.holdIndex b + 32 * (f.no % Bank.holdNIdx b)
        dramWrite a (indexEntry f) (traffic 10 [] [writes a 32] s)) s)
  else s

/-- Some piece of the frame the engines process is missing, or a freeze cut it (R238, R241). -/
def piecesCut (s : State) (b : Bank) : Bool :=
  decide (s.hold.nowPieces.length < piecesExpected b)
    || (s.memc.frozen && s.hold.nowPieces.any fun p => !pieceComplete (dramHeld s) b (p.2.2.1, p.2.2.2))

/-- The engine period of a frame ends: its index entry is written if the frame was recorded (R238). -/
def holdFrameEnd (s : State) : State :=
  let idle := modHold fun h => { h with
    nowPieces := [], nowCharged := 0, nowStart := 0, skipNow := false, sentNow := 0, waitNow := false }
  match engineSet s with
  | none => idle s
  | some b =>
    let s :=
      if s.eng.active && holdWanted s b then
        let h := s.hold
        let bytes := (h.nowPieces.map fun p => p.2.2.2).sum
        let incomplete := piecesCut s b
        let tooBig := decide (h.nowCharged * 64 < bytes)
        let f : HoldFrame := {
          sfn := (frameSfn s 1).getD 0,
          flags := BitVec.ofNat 32 (incomplete.toNat + ((s.tick.flags.getD 1 0).getLsbD 5).toNat * 2 + tooBig.toNat * 4),
          start := if h.nowPieces.isEmpty then h.cursor.toNat else h.nowStart, bytes, pieces := h.nowPieces.length,
          no := h.count, frameFlags := s.tick.flags.getD 1 0, period := (s.tick.stamps.getD 1 (0, 0)).2 }
        modHold (fun h => { h with
          indexDue := h.indexDue ++ [f], count := h.count + 1, retained := h.retained ++ [f],
          pieces := h.pieces ++ h.nowPieces.map fun p => (f.no, p),
          incompleteSeen := h.incompleteSeen || incomplete, overSeen := h.overSeen || tooBig,
          incompleteCnt := if incomplete then satInc h.incompleteCnt else h.incompleteCnt,
          overCnt := if tooBig then satInc h.overCnt else h.overCnt }) s
      else s
    idle (if Bank.hasHold b then writeIndex b (retain b s) else s)

/-- No HOLD part waits any more (R303). -/
def holdNoWait (s : State) : State :=
  modHost (fun h => { h with streams := h.streams.map fun x => { x with waiting := false } }) s

/-- No frozen frame is left to deliver (R240, R301). -/
def holdUndelivered (s : State) : State :=
  holdNoWait (modHold (fun x => { x with delivering := false, toSend := 0, piecesSent := 0, part := 0 }) s)

/-- A change of the hold state sends vector 5 (R300). -/
def holdEnter (st : HoldState) (s : State) : State :=
  if s.hold.state = st then s else sendVector 5 (modHold (fun h => { h with state := st }) s)

/-- The five result words of HOLD_FREEZE (R239, R317). -/
def holdResult (s : State) : List Word :=
  let bytes := BitVec.ofNat 64 ((s.hold.retained.map fun f => f.bytes).sum)
  [s.hold.tailSfn, s.hold.headSfn, s.hold.framesReg, lo32 bytes, hi32 bytes]

/-- At tick E + 2 a pending record becomes FROZEN, and every HOLD_FREEZE replies (R239). -/
def holdFreezeDue (s : State) : State :=
  if s.hold.state = .pending && !sfnBefore s.tick.sfn (sfnAdd s.hold.endSfn 2) then
    let s := holdEnter .frozen s
    let stream := match activeSet s with | some b => (holdStream b).isSome | none => false
    let n := s.hold.retained.length
    let w := s.hold.waiting
    let s := modHold (fun h => { h with waiting := [], delivering := stream && decide (n ≠ 0), toSend := n,
                                        piecesSent := 0, part := 0 }) s
    forEach w (fun h => reply h 0x25 stOk (holdResult s)) s
  else s

/-- HOLD_FREEZE at its tick (R239). -/
def holdFreeze (h : Hdr) (post : Word) (s : State) : State :=
  match activeSet s with
  | none => reply h 0x25 stNotReady [] s
  | some b =>
    let n := if post = 0xFFFFFFFF#32 then Bank.holdPost b else post.toNat
    let e := sfnAdd s.tick.sfn n
    match s.hold.state with
    | .none => reply h 0x25 stNotReady [] s
    | .frozen => reply h 0x25 stRefused [] s
    | .recording =>
      modHold (fun x => { x with endSfn := e, waiting := x.waiting ++ [h] }) (holdEnter .pending s)
    | .pending =>
      modHold (fun x => { x with endSfn := if sfnBefore x.endSfn e then e else x.endSfn, waiting := x.waiting ++ [h] }) s

/-- HOLD_RELEASE at its tick (R240). -/
def holdRelease (h : Hdr) (force : Bool) (s : State) : State :=
  match s.hold.state with
  | .none => reply h 0x26 stNotReady [] s
  | .recording => reply h 0x26 stOk [] s
  | .pending => reply h 0x26 stBusy [] s
  | .frozen =>
    if s.hold.delivering && !force then reply h 0x26 stBusy [] s
    else reply h 0x26 stOk []
      (modHold (fun x => { x with skipNow := true }) (holdUndelivered (holdEnter .recording s)))

/-- A new record: H is 0 and no frame is retained; the state is RECORDING, or NONE without a hold buffer (R241, R423). -/
def holdRestart (has : Bool) (s : State) : State :=
  modHold (fun h => { Hold.reset with
    state := if has then .recording else .none, incompleteSeen := h.incompleteSeen, overSeen := h.overSeen,
    incompleteCnt := h.incompleteCnt, overCnt := h.overCnt, skipNow := true })
    (holdEnter (if has then .recording else .none) (holdNoWait s))

/-- A reset of the HOST block resets the hold registers, and with H and the retained frames they show the record itself;
the state is RECORDING or NONE as the active set gives (R242; 12 R288). A freeze that waits is refused: DESIGN CHOICE,
log entry 115. -/
def holdReset (s : State) : State :=
  let s := forEach s.hold.waiting (fun h => reply h 0x25 stRefused []) s
  let s := holdRestart (match activeSet s with | some b => Bank.hasHold b | none => false) s
  modHold (fun h => { h with incompleteSeen := false, overSeen := false, incompleteCnt := 0, overCnt := 0 }) s

/-! ### The commands and events of this chapter -/

/-- HOLD_FREEZE (R239). -/
def execHoldFreeze (h : Hdr) (post : Word) (s : State) : Host.Outcome State Fault Refusal :=
  .next (runAtTick h 0x25 (holdFreeze h post) s)

/-- HOLD_FROZEN (R239). -/
def execHoldFrozen (s : State) : Host.Outcome State Fault Refusal := .next (holdFreezeDue s)

/-- HOLD_RELEASE (R240). -/
def execHoldRelease (h : Hdr) (force : Bool) (s : State) : Host.Outcome State Fault Refusal :=
  .next (runAtTick h 0x26 (holdRelease h force) s)

end Sys2Proof.Machine
end

