-- ==== Sys2Proof/Machine/Imaging.lean ====
section
/-! DEFINITION. The imaging states (02 R60, R66 to R69; 03 R76 to R79; 19 R416, R421, R422; 20 R427 to R432): START, STOP,
REPLAY, the entry to FROZEN, the way out of LOW, and the start of a frame. -/
namespace Sys2Proof.Machine

/-! ### Frames -/

/-- Frame k of a tile uses a value older than one period (R39, R126, R375). -/
def frameStale (s : State) (t : Nat) : Bool :=
  let old (i : Nat) : Bool := i ≠ 0xFF && s.hk.stale.getLsbD i
  (tileOf s t).rdo.stale || old (housSlot s t) || old (flagSlot s t)

/-- What the lane does with the frame of the period (R66, R74, R75). -/
def laneMode (s : State) (t : Nat) : LaneMode :=
  if !s.tick.imaging || !tileEnabled s t then .idle
  else if s.tick.replaying || (tileOf s t).port.state = .imaging then .read else .placeholder

/-- The lane of a tile starts its frame (R37, R142, R143) with the first read of its counter-bias words (R108); one that
has started is left as it is. A quadrant PLL out of lock reaches the frame of each of its tiles (R100). -/
def laneStart (t : Nat) (s : State) : State :=
  let mode := laneMode s t
  let stale := frameStale s t
  let locked := (quadOf s (t / 16)).locked
  if mode = .idle || (tileOf s t).lane.work.mode ≠ .idle then s
  else (if mode = .read then fetchAhead t 0 else id) <| modTile t (fun x =>
    let read : Bool := mode = .read
    let held := read && heldPhase x.cal.phase
    { x with
      port := { x.port with firstFrame := x.port.firstFrame && !read,
                            causeNow := if !locked then setBit x.port.causeNow 0 else x.port.causeNow },
      lane := { x.lane with
        work := { LaneWork.reset with mode, held, fresh := read && (x.lane.freshNext || (x.lane.prevHeld && !held)),
                                      staleHk := read && stale, acc := Acc.empty },
        freshNext := x.lane.freshNext && !read } }) s

/-- The first side record bytes of a frame (R67): the tiles' parts follow as their frames end. -/
def sideHeader (s : State) : List Byte :=
  leBytes 4 0x52444953 ++ leBytes 4 (outSfn s) ++ leBytes 8 s.clock.devTime.toNat ++ leBytes 4 s.tick.period.toNat
    ++ leBytes 4 (s.tick.flags.headD 0).toNat ++ List.replicate 40 0 ++ List.replicate 2048 0
    ++ ((List.range 64).flatMap fun i => leBytes 4 (slotValue s i)) ++ List.replicate 1728 0

/-- The raw store begins the side record of its slot (R66). -/
def sideStart (s : State) : State :=
  match activeSet s with
  | none => s
  | some b =>
    if Bank.nRaw b = 0 || !s.tick.imaging then s
    else
      let i := s.cfg.n % Bank.nRaw b
      { s with sides := (i, sideHeader s) :: s.sides.filter fun p => p.1 ≠ i }

/-- P of the period (R33). -/
def periodNow (s : State) : Word := if s.dev.power = .imaging then word (setPeriod s) else s.tick.parkPeriod

/-- The status record of the frame's statistics slot shows 0x00 for the tiles that are not enabled (R148). -/
def clearStatus (s : State) : State :=
  match activeSet s with
  | some b =>
    if s.tick.imaging then forEach ((List.range 64).filter fun t => !Bank.enabled b t) (fun t => putStatus b t 0 []) s else s
  | none => s

/-- After the commands of a tick the frame starts: the first readings and due tiles of R166, the rotation of R167, the
drift terms of R151, and every lane from an empty state. -/
def beginFrame (s : State) : State :=
  let s := modTick (fun t => { t with period := periodNow s }) s
  let live := (List.range 64).filter fun t =>
    (tileOf s t).port.state = .imaging && (tileOf s t).lane.work.mode = .idle && s.tick.imaging
  let s := forEach live firstReadings s
  let s := forEach (List.range 64) evalDue s
  let s := rotate s
  let s := forEach ((activeTiles s).filter fun t => laneMode s t = .read) driftTerms s
  let s := sideStart s
  let s := modTick (fun t => { t with
    frames := (if t.imaging then some (word (outSfn s)) else none) :: t.frames.drop 1 }) s
  forEach (List.range 64) laneStart (clearStatus s)

/-! ### Replay (R66 to R69, R320) -/

/-- The side record of recorded frame f. -/
def replaySide (s : State) (r : ReplaySrc) (f : Nat) : List Byte := dramRead s (r.sideBase + 4096 * f) 4096

/-- The replay plays recorded frame f from this tick on. -/
def replayPlay (r : ReplaySrc) (f : Nat) (s : State) : State :=
  let s := traffic 10 [] [reads (r.sideBase + 4096 * f) 4096] s
  let side := replaySide s r f
  { s with replay := some { r with at_ := f, side, played := r.played + 1,
                                   badMagic := r.badMagic + (!sideGood side).toNat } }

/-- The replay ends and replies (R69, R320). -/
def endReplay (s : State) : State :=
  match s.replay with
  | none => s
  | some r =>
    reply r.hdr 0x24 stOk [word r.played, r.firstSfn, word r.badMagic]
      (modTick (fun t => { t with replaying := false }) { s with replay := none })

/-- At a tick the replay goes on to its next recorded frame, or ends after its last (R69). -/
def replayTick (s : State) : State :=
  match s.replay with
  | none => s
  | some r =>
    if r.at_ + 1 < r.n then replayPlay r (r.at_ + 1) s
    else if r.loop then replayPlay r 0 s else endReplay s

/-- REPLAY at its tick (R320): from here the shutter coils are not driven (R69). TICK_REPLAY_OFS is set once, to k less the
first recorded SFN (R68), and stays so for the whole replay: DESIGN CHOICE, log entry 135. -/
def replayCmd (h : Hdr) (rawBase rawStride sideBase : BitVec 64) (n : Word) (loop : Bool) (s : State) : State :=
  runAtTick h 0x24 (fun s =>
    if s.dev.power = .low then reply h 0x24 stRefused [] s
    else if !s.tick.imaging then reply h 0x24 stNotReady [] s
    else if s.replay.isSome then reply h 0x24 stBusy [] s
    else
      let charge := match activeSet s with | some b => Bank.replayCharge b | none => false
      let rawEnd := rawBase.toNat + (n.toNat - 1) * rawStride.toNat + 203423744
      if !charge || capacity s < rawEnd || capacity s < sideBase.toNat + 4096 * n.toNat then reply h 0x24 stRefused [] s
      else
        let r : ReplaySrc := { hdr := h, rawBase := rawBase.toNat, rawStride := rawStride.toNat,
                               sideBase := sideBase.toNat, n := n.toNat, loop, at_ := 0, played := 0, badMagic := 0,
                               firstSfn := 0, side := [] }
        let first := word (sideU32 (replaySide s r 0) 4)
        let s := forEach (List.range 64) releaseCoil (replayPlay { r with firstSfn := first } 0 s)
        modTick (fun t => { t with replaying := true, replayOfs := word (sfnDiff s.tick.sfn first) }) s) s

/-! ### START and STOP (R60, R78, R79, R429) -/

/-- The device images from this tick: every READY port becomes IMAGING (R78, R422). -/
def startImaging (s : State) : State :=
  let s := modDev (fun d => { d with power := .imaging }) (modTick (fun t => { t with imaging := true, stopping := none }) s)
  forEach ((List.range 64).filter fun t => (tileOf s t).port.state = .ready) enterImaging s

/-- An IMAGING port becomes READY: its measurements and calibration end (R76, R79, R125, R165). -/
def portToReady (cause t : Nat) (s : State) : State :=
  let s := lincalDrop t (calLeave t cause s)
  parkPulse t (modPort t (fun p => { p with state := .ready, cb := .idle }) s)

def imagingPorts (s : State) : List Nat := (List.range 64).filter fun t => (tileOf s t).port.state = .imaging

/-- Frame k is not read, and the device will be PARKED at tick k + 2 (R60, R79). -/
def stopImaging (s : State) : State :=
  let s := endReplay s
  let s := modTick (fun t => { t with imaging := false, stopping := some 0 }) s
  forEach (imagingPorts s) (portToReady 8) s

/-- A change of a port's state ends what rests on it: a tile that leaves IMAGING loses its measurements and its
calibration (R125, R165), and the coil of a port that leaves READY and IMAGING is released (R187). -/
def portChange (t : Nat) (f : State → State) (s : State) : State :=
  let was := (tileOf s t).port.state
  let s := f s
  let now := (tileOf s t).port.state
  let s := if was = .imaging && now ≠ .imaging then lincalDrop t (calLeave t 8 s) else s
  if (was = .imaging || was = .ready) && !(now = .imaging || now = .ready) then releaseCoil t s else s

/-- START at its tick (R60, R317, R432). -/
def startCmd (h : Hdr) (s : State) : State :=
  runAtTick h 0x20 (fun s =>
    if s.dev.power = .low then reply h 0x20 stRefused [] s
    else if !s.cfg.hasActive then reply h 0x20 stNotReady [] s
    else
      let s := if s.tick.imaging then s else startImaging s
      let m := (imagingPorts s).foldl setBit (0 : BitVec 64)
      reply h 0x20 stOk [lo32 m, hi32 m] s) s

/-- STOP at its tick (R60, R306, R317). -/
def stopCmd (h : Hdr) (s : State) : State :=
  runAtTick h 0x21 (fun s =>
    if s.dev.power = .frozen then reply h 0x21 stOk [] { s with err := { s.err with stopWhileFrozen := true } }
    else if !s.tick.imaging then reply h 0x21 stNotReady [] s
    else reply h 0x21 stOk [] (stopImaging s)) s

/-- At entry to PARKED every coil still in HOLD is released and every request is withdrawn (R187). -/
def parkCoil (t : Nat) (s : State) : State :=
  let s := dropRequests t s
  match (coilOf s t).state with
  | .hold => beginRelease t s
  | .wait | .gap => modCoil t (fun c => { c with state := .open }) s
  | _ => s

/-- Two ticks after STOP the device is PARKED (R60). -/
def parkTick (s : State) : State :=
  match s.tick.stopping with
  | none => s
  | some n =>
    if n + 1 < 2 then modTick (fun t => { t with stopping := some (n + 1) }) s
    else
      let s := modDev (fun d => { d with power := .parked }) (modTick (fun t => { t with stopping := none }) s)
      moveReplies (forEach (List.range 64) parkCoil s)

/-! ### The way out of LOW (R427, R431) -/

/-- The reply of a POWER_STATE under way is sent (R430, R431). -/
def endTransition (s : State) : State :=
  match s.dev.transition with
  | none => s
  | some h => reply h 0x71 stOk [] (modDev (fun d => { d with transition := none }) s)

/-- Self-refresh entry (6) or exit (7) of every rank (R264). -/
def traceSelf (cmd : Nat) (s : State) : State := forEach (List.range 8) (traceRanks cmd) s

/-- The device leaves LOW: self-refresh ends, the table restarts and every enabled port enters PREPARE; the PLLs are still
to lock. -/
def leaveLow (to_ : Power) (s : State) : State :=
  let s := modDev (fun d => { d with power := to_ }) (endTransition s)
  let s := modMemc (fun m => { m with selfRefresh := false }) (traceSelf 7 s)
  hkStart (forEach (activeTiles s) enterPrepare s)

/-! ### Entry to FROZEN (R416, R421, R427) -/

/-- Frames of stream m that are read and not yet in delivery: those of the lanes, and for the streams of output DMA those
of the engines. -/
def framesAhead (s : State) (b : Bank) (m : Nat) : Nat :=
  let ty := Bank.strType b m
  let ages := if ty = 0 || ty = 7 then [] else if ty = 5 then [0] else [0, 1]
  (ages.filter fun a => match frameSfn s a with
    | some f => ty = 5 || f.toNat % Bank.strDiv b m = 0
    | none => false).length

/-- The frames that the freeze keeps from delivery are counted as dropped (R421): the one in delivery, and those ahead.
A period that has been cut off delivers nothing more. -/
def dropAll (m : Nat) (s : State) : State :=
  let n := (match streamOpen s m with | some _ => 1 | none => 0)
    + (match activeSet s with | some b => framesAhead s b m | none => 0)
  let s := modStream m (fun x => { x with delivery := none, doneNow := true, waiting := false }) s
  if n = 0 then s
  else modHost (fun h => { h with dropSeen := true })
    (modStream m (fun x => { x with dropSince := x.dropSince + word n, dropCnt := satAdd x.dropCnt n }) s)

/-- A TABLE_LOAD check that runs as the device enters FROZEN ends at once, and its packet is rejected (R318). -/
def freezeChecks (s : State) : State :=
  let l := s.cmdq.checks
  let s := modCmdq (fun c => { c with checks := [] }) s
  forEach l (fun x s => replyReject x.q.hdr 0x22 stFrozen s) s

/-- The device enters FROZEN at the tick after a FATAL error (R261, R416, R425, R427). -/
def enterFrozen (s : State) : State :=
  let cause := s.err.freezeNext
  if cause = 0 || s.dev.power = .off || s.dev.power = .frozen then s
  else
    let imaging := s.tick.imaging
    let s := forEach (List.range 32) dropAll s
    let s := if s.dev.power = .low then leaveLow .frozen s else s
    let s := endReplay (freezeChecks (freezeSaves s))
    let s := forEach (imagingPorts s) (portToReady 9) s
    let s := forEach ((List.range 64).filter fun t => (tileOf s t).cal.phase ≠ .idle) (calLeave · 9) s
    let s := moveReplies (forEach (List.range 64) releaseCoil s)
    let s := modTick (fun t => { t with imaging := false, stopping := none, frames := [none, none, none] }) s
    let s := modMemc (fun m => { m with quiet := false, undo := [] }) s
    let s := modKeep (fun k => { k with freezes := k.freezes + 1 }) s
    let s := { s with eng := EngPeriod.reset,
                      err := { s.err with frozenCause := cause, freezeNext := 0, frozenFromImaging := imaging,
                                          stopWhileFrozen := false } }
    modDev (fun d => { d with power := .frozen }) s

/-! ### The commands -/

/-- START (R60, R78, R317). -/
def execStart (h : Hdr) (s : State) : Host.Outcome State Fault Refusal :=
  let t := startCmd h s
  .next (if t.tick.imaging && !s.tick.imaging then beginFrame t else t)

/-- STOP (R60, R79, R317). -/
def execStop (h : Hdr) (s : State) : Host.Outcome State Fault Refusal := .next (stopCmd h s)

/-- REPLAY (R66, R320). -/
def execReplay (h : Hdr) (rawBase rawStride sideBase : BitVec 64) (n : Word) (loop : Bool) (s : State) :
    Host.Outcome State Fault Refusal := .next (replayCmd h rawBase rawStride sideBase n loop s)

/-- REPLAY_END (R69): a replay that does not loop reaches the tick after its last recorded frame. -/
def execReplayEnd (s : State) : Host.Outcome State Fault Refusal :=
  .next (match s.replay with
    | some r => if r.at_ + 1 < r.n || r.loop then s else endReplay s
    | none => s)

end Sys2Proof.Machine
end

