-- ==== Sys2Proof/Machine/Keep.lean ====
section
/-! DEFINITION. The keeping store (18): the array, its rings and their index, the journaled page write, settlement at
power-up, and the commands and events that act on it. -/
namespace Sys2Proof.Machine

/-! ### The array (R390, R400, R403, R404) -/

def keepBytes (s : State) (a n : Nat) : List Byte := readCells erasedByte s.keep.array a n

/-- Offset in the status page's place: page 4,096 of the model stands for the status page (R402). -/
def statusPage : Nat := 4096

def ringBase (r : Nat) : Nat :=
  if r < 64 then 2048 * r else if r < 68 then 0x20000 + 4096 * (r - 64) else if r = 68 then 0x24000
  else if r = 69 then 0x24800 else 0x2C800 + 2048 * (r - 70)
def ringSlotBytes (r : Nat) : Nat := if r < 68 then 256 else 128
def ringSlots (r : Nat) : Nat := if r < 64 then 8 else if r = 69 then 256 else 16
def ringPayload (r : Nat) : Nat := ringSlotBytes r - 24
def slotAddr (r i : Nat) : Nat := ringBase r + ringSlotBytes r * i
def slotPages (r i : Nat) : List Nat :=
  let p := slotAddr r i / 128
  if ringSlotBytes r = 256 then [p, p + 1] else [p]
def ringPages (r : Nat) : List Nat := (List.range (ringSlots r)).flatMap (slotPages r)

/-- The groups of a range are read and checked (R400): each corrected group is counted, each uncorrectable one is counted
and raises an error. -/
def keepCheck (a n : Nat) (s : State) : State :=
  let bad := s.keep.badGroups.filter fun g => g.1 < a + n && a < g.1 + 4
  forEach bad (fun g s =>
    if g.2 then modKeep (fun k => { k with corrCnt := satInc k.corrCnt, corrSeen := true }) s
    else raiseErr (mkErr 2 0x32 0xFF 0 (word g.1))
      (modKeep (fun k => { k with uncorrCnt := satInc k.uncorrCnt, uncorrSeen := true }) s)) s

def badCount (s : State) (a n : Nat) (corr : Bool) : Nat :=
  (s.keep.badGroups.filter fun g => g.1 < a + n && a < g.1 + 4 && (g.2 == corr)).length

/-! ### Rings (R404, R405) -/

/-- A slot with its header; the CRC covers bytes 0x00 to 0x03 and 0x08 to the end (R404). -/
def slotContent (r seq : Nat) (sfn time : Nat) (payload : List Byte) : List Byte :=
  let rest := leBytes 1 r ++ leBytes 1 0 ++ leBytes 2 payload.length ++ leBytes 4 sfn ++ leBytes 8 time
    ++ (payload ++ List.replicate (ringPayload r - payload.length) 0).take (ringPayload r)
  leBytes 4 seq ++ leBytes 4 (crc32 (leBytes 4 seq ++ rest)).toNat ++ rest

/-- SEQ of a slot when it is valid (R404). -/
def slotSeq (s : State) (r i : Nat) : Option Nat :=
  let b := keepBytes s (slotAddr r i) (ringSlotBytes r)
  let q := leNat (b.take 4)
  if (crc32 (b.take 4 ++ b.drop 8)).toNat = leNat ((b.drop 4).take 4) && (b.getD 8 0).toNat = r && 1 ≤ q
      && q ≤ 0xFFFFFFFE && !s.keep.voided.contains (r, i) then some q else none

/-- Valid slots of a ring as (SEQ, slot). -/
def validSlots (s : State) (r : Nat) : List (Nat × Nat) :=
  (List.range (ringSlots r)).filterMap fun i => (slotSeq s r i).map fun q => (q, i)

/-- Which of the slots that hold one SEQ is kept (R405, cases 2 and 3), and whether their bytes differ. -/
def keptSlot (s : State) (r q : Nat) (slots : List Nat) (valid : List (Nat × Nat)) : Nat × Bool :=
  let content := fun i => keepBytes s (slotAddr r i) (ringSlotBytes r)
  let first := slots.headD 0
  if slots.all fun i => content i = content first then (first, false)
  else
    match slots.filter fun i => valid.contains (q - 1, (i + ringSlots r - 1) % ringSlots r) with
    | [i] => (i, true)
    | _ => (first, true)

/-- Slots with the same SEQ are resolved, in rising SEQ, and those not kept become invalid (R405). -/
def resolveRing (r : Nat) (s : State) : State :=
  forEach ((validSlots s r).map fun p => p.1).dedup.mergeSort (fun q s =>
    let valid := validSlots s r
    let slots := (valid.filter fun p => p.1 = q).map fun p => p.2
    if slots.length < 2 then s
    else
      let k := keptSlot s r q slots valid
      let s := modKeep (fun x => { x with voided := x.voided ++ (slots.filter (· ≠ k.1)).map fun i => (r, i) }) s
      if k.2 then
        raiseErr (mkErr 2 0x33 r k.1 0)
          (modKeep (fun x => { x with dupseq := true, dupRing := BitVec.ofNat 8 r, dupSlot := BitVec.ofNat 8 k.1 }) s)
      else s) s

/-- The ring index names the newest slot (R405). -/
def indexRing (r : Nat) (s : State) : State :=
  let s := resolveRing r s
  let valid := validSlots s r
  let top := valid.foldl (fun m p => if m.1 < p.1 then p else m) (0, 0)
  let x : KeepRing := { seq := word top.1, slot := BitVec.ofNat 8 top.2, empty := valid.isEmpty,
                        valid := BitVec.ofNat 9 valid.length }
  modKeep (fun k => { k with rings := vset k.rings r x }) s

def ringOf (s : State) (r : Nat) : KeepRing := vget s.keep.rings r KeepRing.reset

/-- Slot and SEQ of the next append, `n` appends later (R405). -/
def ringNext (s : State) (r n : Nat) : Nat × Nat :=
  let x := ringOf s r
  if x.empty then (n % ringSlots r, 1 + n) else ((x.slot.toNat + 1 + n) % ringSlots r, x.seq.toNat + 1 + n)

/-! ### The queue (R392, R409) -/

def isRead : KeepWork → Bool
  | .read .. => true
  | .ringRead .. => true
  | _ => false

/-- The ring of an append. -/
def appendRing : KeepWork → Option Nat
  | .append _ r _ => some r
  | .own r _ => some r
  | _ => none

/-- Pages that a scrub rewrites: each that holds a corrected group and no uncorrectable one (R401). -/
def scrubPages (s : State) : List Nat :=
  ((s.keep.badGroups.filter fun g => g.2).map fun g => g.1 / 128).dedup.mergeSort.filter fun p =>
    s.keep.badGroups.all fun g => g.2 || g.1 / 128 ≠ p

/-- Pages that a queued write will change, the items ahead of it given. -/
def writtenPages (s : State) (ahead : List KeepWork) (w : KeepWork) : List Nat :=
  match w with
  | .write _ a _ => [a / 128]
  | .scrub _ => scrubPages s
  | .append .. | .own .. =>
    match appendRing w with
    | some r =>
      if s.keep.ready then slotPages r (ringNext s r (ahead.filter fun x => appendRing x = some r).length).1
      else ringPages r
    | none => []
  | _ => []

/-- Pages that a read touches; a ring read goes by the whole of its ring (DEDUCED, log entry 40). -/
def touchedPages : KeepWork → List Nat
  | .read _ a n => (List.range ((a + n - 1) / 128 + 1 - a / 128)).map (· + a / 128)
  | .ringRead _ r _ => ringPages r
  | _ => []

/-- Whether a read stalls behind the writes ahead of it (R392), or a ring command until the index is built (R398). -/
def stalls (s : State) (ahead : List KeepWork) (w : KeepWork) : Bool :=
  let rec hit : List KeepWork → List KeepWork → Bool
    | _, [] => false
    | before, x :: r => (writtenPages s before x).any (fun p => (touchedPages w).contains p) || hit (before ++ [x]) r
  let ringCmd := match w with | .ringRead .. => true | _ => (appendRing w).isSome
  (ringCmd && !s.keep.ready) || hit [] (ahead.filter fun x => !isRead x)

/-- A read is made and answered (R391, R405). -/
def serveRead (w : KeepWork) (s : State) : State :=
  match w with
  | .read h a n =>
    let w0 := fields [(n, 0), (clampNat (badCount s a n true) 255, 16), (clampNat (badCount s a n false) 255, 24)]
    reply h 0x50 stOk (w0 :: bytesWords (keepBytes s a n)) (keepCheck a n s)
  | .ringRead h r age =>
    let s := indexRing r s
    let valid := ((validSlots s r).mergeSort fun p q => q.1 ≤ p.1)
    match valid with
    | [] => reply h 0x53 stNotReady [] s
    | _ =>
      match valid[age]? with
      | none => reply h 0x53 stBadParam [] s
      | some p =>
        let b := keepBytes s (slotAddr r p.2) (ringSlotBytes r)
        let n := min (leNat ((b.drop 10).take 2)) (ringPayload r) / 4
        reply h 0x53 stOk (word p.1 :: word p.2 :: bytesWords ((b.drop 24).take (4 * n)))
          (keepCheck (slotAddr r p.2) (ringSlotBytes r) s)
  | _ => s

/-- A scrub that has come to the head of the queue reads every group (R401). -/
def beginScrub (s : State) : State :=
  match s.keep.queue, s.keep.current with
  | .scrub _ :: _, none =>
    let ps := scrubPages s
    let fixed := (s.keep.badGroups.filter fun g => g.2 && ps.contains (g.1 / 128)).length
    let s' := keepCheck 0 524288 s
    modKeep (fun k => { k with
      scrubbing := true,
      current := some { pages := ps.map fun p => (p, []), now := none, seq := 0, slot := 0, corrected := fixed,
                        uncorrectable := badCount s 0 524288 false } }) s'
  | _, _ => s

/-- Serve every read of the queue that does not stall, and begin a scrub at its head (R392, R401, R409). What a read adds
to the queue (the log entry of an error) comes after the items already there. -/
def keepPump (s : State) : State :=
  let step := fun (acc : List KeepWork × State) w =>
    if isRead w && !stalls acc.2 acc.1 w then (acc.1, serveRead w acc.2) else (acc.1 ++ [w], acc.2)
  let r := s.keep.queue.foldl step ([], modKeep (fun k => { k with queue := [] }) s)
  beginScrub (modKeep (fun k => { k with queue := r.1 ++ k.queue }) r.2)

def keepEnqueue (w : KeepWork) (s : State) : State :=
  keepPump (modKeep (fun k => { k with queue := k.queue ++ [w] }) s)

/-! ### A page write (R393 to R396, R402) -/

/-- Lowest protected address under BP (R402). -/
def protectedFrom (bp : BitVec 2) : Nat :=
  if bp = 0 then 0x80000 else if bp = 1 then 0x60000 else if bp = 2 then 0x40000 else 0

/-- The item at the head has ended. -/
def keepDone (s : State) : State :=
  keepPump (modKeep (fun k => { k with queue := k.queue.tail, current := none, scrubbing := false, retryWait := false }) s)

/-- Bytes of a page write placed in the page: the page as stored with the new bytes merged (R393). -/
def mergePage (old : List Byte) (new : List (Nat × Byte)) : List Byte :=
  (List.range 128).map fun i => match new.find? fun p => p.1 = i with | some p => p.2 | none => old.getD i 0xFF

/-- The first of an item's page writes is set up: what is written where (R323, R404, R405). -/
def setUp (w : KeepWork) (s : State) : State × KeepBusy :=
  let none' : KeepBusy := { pages := [], now := none, seq := 0, slot := 0, corrected := 0, uncorrectable := 0 }
  let ring := fun r payload (s : State) =>
    let s := indexRing r s
    let n := ringNext s r 0
    let b := slotContent r n.2 s.tick.sfn.toNat s.clock.devTime.toNat payload
    let part := fun (p o : Nat) => (p, (((b.drop o).take 128).zipIdx).map fun x => (x.2, x.1))
    let ps := slotPages r n.1
    let pages := match ps with | [p, q] => [part q 128, part p 0] | _ => ps.map fun p => part p 0
    (s, { none' with pages := pages, seq := word n.2, slot := n.1 })
  match w with
  | .write _ a d => (s, { none' with pages := [(a / 128, (d.zipIdx).map fun x => (a % 128 + x.2, x.1))] })
  | .append _ r p => ring r p s
  | .own r p => ring r p s
  | .protect _ bp => (s, { none' with pages := [(statusPage, [(0, BitVec.ofNat 8 bp.toNat)])] })
  | _ => (s, none')

/-- The reply of the item at the head of the queue, when a host asked for it. -/
def workReply (w : KeepWork) (st : BitVec 16) (ws : List Word) (s : State) : State :=
  match w with
  | .write h .. => reply h 0x51 st ws s
  | .append h .. => reply h 0x52 st ws s
  | .protect h _ => reply h 0x54 st ws s
  | .scrub h => reply h 0x55 st ws s
  | _ => s

/-- The journal phase of the next page of the item begins: its page is read, checked and merged (R393). -/
def startPage (b : KeepBusy) (s : State) : State :=
  match b.pages with
  | [] => s
  | p :: r =>
    let s := if p.1 = statusPage then s else keepCheck (128 * p.1) 128 s
    let content := if p.1 = statusPage then p.2.map fun x => x.2 else mergePage (keepBytes s (128 * p.1) 128) p.2
    modKeep (fun k => { k with current := some { b with pages := r, now := some (p.1, content) }, retryWait := false }) s

/-- The next page write starts, or waits or is refused for VKEEP or protection (R396, R402). -/
def tryStart (vkeep : BitVec 16) (s : State) : State :=
  match s.keep.queue with
  | [] => s
  | w :: _ =>
    if isRead w || stalls s [] w || (match s.keep.current with | some b => b.now.isSome | none => false) then s
    else
      let s := modKeep (fun k => { k with vkeepMv := vkeep, vkeepOk := 2900 ≤ vkeep.toNat }) s
      let fresh := s.keep.current.isNone
      let last := match s.keep.current with | some b => b.pages.isEmpty | none => false
      if last then s
      else if vkeep.toNat < 2900 then
        match w with
        | .own r _ =>
          -- A write held for VKEEP raises KEEP_WRITE_FAIL when it is first held (R412; log entry 41).
          let s' := modKeep (fun k => { k with vkeepLow := true, retryWait := true }) s
          if s.keep.retryWait then s' else raiseErr (mkErr 2 0x34 r 0 0) s'
        | _ => keepDone (workReply w stNotReady []
            (modKeep (fun k => { k with vkeepLow := true, refVkeep := satInc k.refVkeep }) s))
      else
        let r := if fresh then setUp w s
          else (s, s.keep.current.getD { pages := [], now := none, seq := 0, slot := 0, corrected := 0, uncorrectable := 0 })
        let barred := match w with
          | .scrub _ => false
          | _ => fresh && r.2.pages.any fun p => p.1 ≠ statusPage && p.2.any fun x =>
              protectedFrom s.keep.bp ≤ 128 * p.1 + x.1
        if barred then
          let s := modKeep (fun k => { k with protectHit := true, refProtect := satInc k.refProtect }) r.1
          match w with
          | .own ring _ => keepDone (raiseErr (mkErr 2 0x34 ring 0 0) s)
          | _ => keepDone (workReply w stProtected [] s)
        else startPage r.2 r.1

/-- A page in its target: fresh check bits, and the counts of R395 (R393). -/
def landPage (p : Nat × List Byte) (s : State) : State :=
  modKeep (fun k =>
    let k := { k with writeCnt := satInc k.writeCnt, lifeWrites := k.lifeWrites + 1, jMarker := false, jWritten := false }
    if p.1 = statusPage then { k with bp := BitVec.ofNat 2 (p.2.headD 0).toNat }
    else { k with array := writeCells erasedByte k.array (128 * p.1) p.2,
                  badGroups := k.badGroups.filter fun g => g.1 / 128 ≠ p.1 }) s

/-- Step 4 of a page write ends; after the last page of an item its requester is answered (R394, R323). -/
def endPage (s : State) : State :=
  match s.keep.current with
  | none => s
  | some b =>
    match b.now with
    | none => s
    | some p =>
      let s := modKeep (fun k => { k with current := some { b with now := none } }) (landPage p s)
      match s.keep.queue with
      | [] => modKeep (fun k => { k with current := none }) s
      | w :: rest =>
        if !b.pages.isEmpty then s
        else
          match w with
          | .write .. => keepDone (workReply w stOk [] s)
          | .protect .. => keepDone (workReply w stOk [word s.keep.bp.toNat] s)
          | .append _ r _ | .own r _ =>
            let s := modKeep (fun k => { k with voided := k.voided.filter (· ≠ (r, b.slot)) }) s
            keepDone (workReply w stOk [b.seq, word b.slot] (indexRing r s))
          | _ => modKeep (fun k => { k with queue := w :: rest }) s

/-! ### Counters the control cores hold (R407, R408) -/

/-- The payload of coil ring 64 + i (R408). -/
def coilPayload (s : State) (i : Nat) : List Byte :=
  (List.range 16).flatMap (fun j =>
    let c := coilOf s (16 * i + j)
    leBytes 4 c.lifeAct.toNat ++ leBytes 4 c.dipT.toNat ++ leBytes 2 c.lifeFaults.toNat ++ leBytes 2 c.lifeRetries.toNat)
    ++ List.replicate 40 0

def devicePayload (s : State) : List Byte :=
  leBytes 8 (s.keep.onNs / 1000000000) ++ leBytes 8 (s.keep.imagingNs / 1000000000) ++ leBytes 4 s.keep.powerUps.toNat
    ++ leBytes 4 s.keep.freezes.toNat ++ leBytes 4 s.keep.completions.toNat ++ leBytes 4 s.keep.discards.toNat

/-- Rings 64 to 68 are appended (R408). -/
def counterAppend (s : State) : State :=
  let s' := forEach (List.range 4) (fun i s => keepOwn (64 + i) (coilPayload s i) s) s
  modKeep (fun k => { k with appendAge := 0 }) (keepOwn 68 (devicePayload s') s')

/-- Entry to PARKED or LOW: the counters are appended when the last append is more than 60 s old (R408). -/
def counterEntry (s : State) : State := if 60000000000 < s.keep.appendAge then counterAppend s else s

/-- The counters are offered to the keeping store when the device enters PARKED or LOW (18 R408). -/
def noteEntry (was : Power) (s : State) : State :=
  if s.dev.power ≠ was && (s.dev.power = .parked || s.dev.power = .low) then counterEntry s else s

/-- Payload of the newest slot of a ring; none when it is empty. -/
def newestPayload (s : State) (r : Nat) : Option (List Byte) :=
  let x := ringOf s r
  if x.empty then none else some ((keepBytes s (slotAddr r x.slot.toNat) (ringSlotBytes r)).drop 24)

def u32At (b : List Byte) (o : Nat) : Nat := leNat ((b.drop o).take 4)

/-- The lifetime totals go on from the newest records (R407). -/
def loadTotals (s : State) : State :=
  let s := forEach (List.range 64) (fun t s =>
    match newestPayload s t with
    | some b => modKeep (fun k => { k with calCount := vmod k.calCount t fun x => satAdd x (u32At b 0),
                                           calAband := vmod k.calAband t fun x => satAdd x (u32At b 4) }) s
    | none => s) s
  let s := forEach (List.range 64) (fun t s =>
    match newestPayload s (64 + t / 16) with
    | some b =>
      let e := b.drop (12 * (t % 16))
      modCoil t (fun c => { c with lifeAct := satAdd c.lifeAct (u32At e 0),
                                   lifeFaults := satAdd c.lifeFaults (leNat ((e.drop 8).take 2)),
                                   lifeRetries := satAdd c.lifeRetries (leNat ((e.drop 10).take 2)) }) s
    | none => s) s
  match newestPayload s 68 with
  | some b => modKeep (fun k => { k with
      onNs := k.onNs + 1000000000 * leNat (b.take 8), imagingNs := k.imagingNs + 1000000000 * leNat ((b.drop 8).take 8),
      powerUps := satAdd k.powerUps (u32At b 16), freezes := satAdd k.freezes (u32At b 20),
      completions := satAdd k.completions (u32At b 24), discards := satAdd k.discards (u32At b 28) }) s
  | none => s

/-! ### Resets (R399, R410) -/

/-- A fundamental reset of the main die: a page write under way runs on, everything queued is lost, and the KEEP
registers are reset but for the fields marked L (R399, R410). -/
def keepMainReset (k : Keep) : Keep :=
  { Keep.reset with
    array := k.array, badGroups := k.badGroups, bp := k.bp, lifeWrites := k.lifeWrites, jMarker := k.jMarker,
    jGood := k.jGood, jWritten := k.jWritten, jPage := k.jPage, jData := k.jData, jStatus := k.jStatus,
    settled := k.settled, action := k.action, page := k.page, voided := k.voided, badDue := k.badDue,
    current := match k.current with
      | some b => if b.now.isSome then some { b with pages := [] } else none
      | none => none }

/-- The keeping die loses all power, a page write under way being cut off at the point given (R393, R398). -/
def keepPowerLoss (cut : KeepCut) (k : Keep) : Keep :=
  let k' := { keepMainReset k with settled := false, voided := [], current := none }
  match cut, k.current with
  | .none, _ => k
  | _, none => k'
  | c, some b =>
    match b.now with
    | none => k'
    | some p =>
      let j := { k' with jPage := BitVec.ofNat 12 p.1, jStatus := p.1 = statusPage, jData := p.2, jWritten := true }
      match c with
      | .journalTorn => { j with jMarker := false, jGood := false }
      | .journalWhole => { j with jMarker := false, jGood := true }
      | .marked | .targetTorn => { j with jMarker := true, jGood := true }
      | _ =>
        let t := { j with jMarker := true, jGood := true }
        if p.1 = statusPage then { t with bp := BitVec.ofNat 2 (p.2.headD 0).toNat }
        else { t with array := writeCells erasedByte t.array (128 * p.1) p.2 }

/-- The action of R398 on the journal page last in use. -/
def settle (k : Keep) : Keep :=
  let pg : BitVec 12 := if k.jStatus then 0 else k.jPage
  if !k.jMarker then
    if k.jWritten then { k with settled := true, action := 2, page := pg, discards := satInc k.discards }
    else { k with settled := true, action := 0, page := 0 }
  else if k.jGood then
    let k := { k with settled := true, action := 1, page := pg, completions := satInc k.completions, jMarker := false,
                      jWritten := false, lifeWrites := k.lifeWrites + 1 }
    if k.jStatus then { k with bp := BitVec.ofNat 2 (k.jData.headD 0).toNat }
    else { k with array := writeCells erasedByte k.array (128 * k.jPage.toNat) k.jData,
                  badGroups := k.badGroups.filter fun g => g.1 / 128 ≠ k.jPage.toNat }
  else { k with settled := true, action := 3, page := pg, jMarker := false, jWritten := false, badDue := true }

/-! ### Commands and events -/

def readKeep (h : Hdr) (a n : Nat) (s : State) : State := runAtTick h 0x50 (keepEnqueue (.read h a n)) s
def writeKeep (h : Hdr) (a n : Nat) (ws : List Word) (s : State) : State :=
  runAtTick h 0x51 (keepEnqueue (.write h a ((wordsBytes ws).take n))) s
def appendKeep (h : Hdr) (r : Nat) (ws : List Word) (s : State) : State :=
  runAtTick h 0x52 (keepEnqueue (.append h r (wordsBytes ws))) s
def ringReadKeep (h : Hdr) (r age : Nat) (s : State) : State := runAtTick h 0x53 (keepEnqueue (.ringRead h r age)) s
def protectKeep (h : Hdr) (bp : BitVec 2) (s : State) : State := runAtTick h 0x54 (keepEnqueue (.protect h bp)) s
def scrubKeep (h : Hdr) (s : State) : State := runAtTick h 0x55 (keepEnqueue (.scrub h)) s

/-- KEEP_READ (R391, R392). -/
def execKeepRead (h : Hdr) (addr bytes : Word) (s : State) : Host.Outcome State Fault Refusal :=
  .next (readKeep h addr.toNat bytes.toNat s)

/-- KEEP_WRITE (R323, R393). -/
def execKeepWrite (h : Hdr) (addr bytes : Word) (data : List Word) (s : State) : Host.Outcome State Fault Refusal :=
  .next (writeKeep h addr.toNat bytes.toNat data s)

/-- KEEP_RING_APPEND (R405, R406). -/
def execKeepRingAppend (h : Hdr) (ring : BitVec 8) (payload : List Word) (s : State) :
    Host.Outcome State Fault Refusal := .next (appendKeep h ring.toNat payload s)

/-- KEEP_RING_READ (R405). -/
def execKeepRingRead (h : Hdr) (ring : BitVec 8) (age : Word) (s : State) : Host.Outcome State Fault Refusal :=
  .next (ringReadKeep h ring.toNat age.toNat s)

/-- KEEP_PROTECT (R402). -/
def execKeepProtect (h : Hdr) (bp : BitVec 2) (s : State) : Host.Outcome State Fault Refusal :=
  .next (protectKeep h bp s)

/-- KEEP_SCRUB (R401). -/
def execKeepScrub (h : Hdr) (s : State) : Host.Outcome State Fault Refusal := .next (scrubKeep h s)

/-- KEEP_SCRUB_END (R401): once every page of the scrub is rewritten, its counts are replied. -/
def execKeepScrubEnd (s : State) : Host.Outcome State Fault Refusal :=
  match s.keep.queue, s.keep.current with
  | w :: _, some b =>
    if s.keep.scrubbing && b.pages.isEmpty && b.now.isNone then
      .next (keepDone (workReply w stOk [131072, word b.corrected, word b.uncorrectable] s))
    else .next s
  | _, _ => .next s

/-- KEEP_PAGE_WRITE_START (R393, R396, R402): a write held for VKEEP waits for its retry. -/
def execKeepPageWriteStart (vkeep : BitVec 16) (s : State) : Host.Outcome State Fault Refusal :=
  .next (if s.keep.retryWait then s else tryStart vkeep s)

/-- KEEP_PAGE_WRITE_END (R394). -/
def execKeepPageWriteEnd (s : State) : Host.Outcome State Fault Refusal := .next (endPage s)

/-- KEEP_VKEEP_RETRY (R396). -/
def execKeepVkeepRetry (vkeep : BitVec 16) (s : State) : Host.Outcome State Fault Refusal :=
  .next (if s.keep.retryWait then tryStart vkeep s else s)

/-- KEEP_SETTLEMENT (R398): VKEEP has risen and the die has not yet settled. -/
def execKeepSettlement (s : State) : Host.Outcome State Fault Refusal :=
  .next (if s.keep.settled then s else modKeep settle s)

/-- KEEP_RING_INDEX_BUILT (R398, R405, R407): the index of every ring, the lifetime totals, and READY. -/
def execKeepRingIndexBuilt (s : State) : Host.Outcome State Fault Refusal :=
  .next (if s.keep.settled && !s.keep.ready then
    keepPump (modKeep (fun k => { k with ready := true }) (loadTotals (forEach (List.range 80) indexRing s)))
  else s)

/-- COUNTER_APPEND_TIMER (R408). -/
def execCounterAppendTimer (s : State) : Host.Outcome State Fault Refusal :=
  .next (if s.dev.power = .off then s else counterAppend s)

end Sys2Proof.Machine
end

