-- ==== Sys2Proof/Machine/ConfigSet.lean ====
section
/-! DEFINITION. Configuration sets (14 R333 to R341; 02 R58, R59): writing the shadow bank, COMMIT_SHADOW and the end of
its checks, SWAP_CONFIG with everything a swap changes, CFG_STATUS, the shadow lock, and parity of the active bank
(19 R425). -/
namespace Sys2Proof.Machine

/-- Bytes of a bank (R327). -/
def bankBytes : Nat := 8388608

/-- A write into the shadow bank that is taken ends the committed state, and spoils a commit whose checks run (R333,
R338). -/
def writeShadow (ofs : Nat) (bs : List Byte) (s : State) : State :=
  modCfg (fun c => { c with shadow := writeCells zeroByte c.shadow ofs bs, committed := false,
                            commit := c.commit.map fun x => { x with changed := true } }) s

/-- A full-word write through the shadow window: dropped during the lock (R59). -/
def shadowWord (ofs : Nat) (v : Word) (s : State) : State :=
  if s.cfg.locked then modTick (fun t => { t with shadowDrop := true }) s else writeShadow ofs (leBytes 4 v.toNat) s

/-- WRITE_CFG at its tick (R316, R59). -/
def writeCfg (h : Hdr) (ofs : Word) (vals : List Word) (s : State) : State :=
  runAtTick h 0x10 (fun s =>
    if s.cfg.locked then reply h 0x10 stBusy [] s
    else reply h 0x10 stOk [word vals.length] (writeShadow ofs.toNat (wordsBytes vals) s)) s

/-! ### COMMIT_SHADOW (R334 to R338) -/

/-- COMMIT_SHADOW at its tick: the checks start, against the state of the device at this tick. -/
def commitShadow (h : Hdr) (bytes crc : Word) (s : State) : State :=
  runAtTick h 0x11 (fun s =>
    if s.cfg.locked || s.cfg.commit.isSome then reply h 0x11 stBusy [] s
    else modCfg (fun c => { c with commit := some {
      hdr := h, bytes := bytes.toNat, crc, against := c.generation, changed := false, trained := s.memc.trained,
      mts := s.memc.mts.toNat, rate := linkRate s } }) s) s

/-- A whole-value failure of reasons 0x02 and 0x03. -/
structure CommitResult where
  reason : Nat
  detail : Word
  rt : Nat
  all : Nat
  deriving DecidableEq, Repr

def faultResult (f : SetFault) : CommitResult := ⟨f.reason, f.detail, 0, 0⟩

/-- The checks of a commit in ascending code (R336). A set written during its checks ends with 0x1A (R338): the charges
reported are then free, since the manual does not say of which content they are (log entry 10). -/
def commitResult (s : State) (c : Commit) (parity : Option (BitVec 17)) : CommitResult :=
  let b := s.cfg.shadow
  let computed := crc32 (readCells zeroByte b 0 c.bytes)
  if c.changed then
    ⟨0x1A, (⟨0x1A, 0, 0xFF, 0⟩ : SetFault).detail,
      (Config.word s.free).toNat + 2 ^ 32 * (Config.word (s.free + 1)).toNat,
      (Config.word (s.free + 2)).toNat + 2 ^ 32 * (Config.word (s.free + 3)).toNat⟩
  else if !c.trained then faultResult ⟨0x01, 0, 0xFF, 0⟩
  else match parity with
  | some p => ⟨0x02, word p.toNat, 0, 0⟩
  | none =>
    if computed ≠ c.crc then ⟨0x03, computed, 0, 0⟩
    else match firstFault [headerCheck b c.bytes, directoryCheck b, reservedCheck b, rangeCheck b, readoutCheck b,
        needEach (Bank.enabledTiles b) 0x09 1 (phaseOk b), needEach (Bank.enabledTiles b) 0x0A 1 (prepOk b),
        needEach (List.range 16) 0x0B 5 (shutterOk b), rotationCheck b, hkCheck b, regionCheck (capacity s) b, ringCheck b, pisteCheck b,
        chainCheck b, placementCheck b, needEach (List.range 32) 0x13 10 (streamOk b), holdCheck b] with
      | some f => faultResult f
      | none =>
        let x := fitAll b (activeSet s) c.rate c.mts
        match x.1 with
        | some f => ⟨f.reason, f.detail, x.2.1, x.2.2⟩
        | none => ⟨0, (⟨0, 0, 0xFF, 0⟩ : SetFault).detail, x.2.1, x.2.2⟩

/-- The checks end and the reply is sent; the set is committed if it is admitted (R333, R334). -/
def commitEnd (parity : Option (BitVec 17)) (s : State) : State :=
  match s.cfg.commit with
  | none => s
  | some c =>
    let r := commitResult s c parity
    let ok := r.reason = 0
    let s := { s with free := s.free + 4 }
    let s := modCfg (fun g => { g with
      commit := none, lastReason := BitVec.ofNat 8 r.reason, committed := ok,
      committedCrc := if ok then c.crc else g.committedCrc, committedBytes := if ok then c.bytes else g.committedBytes,
      committedAgainst := if ok then c.against else g.committedAgainst }) s
    let rt := BitVec.ofNat 64 r.rt
    let al := BitVec.ofNat 64 r.all
    reply c.hdr 0x11 (if ok then stOk else stRefused) [word r.reason, r.detail, lo32 rt, hi32 rt, lo32 al, hi32 al] s

/-! ### SWAP_CONFIG (R339) -/

/-- Bytes of two banks at two places are the same. -/
def sameBytes (x y : Bank) (a a' n : Nat) : Bool := decide (readCells zeroByte x a n = readCells zeroByte y a' n)

/-- The new set keeps the hold record going (R241). -/
def keepsHold (old new : Bank) : Bool :=
  if Bank.hasHold old && Bank.hasHold new then
    holdBase old = holdBase new && holdCap old = holdCap new && Bank.holdIndex old = Bank.holdIndex new
      && Bank.holdNIdx old = Bank.holdNIdx new && Bank.holdDiv old = Bank.holdDiv new
  else !Bank.hasHold old && !Bank.hasHold new

/-- The swap is refused (R58, R241, R339). -/
def swapRefused (s : State) : Bool :=
  !s.cfg.committed || s.cfg.committedAgainst ≠ s.cfg.generation
    || ((s.hold.state = .pending || s.hold.state = .frozen) &&
      match activeSet s with | some o => !keepsHold o s.cfg.shadow | none => false)

/-- What makes a port prepare again (R77): PCLK_KHZ, BREF CODE, RAMP_US, CB_IDLE or the TCFG list. -/
def prepChanged (o n : Bank) (t : Nat) : Bool :=
  Bank.pclkKhz o ≠ Bank.pclkKhz n || Bank.tileWord o t 0x0C ≠ Bank.tileWord n t 0x0C
    || Bank.tileWord o t 0x10 ≠ Bank.tileWord n t 0x10 || Bank.u8 o (Bank.tileRec o t + 0x30) ≠ Bank.u8 n (Bank.tileRec n t + 0x30)
    || !sameBytes o n (Bank.tileRec o t + 0x100) (Bank.tileRec n t + 0x100) 128

/-- The set enabled a tile (none: no set). -/
def enabledIn (b : Option Bank) (t : Nat) : Bool := match b with | some x => Bank.enabled x t | none => false

/-- A swap enables a tile that was disabled. -/
def swapEnables (old : Option Bank) (new : Bank) (t : Nat) : Bool := Bank.enabled new t && !enabledIn old t

/-- The port of a tile at a swap (R76, R77, R80); in LOW every port stays OFF. -/
def swapPort (old : Option Bank) (new : Bank) (t : Nat) (s : State) : State :=
  if enabledIn old t && !Bank.enabled new t then portChange t (shutPort t) s
  else if s.dev.power = .low then s
  else if swapEnables old new t then portChange t (enterPrepare t) s
  else match old with
    | some o => if Bank.enabled new t && prepChanged o new t && (tileOf s t).port.state ≠ .off then
        portChange t (enterPrepare t) s else s
    | none => s

/-- Cause 7 of R164: the lane record, the calibration record, the rotation record, PERIOD_NS or PCLK_KHZ changes. -/
def calChanged (o n : Bank) (t : Nat) : Bool :=
  Bank.periodNs o ≠ Bank.periodNs n || Bank.pclkKhz o ≠ Bank.pclkKhz n
    || !sameBytes o n (Bank.laneRec o t) (Bank.laneRec n t) 128 || !sameBytes o n (calRecAt o t) (calRecAt n t) 64
    || !sameBytes o n (Bank.secOfs o 4) (Bank.secOfs n 4) 576

/-- The banks exchange roles (R339); the shadow lock begins (R59). -/
def exchangeBanks (s : State) : State :=
  modCfg (fun c => { c with
    active := c.shadow, shadow := c.active, hasActive := true, hadPrev := c.hasActive, generation := c.generation + 1,
    committed := false, activeCrc := c.committedCrc, activeSfn := s.tick.sfn, n := 0, prevN := c.n - 1, locked := true,
    parityBad := false }) s

/-- Table k of a tile takes the base of the new set (R146): the swap enables the tile or changes its BASE or STRIDE. -/
def baseMoves (old : Option Bank) (new : Bank) (t k : Nat) : Bool :=
  match old with
  | some o => !Bank.enabled o t || Bank.tblBase o t k ≠ Bank.tblBase new t k || Bank.tblStride o t k ≠ Bank.tblStride new t k
  | none => true

/-- The current assignment of the O and target regions stays (R162). -/
def keepsRegions (old : Option Bank) (new : Bank) (t : Nat) (s : State) : Bool :=
  let o := (tileOf s t).lane.o.toNat
  let g := (tileOf s t).cal.target.toNat
  let o' := Bank.tblBase new t 1
  let g' := Bank.targetBase new t
  match old with
  | some x => Bank.enabled x t && Bank.tblStride x t 1 = Bank.tblStride new t 1 && ((o' = o && g' = g) || (o' = g && g' = o))
  | none => false

/-- The table bases of a tile the new set enables. -/
def swapTables (old : Option Bank) (new : Bank) (t : Nat) (s : State) : State :=
  let a (k : Nat) : BitVec 64 := BitVec.ofNat 64 (Bank.tblBase new t k)
  let both (k : Nat) (x : TblBase) : TblBase := if baseMoves old new t k then { base := a k, write := a k } else x
  let keep := keepsRegions old new t s
  modTile t (fun x => { x with
    lane := { x.lane with
      cb := both 0 x.lane.cb, t := both 4 x.lane.t, g := if baseMoves old new t 2 then a 2 else x.lane.g,
      d := if baseMoves old new t 3 then a 3 else x.lane.d, o := if keep then x.lane.o else a 1 },
    cal := { x.cal with target := if keep then x.cal.target else BitVec.ofNat 64 (Bank.targetBase new t) } }) s

/-- The lane and taps of a tile the new set enables (R127, R142). -/
def swapLane (old : Option Bank) (new : Bank) (t : Nat) (s : State) : State :=
  let fresh := match old with
    | some o => Bank.tileTf new t && (!Bank.tileTf o t || Bank.u16 o (Bank.laneRec o t + 0x40) ≠ Bank.u16 new (Bank.laneRec new t + 0x40))
    | none => Bank.tileTf new t
  let weights := match old with
    | some o => !Bank.enabled o t || Bank.tileWord o t 0x28 ≠ Bank.tileWord new t 0x28
        || Bank.tileWord o t 0x2C ≠ Bank.tileWord new t 0x2C
    | none => true
  let s := modLane t (fun l => { l with freshNext := l.freshNext || fresh }) (swapTables old new t s)
  if weights then reloadTaps t (lincalDrop t s) else s

/-- A named buffer whose entry of R199 changes takes the new entry's BASE, from the next period on (R146). -/
def swapBuffer (old : Option Bank) (new : Bank) (k : Nat) (s : State) : State :=
  let b := BitVec.ofNat 64 (dbufOf new k).base
  let same := match old with | some o => sameBytes o new (dbufAt o k) (dbufAt new k) 32 | none => false
  if same then s else setDbufNext k { base := b, write := b } s

/-- A changed group record releases the coils of the group and clears their faults (R185, R187). -/
def swapGroup (old : Option Bank) (new : Bank) (g : Nat) (s : State) : State :=
  let same := match old with
    | some o => sameBytes o new (Bank.secOfs o 5 + 0x10 + 32 * g) (Bank.secOfs new 5 + 0x10 + 32 * g) 32
    | none => false
  if same then s
  else forEach (groupCoils g) (fun t s => modCoil t (fun c => { c with clearNext := true }) (releaseCoil t s)) s

/-- Frames that the swap keeps from delivery on a stream: those still to come under the old descriptor (R58, R303). -/
def swapLost (s : State) (o : Bank) (m : Nat) : Nat :=
  let ty := Bank.strType o m
  let ages := if ty = 0 || ty = 7 then [] else if ty = 5 then [1] else [1, 2]
  (ages.filter fun a => match frameSfn s a with
    | some f => ty = 5 || f.toNat % Bank.strDiv o m = 0
    | none => false).length

/-- A changed descriptor restarts its stream from zero (R303). -/
def swapStream (old : Option Bank) (new : Bank) (m : Nat) (s : State) : State :=
  let same := match old with | some o => sameBytes o new (Bank.strAt o m) (Bank.strAt new m) 64 | none => false
  if same then s
  else
    let lost := match old with | some o => swapLost s o m | none => 0
    modStream m (fun x => { Stream.reset with
      dropCnt := x.dropCnt, dropSince := word lost, hush := if Bank.strType new m = 5 then 1 else 2 }) s

/-- The rotation record changes: K comes from the set again (R168). -/
def swapRotation (old : Option Bank) (new : Bank) (s : State) : State :=
  let same := match old with | some o => sameBytes o new (Bank.secOfs o 4) (Bank.secOfs new 4) 576 | none => false
  if same then s else forEach (List.range 64) (fun t s => modCal t (fun c => { c with k := BitVec.ofNat 7 (setK s) }) s) s

/-- DUE_SFN follows a new F_CAL (R166). -/
def swapDue (old : Option Bank) (s : State) : State :=
  match old with
  | some o =>
    if Bank.periodNs o ≠ setPeriod s || Bank.u32 o (Bank.secOfs o 4) ≠ calPeriodS s then
      forEach ((List.range 64).filter fun t => Bank.enabled o t && enabledIn (activeSet s) t) setDue s else s
  | none => s

/-- The housekeeping table of a changed section 6 starts at this tick (R376). -/
def swapHk (old : Option Bank) (new : Bank) (s : State) : State :=
  let same := match old with | some o => sameBytes o new (Bank.secOfs o 6) (Bank.secOfs new 6) 1376 | none => false
  if same then s else hkStart (hkStop s)

/-- The hold record goes on or starts anew (R241). -/
def swapHold (old : Option Bank) (new : Bank) (s : State) : State :=
  let same := match old with | some o => keepsHold o new | none => !Bank.hasHold new
  if !same then holdRestart (Bank.hasHold new) s
  else if (holdStream new).isNone then holdUndelivered s
  else s

/-- The device leaves FROZEN with cause 0b10 (R425). -/
def swapThaw (s : State) : State :=
  if s.dev.power = .frozen && s.err.frozenCause = 2 then
    modDev (fun d => { d with power := .parked })
      { s with err := { s.err with frozenCause := 0, frozenFromImaging := false, stopWhileFrozen := false } }
  else s

/-- Everything a successful swap changes at its tick (R339). -/
def swapNow (s : State) : State :=
  let old := activeSet s
  let new := s.cfg.shadow
  let ts := List.range 64
  let s := forEach (Bank.enabledTiles new) (fun t s => match old with
    | some o => if calChanged o new t then calSwap t s else s
    | none => s) s
  let s := forEach ts (swapPort old new) s
  let s := forEach (List.range 4) (fun q => modQuad q fun x => { x with ptr := 0 }) s
  let s := exchangeBanks s
  let s := forEach (Bank.enabledTiles new) (swapLane old new) s
  let s := forEach ts (fun t s => modLane t (fun l => { l with prevSameSet := false }) s) s
  let s := forEach (((s.cfg.dbufBase ++ s.cfg.dbufNext).map fun p => p.1).dedup) (swapBuffer old new) s
  let s := moveReplies (forEach (List.range 16) (swapGroup old new) s)
  let s := forEach (List.range 32) (swapStream old new) s
  let s := swapHold old new (swapHk old new (swapDue old (swapRotation old new s)))
  let s := fillCredits (modMemc (fun m => { m with mapLock := true }) (swapThaw s))
  modTick (fun t => { t with period := periodNow s }) s

/-- SWAP_CONFIG at its tick (R339). -/
def swapConfig (h : Hdr) (s : State) : State :=
  runAtTick h 0x12 (fun s =>
    if s.cfg.commit.isSome then reply h 0x12 stBusy [] s
    else if swapRefused s then reply h 0x12 stRefused [] s
    else let s := swapNow s; reply h 0x12 stOk [s.cfg.activeCrc] s) s

/-- CFG_STATUS at its tick (R316). -/
def cfgStatus (h : Hdr) (s : State) : State :=
  runAtTick h 0x13 (fun s =>
    let c := s.cfg
    reply h 0x13 stOk [fields [(c.hasActive.toNat, 0), (c.committed.toNat, 1), (c.locked.toNat, 2)], c.activeCrc,
      if c.committed then c.committedCrc else 0, c.activeSfn, word c.lastReason.toNat] s) s

/-- The lock ends two ticks after the swap (R59). -/
def endLock (s : State) : State := if 2 ≤ s.cfg.n then modCfg (fun c => { c with locked := false }) s else s

/-- Parity error in the active bank (R412, R417, R425, R427). -/
def cfgParity (ofs64 : BitVec 17) (s : State) : State :=
  if !s.cfg.hasActive || s.dev.power = .off then s
  else
    let s := modCfg (fun c => { c with parityBad := true }) s
    let r := mkErr 0 0x02 0xFF 0 (word ofs64.toNat)
    if s.dev.power = .frozen then raiseErr r s else freezeDue 2 (raiseErr r s)

/-! ### The commands and events of this chapter -/

/-- WRITE_CFG (R316, R333). -/
def execWriteCfg (h : Hdr) (ofs : Word) (vals : List Word) (s : State) : Host.Outcome State Fault Refusal :=
  .next (writeCfg h ofs vals s)

/-- COMMIT_SHADOW (R334). -/
def execCommitShadow (h : Hdr) (bytes crc : Word) (s : State) : Host.Outcome State Fault Refusal :=
  .next (commitShadow h bytes crc s)

/-- COMMIT_CHECKS_END (R334 to R338). -/
def execCommitChecksEnd (parity : Option (BitVec 17)) (s : State) : Host.Outcome State Fault Refusal :=
  .next (commitEnd parity s)

/-- SWAP_CONFIG (R58, R339). -/
def execSwapConfig (h : Hdr) (s : State) : Host.Outcome State Fault Refusal :=
  .next (noteEntry s.dev.power (swapConfig h s))

/-- CFG_STATUS (R316). -/
def execCfgStatus (h : Hdr) (s : State) : Host.Outcome State Fault Refusal := .next (cfgStatus h s)

/-- SHADOW_LOCK_END (R59). -/
def execShadowLockEnd (s : State) : Host.Outcome State Fault Refusal := .next (endLock s)

/-- CFG_PARITY_ERROR (R425). -/
def execCfgParityError (ofs64 : BitVec 17) (s : State) : Host.Outcome State Fault Refusal := .next (cfgParity ofs64 s)

end Sys2Proof.Machine
end

