-- ==== Sys2Proof/Machine/HostPort.lean ====
section
/-! DEFINITION. The host port (12 R280 to R289, R297, R303): the link and its resets, configuration space, and the
consumer registers of the streams. -/
namespace Sys2Proof.Machine

/-- HOST_STATUS (R303). -/
def hostStatus (h : HostPort) : Word :=
  fields [(h.linkUp.toNat, 0), (if h.linkUp then h.speed.toNat else 0, 1), (if h.linkUp then h.width.toNat else 0, 4),
    (h.bme.toNat, 9), (h.roEn.toNat, 10), ((h.msixEn && !h.funcMask).toNat, 11), (h.mps.toNat, 12)]

/-! ### Resets (R288, R289) -/

/-- A delivery of stream m is in progress, which a reset of the host port cuts off. -/
def cutOff (s : State) (m : Nat) : Bool := (streamOf s m).delivery.isSome && (streamOpen s m).isSome

/-- The stream registers return to zero; a delivery cut off is counted as dropped, and the frames dropped since the last
entry are kept for the next one (R288, R289). -/
def resetStream (lost : Bool) (x : Stream) : Stream :=
  { Stream.reset with dropCnt := word lost.toNat, dropSince := x.dropSince + word lost.toNat,
                      doneNow := x.doneNow || lost, hush := x.hush }

/-- HOST offsets 0x000 to 0x7FF, the MSI-X table and the PBA (R288). The link's own state is kept. -/
def resetHostRegs (s : State) : State :=
  let lost : Bool := (List.range 32).any (cutOff s)
  modHost (fun h => { h with
    addrMiss := false, bar2Miss := false, linkDownSeen := false, linkChangeSeen := false, dropSeen := lost,
    consBad := false, missOfs := 0, missWrite := false, missBar0 := 0, missBar2 := 0, tickIrqDiv := 0, linkDownCnt := 0,
    linkChangeCnt := 0, streams := Vector.ofFn fun i : Fin 32 => resetStream (cutOff s i.val) h.streams[i],
    msixTable := [], pba := 0 }) s

/-- Configuration space, except the sticky bits of AER: its status and the ECRC enables (R283, R288). -/
def resetConfigSpace (s : State) : State :=
  modHost (fun h => { h with bme := false, mse := false, msixEn := false, funcMask := false, roEn := false,
                             d3hot := false, mps := 0, mrrs := 2, bar0 := 0, bar2 := 0 }) s

/-- CMDQ offsets 0x000 to 0x038 (R312). -/
def resetRings (s : State) : State :=
  modCmdq (fun c => { c with
    irqEvery := 1, cfgBad := false, tailBad := false, consBad := false, rplLost := false, mboxBusy := false,
    fetchErr := false, ringSize := 0, ringBase := 0, tail := 0, head := 0, rplSize := 0, rplBase := 0, rplProd := 0,
    rplCons := 0, rplWb := 0, sinceIrq := 0 }) (caravanClear s)

/-- What every reset of R288 but a fundamental reset does. -/
def hostReset (s : State) : State := resetRings (resetConfigSpace (resetHostRegs s))

/-- The link is down, and the event is recorded after the reset it causes (R288). -/
def linkGone (s : State) : State :=
  if s.host.linkUp then
    let s := hostReset (modHost (fun h => { h with linkUp := false, speed := 0, width := 0, wasDown := true }) s)
    modHost (fun h => { h with linkDownSeen := true, linkDownCnt := satInc h.linkDownCnt }) s
  else s

/-- A speed and a width of the link (R280, R303). -/
def linkMode (speed : BitVec 3) (width : BitVec 5) : Bool :=
  decide (1 ≤ speed.toNat) && decide (speed.toNat ≤ 5)
    && (width = 1 || width = 2 || width = 4 || width = 8 || width = 16)

/-- The link comes up; after a link down vector 7 falls due (R300). -/
def linkUp (speed : BitVec 3) (width : BitVec 5) (s : State) : State :=
  if s.host.linkUp || !s.dev.released || !linkMode speed width then s
  else
    let was := s.host.wasDown
    let s := modHost (fun h => { h with linkUp := true, speed, width, wasDown := false }) s
    if was then sendVector 7 s else s

/-- The link's width or speed changes (R282). -/
def linkChange (speed : BitVec 3) (width : BitVec 5) (s : State) : State :=
  if s.host.linkUp && linkMode speed width then
    let s := modHost (fun h => { h with speed, width, linkChangeSeen := true, linkChangeCnt := satInc h.linkChangeCnt }) s
    let w := hostStatus s.host
    raiseErr (mkErr 2 0x2B 0xFF (bits w.toNat 8 1) w) s
  else s

/-- Initiate Function Level Reset (R288): as a hot reset, with the link up; requests are held off until it completes. -/
def functionReset (s : State) : State :=
  if s.host.linkUp && s.host.cfgReady && !s.host.flr then hostReset (modHost (fun h => { h with flr := true }) s) else s

/-- The address bits of a BAR of 2 to the `n` bytes. -/
def barAddr (n : Nat) (v : BitVec 64) : BitVec 64 := v >>> n <<< n

/-- A word of the header of configuration space, at the offset that the standard gives it (R283, R284, R286): identity,
the command bits the device has, the BARs, and the subsystem. Where the capabilities lie is not given. -/
def configWord (s : State) (o : Nat) : Option Word :=
  match o with
  | 0x00 => some 0x64001F4C#32
  | 0x04 => some (fields [(s.host.mse.toNat, 1), (s.host.bme.toNat, 2)])
  | 0x08 => some 0x118000B0#32
  | 0x10 => some (lo32 s.host.bar0 ||| 4)
  | 0x14 => some (hi32 s.host.bar0)
  | 0x18 => some (lo32 s.host.bar2 ||| 0xC)
  | 0x1C => some (hi32 s.host.bar2)
  | 0x20 => some 0
  | 0x2C => some (fields [(s.dev.subsysVid.toNat, 0), (s.dev.subsysId.toNat, 16)])
  | 0x30 => some 0
  | _ => none

/-- The deliveries under way are not made once the device may not issue requests (R289). -/
def loseDeliveries (s : State) : State :=
  if canIssue s then s else forEach ((List.range 32).filter fun m => (streamOf s m).delivery.isSome) loseDelivery s

/-- A configuration-space write (R280, R283, R300): not before readiness, nor during a function-level reset. -/
def configWrite (w : CfgSpaceWrite) (s : State) : State :=
  if s.host.cfgReady && s.host.linkUp && !s.host.flr then
    loseDeliveries (modHost (fun h => match w with
      | .busMaster on => { h with bme := on }
      | .memorySpace on => { h with mse := on }
      | .msixEnable on => { h with msixEn := on }
      | .functionMask on => { h with funcMask := on }
      | .d3hot on => { h with d3hot := on }
      | .maxPayload code => if code = 3 then h else { h with mps := code }
      | .relaxedOrdering on => { h with roEn := on }
      | .maxReadRequest code => if 5 < code.toNat then h else { h with mrrs := code }
      | .ecrc generate check => { h with ecrcGen := generate, ecrcCheck := check }
      | .aerStatus u c => { h with aerUncorr := h.aerUncorr &&& ~~~u, aerCorr := h.aerCorr &&& ~~~c }
      | .bar0 addr => { h with bar0 := barAddr 26 addr }
      | .bar2 addr => { h with bar2 := barAddr 36 addr }) s)
  else s

/-! ### Consumer registers (R297, R303) -/

/-- HOST_STR_CONS of stream m: a value past PROD is ignored, past being judged in the half range of 2^32 (DEDUCED, log
entry 151). -/
def writeStrCons (m : Nat) (v : Word) (s : State) : State :=
  let x := streamOf s m
  if (x.prod - v).toNat < 2 ^ 31 then modStream m (fun x => { x with cons := v }) s
  else modHost (fun h => { h with consBad := true }) s

/-- HOST_STR_CONS_CUR of stream m: the value takes effect when its high half is written. -/
def writeConsCur (m : Nat) (hi : Bool) (v : Word) (s : State) : State :=
  if hi then
    let x := streamOf s m
    let c := pair64 x.consCurLo v
    if c.toNat ≤ x.w.toNat then modStream m (fun x => { x with consCur := c }) s
    else modHost (fun h => { h with consBad := true }) s
  else modStream m (fun x => { x with consCurLo := v }) s

/-! ### The commands and events -/

/-- HOST_STR_CONS_WRITE (R297). -/
def execHostStrConsWrite (m : Fin 32) (v : Word) (s : State) : Host.Outcome State Fault Refusal :=
  .next (barAccess (writeStrCons m.val v) s)

/-- HOST_STR_CONS_CUR_WRITE (R297, R303). -/
def execHostStrConsCurWrite (m : Fin 32) (hi : Bool) (v : Word) (s : State) : Host.Outcome State Fault Refusal :=
  .next (barAccess (writeConsCur m.val hi v) s)

/-- CONFIG_SPACE_WRITE (R280, R283, R300). -/
def execConfigSpaceWrite (w : CfgSpaceWrite) (s : State) : Host.Outcome State Fault Refusal := .next (configWrite w s)

/-- LINK_UP (R300). -/
def execLinkUp (speed : BitVec 3) (width : BitVec 5) (s : State) : Host.Outcome State Fault Refusal :=
  .next (linkUp speed width s)

/-- LINK_DOWN (R288). -/
def execLinkDown (s : State) : Host.Outcome State Fault Refusal := .next (linkGone s)

/-- HOT_RESET (R288): the link goes down and is trained again. -/
def execHotReset (s : State) : Host.Outcome State Fault Refusal := .next (linkGone s)

/-- LINK_DISABLE (R288). -/
def execLinkDisable (s : State) : Host.Outcome State Fault Refusal := .next (linkGone s)

/-- FUNCTION_LEVEL_RESET (R288). -/
def execFunctionLevelReset (s : State) : Host.Outcome State Fault Refusal := .next (functionReset s)

/-- FLR_COMPLETE (R288). -/
def execFlrComplete (s : State) : Host.Outcome State Fault Refusal :=
  .next (modHost (fun h => { h with flr := false }) s)

/-- LINK_CHANGE (R282). -/
def execLinkChange (speed : BitVec 3) (width : BitVec 5) (s : State) : Host.Outcome State Fault Refusal :=
  .next (linkChange speed width s)

/-- ENDPOINT_READY (R437): configuration space is ready. -/
def execEndpointReady (s : State) : Host.Outcome State Fault Refusal :=
  .next (if s.dev.released then modHost (fun h => { h with cfgReady := true }) s else s)

end Sys2Proof.Machine
end

