-- ==== Sys2Proof/Machine/Serial.lean ====
section
/-! DEFINITION. SPC, the serial controller (17 R380 to R384), one word at a time: a word is under way when a select is
asserted, words are left and the controller is not stalled. -/
namespace Sys2Proof.Machine

def modSpc (f : Spc → Spc) (s : State) : State := { s with spc := f s.spc }

/-- The boot ROM has ended: the firmware runs (R384, R442). -/
def bootEnded (s : State) : Bool := s.dev.power ≠ .off

/-- BITS of a select (R388). -/
def spcBits (s : State) (sel : Nat) : Nat := (vget s.spc.cfg1 sel 8).toNat % 64

def maskBits (n v : Nat) : Nat := v % 2 ^ n

/-- A word is under way. -/
def wordUnderWay (p : Spc) : Bool := p.asserted && 0 < p.left && !p.stalled

/-- The next word starts, or the controller stalls at the boundary (R381). -/
def spcNext (s : State) : State :=
  match s.spc.tx with
  | w :: r =>
    if s.spc.rx.length < 16 then
      emit (.spcWord (word (maskBits (spcBits s s.spc.sel.toNat) w.toNat)))
        (modSpc (fun p => { p with tx := r, stalled := false }) s)
    else modSpc (fun p => { p with stalled := true }) s
  | [] => modSpc (fun p => { p with stalled := true }) s

/-- The select is released after TRAIL (R380, R382). -/
def spcRelease (s : State) : State :=
  emit (.spcRelease s.spc.sel.toNat)
    (modSpc (fun p => { p with asserted := false, busy := false, stalled := false, left := 0, aborting := false,
                               hold := false }) s)

/-- A transfer is ended at a word boundary: the words not sent are discarded and counted (R382). -/
def spcEnd (s : State) : State :=
  let n := s.spc.left
  spcRelease (modSpc (fun p => { p with tx := p.tx.drop n, abortedCnt := satAdd p.abortedCnt n }) s)

/-- The registers of SPC are reset once the boundary is reached (R382, R436). -/
def spcReset (s : State) : State :=
  if wordUnderWay s.spc then modSpc (fun p => { p with resetting := true }) s
  else
    let s := if s.spc.asserted then spcRelease s else s
    { s with spc := Spc.reset }

/-- Drop a write of SPC while the boot ROM runs (R384). -/
def spcWrite (f : State → State) (s : State) : State :=
  if bootEnded s then f s else modSpc (fun p => { p with cmdDrop := true }) s

/-- GO (R380, R383): a held select takes it, and another select is first released (log entry 42). -/
def spcGo (sel : BitVec 4) (hold : Bool) (count : BitVec 16) : State → State :=
  spcWrite fun s =>
    if s.spc.asserted && 0 < s.spc.left then modSpc (fun p => { p with cmdDrop := true }) s
    else
      let s := if s.spc.asserted && s.spc.sel ≠ sel then spcRelease s else s
      spcNext (modSpc (fun p => { p with busy := true, asserted := true, sel := sel, hold := hold,
                                         left := count.toNat + 1, aborting := false }) s)

/-- ABORT (R382): at a boundary at once, otherwise when the word under way ends. -/
def spcAbort : State → State :=
  spcWrite fun s =>
    if wordUnderWay s.spc then modSpc (fun p => { p with aborting := true }) s
    else if s.spc.asserted then spcEnd s else s

def spcPop : State → State := spcWrite fun s => modSpc (fun p => { p with rx := p.rx.tail }) s

def spcPush (v : Word) : State → State :=
  spcWrite fun s =>
    if s.spc.tx.length < 16 then modSpc (fun p => { p with tx := p.tx ++ [v] }) s
    else modSpc (fun p => { p with txDrop := true }) s

/-- The word under way ends: it is received, and the transfer goes on, stalls, holds or ends (R380 to R382). -/
def spcWordEnd (rx : Word) (s : State) : State :=
  if !wordUnderWay s.spc then s
  else
    let v := word (maskBits (spcBits s s.spc.sel.toNat) rx.toNat)
    let s := modSpc (fun p => { p with rx := p.rx ++ [v], doneCnt := satInc p.doneCnt, left := p.left - 1 }) s
    if s.spc.resetting then { spcRelease s with spc := Spc.reset }
    else if s.spc.aborting then spcEnd s
    else if 0 < s.spc.left then spcNext s
    else if s.spc.hold then s
    else spcRelease s

/-- SPC_GO (R380, R383). -/
def execSpcGo (sel : BitVec 4) (hold : Bool) (count : BitVec 16) (s : State) : Host.Outcome State Fault Refusal :=
  .next (spcGo sel hold count s)

/-- SPC_ABORT (R382). -/
def execSpcAbort (s : State) : Host.Outcome State Fault Refusal := .next (spcAbort s)

/-- SPC_POP (R388). -/
def execSpcPop (s : State) : Host.Outcome State Fault Refusal := .next (spcPop s)

/-- SPC_TXDATA_WRITE (R383). -/
def execSpcTxdataWrite (v : Word) (s : State) : Host.Outcome State Fault Refusal :=
  .next (barAccess (spcPush v) s)

/-- SPC_WORD_END (R381). -/
def execSpcWordEnd (rx : Word) (s : State) : Host.Outcome State Fault Refusal := .next (spcWordEnd rx s)

/-- SPC_RESUME (R381). -/
def execSpcResume (s : State) : Host.Outcome State Fault Refusal :=
  .next (if s.spc.asserted && 0 < s.spc.left && s.spc.stalled then spcNext s else s)

end Sys2Proof.Machine
end

