-- ==== Sys2Proof/Machine/Training.lean ====
section
/-! DEFINITION. Memory training and diagnosis (11): MEM_TRAIN, incremental sweeps, MEM_DIAG with its patterns, and
MEM_RESUME (19 R422). -/
namespace Sys2Proof.Machine

/-! ### Registers and results -/

/-- MEMCH_TRN_QUALITY (R279). -/
def qualityWord (c : Memch) : Word :=
  fields [(c.rdMin.toNat, 0), (c.wrMin.toNat, 8), (c.caEye.toNat, 16), (c.verdict.toNat, 24), (c.clipped.toNat, 26),
    (c.lost.toNat, 27)]

/-- The result words of MEM_TRAIN (R275): quality of the named channels. -/
def trainWords (s : State) (mask : BitVec 8) (attempts : Nat) : List Word :=
  let fails := ((List.range 8).filter fun n => (chOf s n).verdict = 2).foldl setBit (0 : BitVec 8)
  [word s.memc.mts.toNat, fields [(attempts, 0), (fails.toNat, 16)]]
    ++ (List.range 8).map fun n => if mask.getLsbD n then qualityWord (chOf s n) else 0

def setBusy (mask : BitVec 8) (v : Bool) (s : State) : State := forEach (maskList mask) (fun n => modCh n fun c => { c with busy := v }) s

/-- Some named channel runs a MEM_TRAIN or MEM_DIAG (R275). -/
def chBusy (s : State) (mask : BitVec 8) : Bool := (maskList mask).any fun n => (chOf s n).busy
/-- Some named channel is untrained. -/
def chUntrained (s : State) (mask : BitVec 8) : Bool := (maskList mask).any fun n => !(chOf s n).trained

/-- MEMC_STATUS.TRAINED, MEMC_CONFIG and MEMC_RATE_MTS follow the channels (R265, R478). -/
def memcFollow (rate : BitVec 16) (s : State) : State :=
  let any := (List.range 8).any fun n => (chOf s n).trained
  modMemc (fun m => { m with
    trained := (List.range 8).all fun n => (chOf s n).trained, mts := if any then rate else 0,
    capacity := if any then BitVec.ofNat 2 (capacityLog2 s - 33) else 0, ranks := any && s.board.twoRanks }) s

/-- All DRAM content becomes undefined (R271): the content of the channels not trained too (log entry 32), and with it every
side record beside the raw ring. -/
def dramLost (s : State) : State :=
  { s with dram := { cells := [], epoch := s.dram.epoch + 1 }, sides := [] }

/-! ### Eyes (R267) -/

/-- The longest run of adjacent passing points among `n`, as its first point and its length: of two as long the lower
one (DESIGN CHOICE, log entry 155). -/
def longestRun (n : Nat) (pass : Nat → Bool) : Nat × Nat :=
  let step (acc : (Nat × Nat) × (Nat × Nat)) (i : Nat) : (Nat × Nat) × (Nat × Nat) :=
    let (best, cur) := acc
    if pass i then
      let cur := if cur.2 = 0 then (i, 1) else (cur.1, cur.2 + 1)
      (if best.2 < cur.2 then cur else best, cur)
    else (best, (0, 0))
  ((List.range n).foldl step ((0, 0), (0, 0))).1

def passRun {n : Nat} (p : BitVec n) : Nat × Nat := longestRun n fun i => p.getLsbD i
/-- Eye width: the length of the run. -/
def eyeOf {n : Nat} (p : BitVec n) : Nat := (passRun p).2
/-- The middle of the run, of two middle points the lower; none without a passing point. -/
def middleOf {n : Nat} (p : BitVec n) : Option Nat :=
  let r := passRun p
  if r.2 = 0 then none else some (r.1 + (r.2 - 1) / 2)

/-! ### Full training (R270, R271, R423, R478) -/

/-- The hold record is lost with every region (R423). -/
def holdLost (s : State) : State :=
  let w := s.hold.waiting
  let s := forEach w (fun h s => reply h 0x25 stFrozen [0, 0, 0, 0, 0] s) s
  holdRestart (s.hold.state ≠ .none) s

/-- Full training of the named channels starts: they are not served until it ends, and their mode registers are set for
the rate (R270). -/
def trainStart (mask : BitVec 8) (s : State) : State :=
  let s := setBusy mask true (dramLost (forEach (maskList mask) (traceRanks 9) s))
  let s := forEach (maskList mask) (fun n => modCh n fun c => { c with trained := false }) s
  holdLost (modMemc (fun m => { m with diagServed := m.diagServed || m.frozen }) (memcFollow s.memc.rate s))

def widths {n : Nat} (l : List (BitVec n)) : List Nat := l.map eyeOf
/-- The smallest of the eyes. -/
def minEye (l : List Nat) : BitVec 7 := BitVec.ofNat 7 (l.foldl min 64)
def eyes (l : List Nat) : Vector (BitVec 8) 24 := Vector.ofFn fun i : Fin 24 => BitVec.ofNat 8 (l.getD i.val 0)

/-- The delays go to the middles of the runs; a lane without a passing point keeps its own. -/
def centred (l : List (BitVec 64)) (d : Vector Int 24) : Vector Int 24 :=
  Vector.ofFn fun i : Fin 24 => match middleOf (l.getD i.val 0) with | some m => (m : Int) | none => d[i]

/-- Every lane of the channel had a passing point at step 7: for both of its delays, and in the array check (R267, R270). -/
def chPasses (r : ChannelResult) : Bool := (r.rd ++ r.wr).all (fun p => p ≠ 0) && r.array = 0xFFFFFF#24

/-- Some read or write eye lies below EYE_MIN. -/
def chNarrow (eyeMin : Nat) (r : ChannelResult) : Bool := (widths (r.rd ++ r.wr)).any fun w => decide (w < eyeMin)

/-- A named channel takes the verdict of the last attempt (R478). -/
def chTrained (n eyeMin : Nat) (r : ChannelResult) (s : State) : State :=
  modCh n (fun c => { c with
    trained := chPasses r, verdict := if !chPasses r then 2 else if chNarrow eyeMin r then 1 else 0, busy := false,
    rdMin := minEye (widths r.rd), wrMin := minEye (widths r.wr), caEye := BitVec.ofNat 7 (eyeOf r.ca),
    trnSfn := s.tick.sfn, eyeRd := eyes (widths r.rd), eyeWr := eyes (widths r.wr),
    rdDelay := centred r.rd c.rdDelay, wrDelay := centred r.wr c.wrDelay,
    caDelay := match middleOf r.ca with | some m => (m : Int) | none => c.caDelay }) s

/-- Nothing passed on a channel. -/
def ChannelResult.none : ChannelResult := { rd := List.replicate 24 0, wr := List.replicate 24 0, ca := 0, array := 0 }

/-- The rates of R243 below a rate, the highest first. -/
def lowerRates (rate : Nat) : List Nat := (mtsRates.filter fun x => x < rate).reverse

/-- The attempts of a full training (R270): while one fails or shows an eye below EYE_MIN, the next lower rate is tried, if the
training may step down. The rate of the last attempt, the attempts made, and what it showed. -/
def runAttempts (mask : BitVec 8) (eyeMin : Nat) : Nat → List Nat → List (List ChannelResult) → Nat × Nat × List ChannelResult
  | rate, lower, l =>
    let now := l.headD []
    let again := (maskList mask).any fun n =>
      let r := now.getD n ChannelResult.none
      !chPasses r || chNarrow eyeMin r
    match again, lower with
    | true, r :: rs => let (q, n, x) := runAttempts mask eyeMin r rs l.tail; (q, n + 1, x)
    | _, _ => (rate, 1, now)

/-- A full training ends with the results of its last attempt (R478): at most five are made (R270). -/
def trainResults (mask : BitVec 8) (eyeMin rate : Nat) (steps : Bool) (l : List (List ChannelResult)) (s : State) :
    Nat × State :=
  let (rate, n, results) := runAttempts mask eyeMin rate (if steps then (lowerRates rate).take 4 else []) l
  let s := forEach (maskList mask) (fun n => chTrained n eyeMin (results.getD n ChannelResult.none)) s
  let s := modMemc (fun m => { m with rate := BitVec.ofNat 16 rate }) s
  (n, memcFollow (BitVec.ofNat 16 rate) (dramLost s))

/-- The highest rate of R243 that does not exceed MAX_MTS of the boot image (R271); the lowest where none is so low. -/
def startupRate (maxMts : Nat) : Nat := (mtsRates.filter fun x => x ≤ maxMts).foldl max 6400

/-- The training of startup, or the oldest full MEM_TRAIN, ends (R271, R275, R442, R478). -/
def trainEnd (l : List (List ChannelResult)) (s : State) : State :=
  if s.dev.phase = .train then
    let s := (trainResults 0xFF 16 (startupRate s.dev.maxMts.toNat) true l s).2
    hkAsk none (modDev (fun d => { d with phase := .hkcal }) s)
  else match s.memc.train.find? fun r => r.full with
  | none => s
  | some r =>
    let (n, s) := trainResults r.mask r.eyeMin r.rate r.steps l s
    let s := modMemc (fun m => { m with train := m.train.erase r }) s
    reply r.hdr 0x40 stOk (trainWords s r.mask n) s

/-- The rate of a full MEM_TRAIN, and whether it may step down (R270, R274, R275): with an active set, and where some
channel is not named, it trains at the current rate alone. -/
def trainRate (s : State) (mask : BitVec 8) (mts : Word) : Nat × Bool :=
  let steps := !s.cfg.hasActive && mask = 0xFF
  (if steps && mts ≠ 0 then mts.toNat else s.memc.rate.toNat, steps)

/-- MEM_TRAIN at its tick (R275). -/
def memTrain (h : Hdr) (mode : BitVec 2) (mask : BitVec 8) (eyeMin : BitVec 7) (mts period : Word) (s : State) : State :=
  runAtTick h 0x40 (fun s =>
    let full := mode = 0
    let eye := if eyeMin = 0 then 16 else eyeMin.toNat
    let quiet := match activeSet s with | some b => Bank.nQuiet b | none => 0
    if full && (s.dev.power = .imaging || s.dev.power = .low) then reply h 0x40 stRefused [] s
    else if full && s.cfg.hasActive && mts ≠ 0 && mts.toNat ≠ s.memc.mts.toNat then reply h 0x40 stRefused [] s
    else if !full && s.dev.power = .imaging && quiet = 0 then reply h 0x40 stNotReady [] s
    else if !full && chUntrained s mask then reply h 0x40 stNotReady [] s
    else if chBusy s mask then reply h 0x40 stBusy [] s
    else if mode = 2 then
      let on := period ≠ 0
      let s := modMemc (fun m => { m with perMask := if on then mask else 0, perPeriod := period.toNat, perEyeMin := eye,
                                          perNext := 0, diagServed := m.diagServed || m.frozen }) s
      let mark (i : Fin 8) (c : Memch) : Memch := { c with periodic := on && mask.getLsbD i.val }
      reply h 0x40 stOk [] { s with memch := Vector.ofFn fun i => mark i s.memch[i] }
    else
      let (rate, steps) := trainRate s mask mts
      let s := modMemc (fun m => { m with train := m.train ++ [{ hdr := h, full, mask, eyeMin := eye, left := mask, rate, steps }],
                                          diagServed := m.diagServed || m.frozen }) s
      if full then trainStart mask s else setBusy mask true s) s

/-! ### Incremental sweeps (R272, R273, R275) -/

/-- The channel that an INCR sweeps next: the lowest left of the oldest one. -/
def incrNext (s : State) : Option Nat :=
  match s.memc.train.find? fun r => !r.full with
  | some r => (maskList r.left).head?
  | none => none

/-- The channel next in the periodic rotation; one that runs a MEM_DIAG is skipped. -/
def periodicNext (s : State) : Option Nat :=
  ((List.range 8).map fun i => (s.memc.perNext + i) % 8).find? fun n => s.memc.perMask.getLsbD n && !(chOf s n).busy

/-- A sweep may start now: in a quiet window of which 48 µs remain, one sweep a window, or in PARKED and FROZEN. -/
def sweepTime (s : State) : Bool :=
  (s.dev.power = .imaging && s.memc.quiet && !s.memc.sweptWindow
      && decide (s.clock.now + 48000 ≤ s.memc.quietOpenedAt + s.memc.quietLen))
    || s.dev.power = .parked || s.dev.power = .frozen

/-- A sweep of the channel starts, for an INCR or in the periodic rotation. -/
def sweepStart (ch : Nat) (s : State) : State :=
  let go (per : Bool) (s : State) : State :=
    modMemc (fun m => { m with sweeping := if h : ch < 8 then some ⟨ch, h⟩ else none, sweepPeriodic := per,
                               sweptWindow := true, perSince := 0, perNext := if per then (ch + 1) % 8 else m.perNext }) s
  if s.memc.sweeping.isSome || !sweepTime s then s
  else if incrNext s = some ch then go false s
  else if (incrNext s).isNone && s.dev.power = .imaging && s.memc.perMask ≠ 0
      && decide (s.memc.perPeriod ≤ s.memc.perSince) && periodicNext s = some ch then go true s
  else s

/-- The run of a lane holds its old centre, point 24 of the 49 (R272, R273). -/
def holdsCentre (p : LaneSweep) : Bool := let r := passRun p; decide (r.1 ≤ 24) && decide (24 < r.1 + r.2)
/-- The run reaches an end of the sweep (R273). -/
def clipped (p : LaneSweep) : Bool := let r := passRun p; r.2 ≠ 0 && (decide (r.1 = 0) || decide (r.1 + r.2 = 49))
/-- The eye of a lane with its CLIPPED bit. -/
def sweepEye (p : LaneSweep) : Nat := eyeOf p + 128 * (clipped p).toNat

/-- The delays move to the middles of the runs: point i lies at the old centre − 24 + i (R272). -/
def recentred (l : List LaneSweep) (d : Vector Int 24) : Vector Int 24 :=
  Vector.ofFn fun i : Fin 24 => match middleOf (l.getD i.val 0) with | some m => d[i] - 24 + m | none => d[i]

/-- What a sweep found of a channel is judged (R273). -/
def sweepJudge (ch eyeMin : Nat) (rd wr : List LaneSweep) (s : State) : State :=
  let l := rd ++ wr
  let held := l.all holdsCentre
  let small := (widths l).any fun w => decide (w < eyeMin)
  let s := modCh ch (fun c => { c with
    rdMin := minEye (widths rd), wrMin := minEye (widths wr),
    eyeRd := eyes (rd.map sweepEye), eyeWr := eyes (wr.map sweepEye), clipped := l.any clipped, lost := !held,
    lostSeen := c.lostSeen || !held, trnSfn := s.tick.sfn,
    verdict := if !held then c.verdict else if small then 1 else 0,
    rdDelay := if held then recentred rd c.rdDelay else c.rdDelay,
    wrDelay := if held then recentred wr c.wrDelay else c.wrDelay }) s
  if !held then raiseErr (mkErr 2 0x30 ch 2 0) s else if small then raiseErr (mkErr 2 0x30 ch 1 0) s else s

/-- The sweep under way ends; an INCR replies once every named channel has been swept (R275). -/
def sweepEnd (ch : Nat) (rd wr : List LaneSweep) (s : State) : State :=
  if (s.memc.sweeping.map fun x => x.val) ≠ some ch then s
  else
    let run := s.memc.train.find? fun r => !r.full
    let eyeMin := match run with | some r => if s.memc.sweepPeriodic then s.memc.perEyeMin else r.eyeMin | none => s.memc.perEyeMin
    let per := s.memc.sweepPeriodic
    let s := sweepJudge ch eyeMin rd wr (modMemc (fun m => { m with sweeping := none }) s)
    match run with
    | none => s
    | some r =>
      if per then s
      else
        let left := clrBit r.left ch
        if left ≠ 0 then
          modMemc (fun m => { m with train := m.train.map fun x => if x = r then { r with left } else x }) s
        else
          let s := setBusy r.mask false (modMemc (fun m => { m with train := m.train.erase r }) s)
          reply r.hdr 0x40 stOk (trainWords s r.mask 0) s

/-! ### Patterns (R269) -/

/-- One output bit of the PRBS31 generator and its next state (log entry 33). -/
def prbsStep (x : Nat) : Nat × Bool :=
  let b := (x.testBit 30) != (x.testBit 27)
  ((2 * x + b.toNat) % 2 ^ 31, b)

/-- The next `n` output bits, and the state after them. -/
def prbsBits : Nat → Nat → List Bool × Nat
  | 0, x => ([], x)
  | n + 1, x => let (y, b) := prbsStep x; let (l, z) := prbsBits n y; (b :: l, z)

def prbsSeed (seed : Word) : Nat := if seed.toNat % 2 ^ 31 = 0 then 0x7FFFFFFF else seed.toNat % 2 ^ 31

def bitsBytes (l : List Bool) : List Byte :=
  (chunks 64 8 l).map fun c => BitVec.ofNat 8 (c.reverse.foldl (fun a x => 2 * a + x.toNat) 0)

/-- The PRBS31 lines of a pass: `n` of them from a state of the generator. -/
def prbsLines : Nat → Nat → List (List Byte)
  | 0, _ => []
  | n + 1, x => let (l, y) := prbsBits 512 x; bitsBytes l :: prbsLines n y

/-- Walking ones in line j. -/
def walkLine (j : Nat) : List Byte := (List.range 8).flatMap fun w => leBytes 8 (2 ^ ((j + w) % 64))

/-- The `n` lines of pass `p` of a run (R269). -/
def passLines (user : List Byte) (r : DiagRun) (n p : Nat) : List (List Byte) :=
  let l := match r.pattern.toNat with
    | 0 => prbsLines n (prbsSeed r.seed)
    | 1 => (List.range n).map walkLine
    | _ => List.replicate n user
  if r.invertAlt && p % 2 = 1 then l.map fun x => x.map fun b => ~~~b else l

/-! ### MEM_DIAG (R276, R277) -/

/-- The lines of a run, in ascending D: those whose channel is named (R276). -/
def diagLines (s : State) (r : DiagRun) : List Nat :=
  ((List.range (r.length / 64)).map fun i => r.start + 64 * i).filter fun d => r.mask.getLsbD (placeOf s (d / 64)).channel

/-- MEM_DIAG at its tick (R276): the bound on the range is judged last. -/
def memDiag (h : Hdr) (mode pattern : BitVec 2) (invertAlt : Bool) (passes mask : BitVec 8) (start length : BitVec 64)
    (seed : Word) (s : State) : State :=
  runAtTick h 0x41 (fun s =>
    if !(s.dev.power = .parked || s.dev.power = .frozen) then reply h 0x41 stRefused [] s
    else if chUntrained s mask then reply h 0x41 stNotReady [] s
    else if chBusy s mask then reply h 0x41 stBusy [] s
    else if capacity s < start.toNat + length.toNat then reply h 0x41 stBadParam [] s
    else
      let r : DiagRun := { hdr := h, mode, pattern, invertAlt, passes := if mode = 2 then 1 else passes.toNat, mask,
                           start := start.toNat, length := length.toNat, seed }
      let s := modMemc (fun m => { m with diag := m.diag ++ [r], diagServed := m.diagServed || m.frozen }) s
      forEach (maskList mask) (fun n => modCh n fun c => { c with
        busy := true, pattern, invertAlt, seed := if mode = 0 && pattern = 0 then word (prbsSeed seed) else c.seed,
        cmpErr := Vector.replicate 24 0, cmpAddr := BitVec.allOnes 64, cmpLanes := 0, cmpWord := 0, cmpExp := 0,
        cmpAct := 0 }) s) s

/-- A line access of a diagnosis: DIAG is served whatever the device's state (R263). -/
def diagLine (k : LineKind) (hits : List EccHit) (d : Nat) (s : State) : State :=
  accessLine 11 (d / 64) k hits (takeCredit 11 1 s)

/-- A line that a diagnosis writes. -/
def diagPut (a : Nat) (bs : List Byte) (s : State) : State := dramPut a bs (diagLine .full [] a s)

/-- User pattern of a channel (R269). -/
def userLine (c : Memch) : List Byte := wordsBytes c.user.toList

/-- Content of the lines of a pass, each with the user pattern of its channel. -/
def diagContent (s : State) (r : DiagRun) (p : Nat) : List (Nat × List Byte) :=
  let ds := diagLines s r
  if r.pattern = 2 then ds.map fun d =>
      (d, (passLines (userLine (chOf s (placeOf s (d / 64)).channel)) r 1 p).headD [])
  else ds.zip (passLines [] r ds.length p)

/-- The compare counters of a failing line's channel, and its first-fail capture (R279). -/
def cmpRecord (r : DiagRun) (f : LineFail) (s : State) : State :=
  let exp := ((diagContent s r f.pass).find? fun x => x.1 = f.d).map fun x => leNat ((x.2.drop (8 * f.word.val)).take 8)
  modCh (placeOf s (f.d / 64)).channel (fun c =>
    let first := c.cmpAddr = BitVec.allOnes 64
    { c with
      cmpErr := Vector.ofFn fun i : Fin 24 => satAdd c.cmpErr[i] (f.errs.getD i.val 0),
      cmpAddr := if first then BitVec.ofNat 64 f.d else c.cmpAddr, cmpLanes := if first then f.lanes else c.cmpLanes,
      cmpWord := if first then BitVec.ofNat 3 f.word.val else c.cmpWord,
      cmpExp := if first then BitVec.ofNat 64 (exp.getD 0) else c.cmpExp,
      cmpAct := if first then f.actual else c.cmpAct }) s

/-- The checks that a READ_ONLY met in one line of one pass. -/
def hitsAt (hits : List (Nat × Nat × EccHit)) (p d : Nat) : List EccHit :=
  (hits.filter fun x => x.1 = p && x.2.1 = d).map fun x => x.2.2

/-- What a run has counted (R277): lines accessed, words corrected, uncorrectable words, and the lines that failed, in the
order of their accesses. -/
structure DiagCount where
  lines : Nat
  corr : Nat
  uncorr : Nat
  failed : List Nat
  deriving DecidableEq, Repr

def DiagCount.zero : DiagCount := { lines := 0, corr := 0, uncorr := 0, failed := [] }

/-- The words of one line that fail their check: where one is uncorrectable it decides (R246). -/
def DiagCount.line (c : DiagCount) (l : List EccHit) (d : Nat) : DiagCount :=
  let bad := l.filter fun h => !h.correctable
  if bad.isEmpty then { c with lines := c.lines + 1, corr := c.corr + l.length }
  else { c with lines := c.lines + 1, uncorr := c.uncorr + bad.length, failed := c.failed ++ [d] }

/-- READ_ONLY: checked reads in order (R277). In a freeze it runs on; a word that freezes the controller stops it at that
line. The flag says that it stopped. -/
def readLines (hits : List (Nat × Nat × EccHit)) : List (Nat × Nat) → DiagCount → State → DiagCount × Bool × State
  | [], c, s => (c, false, s)
  | (p, d) :: l, c, s =>
    let h := hitsAt hits p d
    let was := s.memc.frozen
    let s := diagLine .read h d s
    let c := c.line h d
    if s.memc.frozen && !was then (c, true, s) else readLines hits l c s

/-- The reply of a run: lines accessed, failed, words corrected and uncorrectable, the first failing line, and the mask
of channels that saw a failure (R277). -/
def diagReply (r : DiagRun) (st : BitVec 16) (c : DiagCount) (s : State) : State :=
  let first := match c.failed.head? with | some d => BitVec.ofNat 64 d | none => BitVec.allOnes 64
  let m := (c.failed.map fun d => (placeOf s (d / 64)).channel).foldl setBit (0 : BitVec 8)
  let s := setBusy r.mask false (modMemc (fun x => { x with diag := x.diag.erase r }) s)
  reply r.hdr 0x41 st [word (clampNat c.lines 0xFFFFFFFF), word (if r.mode = 0 then c.failed.length else 0),
    word c.corr, word c.uncorr, lo32 first, hi32 first, word m.toNat] s

/-- The passes of a run over its lines, each line with its pass, in the order of the accesses (R277). -/
def diagOrder (r : DiagRun) (ds : List Nat) : List (Nat × Nat) :=
  (List.range r.passes).flatMap fun p => ds.map fun d => (p, d)

/-- A pass of a WRITE_READ writes every line and then reads every line: scan accesses, judged on the raw data (R268,
R277). -/
def scanPass (s : State) (r : DiagRun) (p : Nat) : State :=
  let l := diagContent s r p
  forEach l (fun x => diagLine .read [] x.1) (forEach l (fun x => diagPut x.1 x.2) s)

/-- The oldest MEM_DIAG ends (R277). -/
def diagEnd (failed : List LineFail) (hits : List (Nat × Nat × EccHit)) (s : State) : State :=
  match s.memc.diag with
  | [] => s
  | r :: _ =>
    let ds := diagLines s r
    let order := diagOrder r ds
    match r.mode.toNat with
    | 0 =>
      let failed := order.filterMap fun x => failed.find? fun f => f.pass = x.1 && f.d = x.2
      let s := forEach (List.range r.passes) (fun p s => scanPass s r p) s
      let s := forEach failed (cmpRecord r) s
      let c := order.foldl (fun c x => c.line (hitsAt hits x.1 x.2) x.2) DiagCount.zero
      diagReply r stOk { c with failed := failed.map fun f => f.d } s
    | 1 =>
      let (c, stopped, s) := readLines hits order DiagCount.zero s
      diagReply r (if stopped then stFrozen else stOk) c s
    | _ =>
      let s := forEach ds (fun d s => diagPut d ((List.range 16).flatMap fun _ => leBytes 4 r.seed.toNat) s) s
      diagReply r stOk { DiagCount.zero with lines := order.length } s

/-! ### MEM_RESUME (R263, R278, R422, R425) -/

/-- The controller's service is restored (R263). -/
def memUnfreeze (s : State) : State :=
  let clear (c : Memch) : Memch := { c with freezeSrc := false }
  let s := modMemc (fun m => { m with frozen := false, diagServed := false }) s
  let s := fillCredits { s with memch := Vector.ofFn fun i => clear s.memch[i] }
  match activeSet s with
  | some b => writeIndex b s
  | none => s

/-- The device leaves FROZEN for IMAGING or PARKED (R422). -/
def leaveFrozen (image : Bool) (s : State) : State :=
  let s := modDev (fun d => { d with power := .parked }) { s with err := { s.err with frozenCause := 0 } }
  if image then startImaging s else s

/-- MEM_RESUME at its tick (R278). -/
def memResume (h : Hdr) (mode : Bool) (s : State) : State :=
  runAtTick h 0x42 (fun s =>
    if !s.memc.frozen || (s.dev.power = .frozen && s.err.frozenCause = 2) then reply h 0x42 stNotReady [] s
    else if (List.range 8).any fun n => !(chOf s n).trained then reply h 0x42 stNotReady [] s
    else if !s.memc.train.isEmpty || !s.memc.diag.isEmpty then reply h 0x42 stBusy [] s
    else
      let image := !mode && s.err.frozenFromImaging && !s.err.stopWhileFrozen
      let s := memUnfreeze s
      reply h 0x42 stOk [] (if s.dev.power = .frozen then leaveFrozen image s else s)) s

/-! ### The commands and events of this chapter -/

/-- MEM_TRAIN (R270, R274, R275, R423). -/
def execMemTrain (h : Hdr) (mode : BitVec 2) (mask : BitVec 8) (eyeMin : BitVec 7) (mts period : Word) (s : State) :
    Host.Outcome State Fault Refusal := .next (memTrain h mode mask eyeMin mts period s)

/-- MEM_TRAIN_END (R267, R270, R271, R275, R442, R478). -/
def execMemTrainEnd (first second : List ChannelResult) (later : List (List ChannelResult)) (s : State) :
    Host.Outcome State Fault Refusal := .next (trainEnd (first :: second :: later) s)

/-- MEM_DIAG (R276). -/
def execMemDiag (h : Hdr) (mode pattern : BitVec 2) (invertAlt : Bool) (passes mask : BitVec 8) (start length : BitVec 64)
    (seed : Word) (s : State) : Host.Outcome State Fault Refusal :=
  .next (memDiag h mode pattern invertAlt passes mask start length seed s)

/-- MEM_DIAG_END (R268, R269, R277). -/
def execMemDiagEnd (failed : List LineFail) (hits : List (Nat × Nat × EccHit)) (s : State) :
    Host.Outcome State Fault Refusal := .next (diagEnd failed hits s)

/-- MEM_RESUME (R263, R278, R422). -/
def execMemResume (h : Hdr) (mode : Bool) (s : State) : Host.Outcome State Fault Refusal :=
  let t := noteEntry s.dev.power (memResume h mode s)
  .next (if t.tick.imaging && !s.tick.imaging then beginFrame t else t)

/-- INCR_SWEEP_START (R45, R272, R275). -/
def execIncrSweepStart (ch : Fin 8) (s : State) : Host.Outcome State Fault Refusal := .next (sweepStart ch.val s)

/-- INCR_SWEEP_END (R272, R273, R275). -/
def execIncrSweepEnd (ch : Fin 8) (rd wr : List LaneSweep) (s : State) : Host.Outcome State Fault Refusal :=
  .next (sweepEnd ch.val rd wr s)

end Sys2Proof.Machine
end

