-- ==== Sys2Proof/Machine/Power.lean ====
section
/-! DEFINITION. Supplies, resets, the boot ROM and the LOW state (20 R427 to R442; 01 R23, R24, R475; 12 R288), and the
acknowledgement of errors (19 R415). -/
namespace Sys2Proof.Machine

/-! ### Crossings, supplies, temperatures (R23, R24, R475) -/

/-- Tiles that an engine serves in the present period. -/
def engineTiles (s : State) (e : Nat) : BitVec 64 :=
  match engineSet s with
  | some b => if s.eng.active then (Bank.engSlots b e).foldl (fun m i => m ||| slotMarks b i) 0 else 0
  | none => 0

/-- Tiles that the stage on the far side of a crossing serves with a frame in progress (R23). -/
def crossTiles (s : State) (c : CrossingStage) : BitVec 64 :=
  match c with
  | .lane t => let w := (tileOf s t).lane.work
               if w.mode = .idle || w.done then 0 else setBit 0 t.val
  | .engine e => engineTiles s e
  | .dma => match dmaSet s, frameSfn s 2 with | some b, some _ => Bank.enabledMask b | _, _ => 0

/-- A crossing FIFO overflows or underflows (R23). -/
def crossing (c : CrossingStage) (s : State) : State :=
  let m := crossTiles s c
  let s := modTick (fun t => match c with
    | .lane _ => { t with crossLanes := t.crossLanes ||| m }
    | .engine _ => { t with engOvrTiles := t.engOvrTiles ||| m }
    | .dma => { t with dmaOvrTiles := t.dmaOvrTiles ||| m }) s
  raiseErr (mkErr 1 0x13 ((maskList m).headD 0xFF) 0 0) s

/-- VDDA_Qq lies within ±3 % of 1.80 V (R24, R433). -/
def vddaOk (mv : BitVec 16) : Bool := 1746 ≤ mv.toNat && mv.toNat ≤ 1854

/-- The measurement of the four quadrant supplies (R475). -/
def vddaMeasure (mv : Vector (BitVec 16) 4) (s : State) : State :=
  let starts := (List.range 4).filter fun q => !vddaOk (vget mv q 0) && (quadOf s q).supplyOk ≠ some false
  let note (x : Quad) (v : BitVec 16) : Quad :=
    { x with mv := v, supplyOk := some (vddaOk v), supplyBad := x.supplyBad || !vddaOk v }
  raiseErrs (starts.map fun q => mkErr 1 0x14 q 0 0)
    { s with quads := Vector.ofFn fun q => note s.quads[q] mv[q] }

/-- The measurement of the four die temperatures (R24): QTEMP at the start of each excursion. -/
def qtempMeasure (t : Vector Word 4) (s : State) : State :=
  let v (q : Nat) : Nat := (vget t q 0).toNat
  let hot := (List.range 4).foldl (fun a q => if v a < v q then q else a) 0
  let cool := (List.range 4).foldl (fun a q => if v q < v a then q else a) 0
  let far := decide (20 * 256 < v hot - v cool)
  let was := s.dev.qtempOver
  let note (x : Quad) (v : Word) : Quad := { x with temp := v }
  let s := modDev (fun d => { d with qtempOver := far }) { s with quads := Vector.ofFn fun q => note s.quads[q] t[q] }
  if far && !was then raiseErr (mkErr 2 0x29 0xFF (16 * hot + cool) (word (v hot - v cool))) s else s

/-! ### LOW (R430 to R432) -/

/-- A memory training, diagnosis, self-calibration or save copy runs (R430). -/
def lowBusy (s : State) : Bool :=
  !s.memc.train.isEmpty || !s.memc.diag.isEmpty || s.hk.calibrating || s.hk.calRequested
    || s.cfg.saves.any fun p => p.copy

/-- Every request that the controller holds ends (R264): its credit is there at the end of the wait. -/
def drainReqs : Nat → State → State
  | 0, s => s
  | n + 1, s => match s.memc.reqs with | q :: _ => drainReqs n (issue q [] s) | [] => s

/-- The device enters LOW at this tick (R430): every request ends before the ranks enter self-refresh (R264). -/
def enterLow (h : Hdr) (s : State) : State :=
  let s := drainReqs s.memc.reqs.length (endTransition s)
  let s := forEach ((List.range 64).filter fun t => (tileOf s t).port.state ≠ .off) (fun t => portChange t (shutPort t)) s
  let s := hkStop (moveReplies (forEach (List.range 64) releaseCoil s))
  let s := modMemc (fun m => { m with selfRefresh := true }) (traceSelf 6 s)
  let s := { s with quads := s.quads.map fun q => { q with locked := false, down := true } }
  modDev (fun d => { d with power := .low, transition := some h, lowCnt := satInc d.lowCnt }) s

/-- POWER_STATE at its tick (R430, R431). -/
def powerState (h : Hdr) (low : Bool) (s : State) : State :=
  runAtTick h 0x71 (fun s =>
    match s.dev.power, low with
    | .parked, true => if lowBusy s then reply h 0x71 stBusy [] s else enterLow h s
    | .low, false => modDev (fun d => { d with transition := some h }) (leaveLow .parked s)
    | .low, true | .parked, false => reply h 0x71 stOk [] s
    | _, _ => reply h 0x71 stRefused [] s) s

/-- Every port is OFF and DRAM is in self-refresh (R430). -/
def lowReached (s : State) : State :=
  if s.dev.power = .low && s.memc.selfRefresh
      && (List.range 64).all fun t => (tileOf s t).port.state = .off && (tileOf s t).port.bref = .off then endTransition s
  else s

/-- The PLLs have relocked and self-refresh has ended (R431). -/
def lowExitDone (s : State) : State :=
  if s.dev.power = .low then s
  else endTransition (forEach ((List.range 4).filter fun q => (quadOf s q).down) lockQuad s)

/-! ### Errors (R415) -/

/-- A class is acknowledged: its four words clear. -/
def ackClass (c : Nat) (s : State) : State :=
  modErr c (fun e => { ErrClass.reset with total := e.total }) s

/-- ERR_ACK at its tick (R415). -/
def errAck (h : Hdr) (classes : BitVec 3) (s : State) : State :=
  runAtTick h 0x70 (fun s =>
    let ws := (maskList classes).flatMap fun c => [capWord (errOf s c), cntWord (errOf s c)]
    reply h 0x70 stOk ws (forEach (maskList classes) ackClass s)) s

/-! ### Resets (R288, R399, R434 to R437) -/

/-- A fundamental reset of the main die: everything but the keeping die returns to its reset value and DRAM content is
lost; SPC lets a word under way end first. -/
def mainReset (keep : Keep) (pend : BitVec 4) (s : State) : State :=
  let p := spcReset s
  { State.reset with
    pending := s.pending, out := p.out, free := s.free, board := s.board, spc := p.spc, keep,
    dram := { cells := [], epoch := s.dram.epoch + 1 },
    dev := { Dev.reset with pend, coreOk := s.dev.coreOk, sramOk := s.dev.sramOk, io18Ok := s.dev.io18Ok } }

/-- A fundamental reset for cause `i` of DEV_RESET_CAUSE (R443); causes that come before the release add up. -/
def fundamental (i : Nat) (s : State) : State := mainReset (keepMainReset s.keep) (setBit s.dev.pend i) s

/-- A supply is lost (R429): power-on follows; the keeping die may lose all power as well. -/
def supplyLoss (cut : KeepCut) (s : State) : State :=
  let keep := if cut = .none then keepMainReset s.keep else keepPowerLoss cut s.keep
  let s := mainReset keep 1 s
  modDev (fun d => { d with coreOk := false, sramOk := false, io18Ok := false }) s

/-- The main die may be released: settlement has ended and no page write runs (R398, R399, R437). -/
def mayRelease (s : State) : Bool :=
  !s.dev.released && s.keep.settled && (match s.keep.current with | some b => b.now.isNone | none => true)

/-- The main die is released (R437, R438): the rails stand within tolerance (R434), BOOTSEL is sampled, the causes of the
reset are shown, and a journal found bad is reported (R398). -/
def release (bootsel : BitVec 2) (s : State) : State :=
  if !mayRelease s then s
  else
    let p := s.dev.pend
    let por := p.getLsbD 0
    let s := modDev (fun d => { d with
      released := true, bootsel, pend := 0, coreOk := true, sramOk := true, io18Ok := true,
      porCause := por, brownoutCause := p.getLsbD 1, resetNCause := p.getLsbD 2, perstCause := p.getLsbD 3,
      phase := if bootsel.getLsbD 0 then .hostWait else .flash }) s
    let s := if por then modKeep (fun k => { k with powerUps := satInc k.powerUps }) s else s
    if s.keep.badDue then
      raiseErr (mkErr 2 0x31 0xFF 0 (word s.keep.page.toNat)) (modKeep (fun k => { k with badDue := false }) s)
    else s

/-! ### The firmware (R438 to R442) -/

/-- A rate of R243, or 0. -/
def mtsOk (n : Nat) : Bool := n = 0 || mtsRates.contains n

/-- Checks 1 and 2 of R440 on a header: 0 when both pass. -/
def headerFault (l : List Byte) : Nat :=
  let u (o n : Nat) : Nat := leNat ((l.drop o).take n)
  let zero (o n : Nat) : Bool := ((l.drop o).take n).all fun b => b = 0
  if u 0 4 ≠ 0x5746594E then 1
  else if u 4 2 = 1 && u 6 2 = 256 && u 8 4 % 64 = 0 && 64 ≤ u 8 4 && u 8 4 ≤ 16776832 && (u 0x10 1 = 3 || u 0x10 1 = 4)
      && zero 0x11 1 && mtsOk (u 0x16 2) && (u 0x18 4 = 0 || (10000000 ≤ u 0x18 4 && u 0x18 4 ≤ 1000000000))
      && zero 0x1C 100 && zero 0xE0 32 then 0
  else 2

/-- FAIL_CAUSE of an image, 0 when it passes (R440). -/
def bootFault (header : List Byte) (keyOk sigOk : Bool) : Nat :=
  let f := headerFault header
  if f ≠ 0 then f else if !keyOk then 3 else if !sigOk then 4 else 0

/-- The firmware starts (R442): the tick of SFN 0 falls, the device is PARKED with no active set, and training runs. -/
def startFirmware (fromHost : Bool) (header : List Byte) (s : State) : State :=
  let u (o n : Nat) : Nat := leNat ((header.drop o).take n)
  let park : Word := if u 0x18 4 = 0 then 0x00FE502B else word (u 0x18 4)
  let s := modDev (fun d => { d with
    power := .parked, phase := .train, fromHost, fwVersion := word (u 0x0C 4),
    maxMts := BitVec.ofNat 16 (if u 0x16 2 = 0 then 10667 else u 0x16 2),
    subsysVid := BitVec.ofNat 16 (if u 0x12 2 = 0 then 0x1F4C else u 0x12 2),
    subsysId := BitVec.ofNat 16 (if u 0x14 2 = 0 then 0x6400 else u 0x14 2) }) s
  let s := modTick (fun t => { t with
    running := true, sfn := 0, period := park, parkPeriod := park, flags := [0, 0, 0],
    stamps := [(0, park), (0, park), (0, park)], frames := [none, none, none] }) s
  { s with clock := Clock.reset, quads := s.quads.map fun q => { q with locked := true } }

/-- The check of an image ends (R438, R440, R441): of the window image after GO, otherwise of the flash image whose header
was read. -/
def firmwareCheckEnd (header : List Byte) (keyOk sigOk : Bool) (s : State) : State :=
  let fromHost : Bool := s.dev.phase = .verify
  if !(fromHost || s.dev.phase = .flash) || !s.dev.released then s
  else
    let header := if fromHost then readCells zeroByte s.dev.fwWindow 0 256 else header
    let f := bootFault header keyOk sigOk
    if f = 0 then startFirmware fromHost header s
    else
      modDev (fun d => { d with
        failCause := BitVec.ofNat 3 f, sigFailSeen := d.sigFailSeen || 3 ≤ f,
        hostAttempts := if fromHost then satInc d.hostAttempts else d.hostAttempts,
        phase := if fromHost || d.bootsel = 0 then .hostWait else .failed }) s

/-- DEV_FW_CTRL.GO (R441). -/
def fwGo (s : State) : State :=
  modDev (fun d => if d.phase = .hostWait then { d with phase := .verify } else { d with fwDrop := true }) s

/-- A full-word write to the firmware load window (R441). -/
def fwWrite (ofs : Nat) (v : Word) (s : State) : State :=
  modDev (fun d =>
    if d.phase = .hostWait then { d with fwWindow := writeCells zeroByte d.fwWindow ofs (leBytes 4 v.toNat) }
    else { d with fwDrop := true }) s

/-! ### The commands and events -/

/-- CROSSING (R23). -/
def execCrossing (stage : CrossingStage) (s : State) : Host.Outcome State Fault Refusal := .next (crossing stage s)

/-- VDDA_MEASURE (R475). -/
def execVddaMeasure (mv : Vector (BitVec 16) 4) (s : State) : Host.Outcome State Fault Refusal :=
  .next (if s.dev.released then vddaMeasure mv s else s)

/-- QTEMP_MEASURE (R24). -/
def execQtempMeasure (t : Vector Word 4) (s : State) : Host.Outcome State Fault Refusal :=
  .next (if s.dev.released then qtempMeasure t s else s)

/-- ERR_ACK (R415). -/
def execErrAck (h : Hdr) (classes : BitVec 3) (s : State) : Host.Outcome State Fault Refusal := .next (errAck h classes s)

/-- A write of 1 to VALID of a capture register (R415). -/
def execErrCapValidWrite (cls : Fin 3) (s : State) : Host.Outcome State Fault Refusal :=
  .next (barAccess (ackClass cls.val) s)

/-- POWER_STATE (R430, R431). -/
def execPowerState (h : Hdr) (low : Bool) (s : State) : Host.Outcome State Fault Refusal :=
  .next (noteEntry s.dev.power (powerState h low s))

/-- LOW_REACHED (R430). -/
def execLowReached (s : State) : Host.Outcome State Fault Refusal := .next (lowReached s)

/-- LOW_EXIT_DONE (R431). -/
def execLowExitDone (s : State) : Host.Outcome State Fault Refusal := .next (lowExitDone s)

/-- PERST_ASSERT (R288, R436). -/
def execPerstAssert (s : State) : Host.Outcome State Fault Refusal := .next (fundamental 3 s)

/-- RESET_N_ASSERT (R436). -/
def execResetNAssert (s : State) : Host.Outcome State Fault Refusal := .next (fundamental 2 s)

/-- BROWNOUT (R435). -/
def execBrownout (s : State) : Host.Outcome State Fault Refusal := .next (fundamental 1 s)

/-- SUPPLY_LOSS (R429). -/
def execSupplyLoss (cut : KeepCut) (s : State) : Host.Outcome State Fault Refusal := .next (supplyLoss cut s)

/-- RESET_RELEASE (R437). -/
def execResetRelease (bootsel : BitVec 2) (s : State) : Host.Outcome State Fault Refusal := .next (release bootsel s)

/-- FIRMWARE_CHECK_END (R440). -/
def execFirmwareCheckEnd (header : List Byte) (keyOk sigOk : Bool) (s : State) : Host.Outcome State Fault Refusal :=
  .next (firmwareCheckEnd header keyOk sigOk s)

/-- FW_GO (R441). -/
def execFwGo (s : State) : Host.Outcome State Fault Refusal := .next (fwGo s)

/-- FIRMWARE_WINDOW_WRITE (R441): the word of the window that holds the offset. -/
def execFirmwareWindowWrite (ofs : Word) (v : Word) (s : State) : Host.Outcome State Fault Refusal :=
  .next (barAccess (fwWrite (ofs.toNat % 16777216 / 4 * 4) v) s)

end Sys2Proof.Machine
end

