-- ==== Sys2Proof/Machine/RegRead.lean ====
section
/-! DEFINITION. What every BAR0 register reads as (R10 to R14 and the field tables R70, R101, R129, R150, R171, R189, R216,
R242, R265, R266, R279, R303, R326, R362, R377, R388, R389, R410, R426, R443, R444; 21 R445 to R452). No read changes a
register (R12). -/
namespace Sys2Proof.Machine

/-- 16-bit halves, low one first. -/
def halves (lo hi : BitVec 16) : Word := fields [(lo.toNat, 0), (hi.toNat, 16)]
/-- One half of a 64-bit register. -/
def half64 (hi : Bool) (x : BitVec 64) : Word := if hi then hi32 x else lo32 x
def boolMask (n : Nat) (f : Nat → Bool) : Word := fields ((List.range n).map fun i => ((f i).toNat, i))

/-! ### DEV, ERR, PWR, TICK -/

def phaseCode : BootPhase → Nat
  | .rom => 0 | .flash => 1 | .hostWait => 2 | .verify => 3 | .train => 4 | .hkcal => 5 | .ready => 6 | .failed => 7

def powerCode : Power → Nat
  | .off => 0 | .parked => 1 | .imaging => 2 | .frozen => 3 | .low => 4

/-- DEV registers (R443). -/
def readDev (s : State) (o : Nat) : Word :=
  let d := s.dev
  match o with
  | 0x00 => fields [(0x6400, 0), (0xB0, 16), (s.board.gradeX.toNat, 24)]
  | 0x04 => lo32 Config.serial
  | 0x08 => hi32 Config.serial
  | 0x0C => fields [(phaseCode d.phase, 0), (d.failCause.toNat, 4), (d.fromHost.toNat, 7), (d.bootsel.toNat, 8),
      (d.hostAttempts.toNat, 16)]
  | 0x10 => d.fwVersion
  | 0x14 => fields [(d.porCause.toNat, 0), (d.brownoutCause.toNat, 1), (d.resetNCause.toNat, 2), (d.perstCause.toNat, 3)]
  | 0x18 => lo32 s.clock.devTime
  | 0x1C => hi32 s.clock.devTime
  | 0x24 => fields [(d.fwDrop.toNat, 0), (d.sigFailSeen.toNat, 1)]
  | _ => 0

/-- ERR registers (R426). -/
def readErr (s : State) (o : Nat) : Word :=
  let c := errOf s (o / 16 - 1)
  if o = 0 then
    fields [((errOf s 0).valid.toNat, 0), ((errOf s 1).valid.toNat, 1), ((errOf s 2).valid.toNat, 2),
      ((decide (s.dev.power = .frozen)).toNat, 3), (s.err.frozenCause.toNat, 4)]
  else if 0x10 ≤ o && o < 0x40 then
    match o % 16 / 4 with
    | 0 => capWord c
    | 1 => cntWord c
    | 2 => c.sfn
    | _ => c.info
  else if 0x40 ≤ o && o < 0x4C then (errOf s ((o - 0x40) / 4)).total
  else 0

/-- PWR registers (R444). -/
def readPwr (s : State) (o : Nat) : Word :=
  let d := s.dev
  if o = 0 then fields [(powerCode d.power, 0), (d.transition.isSome.toNat, 3)]
  else if o = 4 then
    fields [(d.coreOk.toNat, 0), (d.sramOk.toNat, 1), (d.io18Ok.toNat, 2),
      ((boolMask 4 fun q => (quadOf s q).supplyOk = some true).toNat, 4)]
  else if 0x10 ≤ o && o < 0x20 then word (quadOf s ((o - 0x10) / 4)).mv.toNat
  else if 0x20 ≤ o && o < 0x30 then (quadOf s ((o - 0x20) / 4)).temp
  else if o = 0x30 then d.lowCnt
  else 0

/-- TICK registers (R70). -/
def readTick (s : State) (o : Nat) : Word :=
  let t := s.tick
  match o with
  | 0x00 => fields [(t.running.toNat, 0), (t.imaging.toNat, 1), (t.replaying.toNat, 2), (s.sync.follow.toNat, 3),
      ((decide (s.sync.state = .holdover)).toNat, 4), (s.cfg.locked.toNat, 5), (t.queue.length, 16)]
  | 0x04 => t.sfn
  | 0x08 => t.period
  | 0x0C => t.parkPeriod
  | 0x10 => match activeSet s with
      | some b => if s.dev.power = .imaging then word (Bank.pclkKhz b) else 0
      | none => 0
  | 0x14 => fields [(t.tableTouch.toNat, 0), (t.shadowDrop.toNat, 1), (t.lateSeen.toNat, 2), (t.overrunSeen.toNat, 3)]
  | 0x18 => t.ovrLane
  | 0x1C => t.ovrEng
  | 0x20 => t.ovrDma
  | 0x24 => t.ovrLast
  | 0x28 => t.lateCnt
  | 0x2C => t.replayOfs
  | _ => 0

/-! ### CMDQ, HOST -/

/-- CMDQ registers (R326). -/
def readCmdq (s : State) (o : Nat) : Word :=
  let c := s.cmdq
  let ctrl (m : Mbox) : Word := fields [(m.busy.toNat, 8), (m.done.toNat, 9)]
  if 0x400 ≤ o then
    let i := o % 256 / 4
    match o / 256 with
    | 4 => vget c.mbox.cmd i 0
    | 5 => vget c.mbox.rpl i 0
    | 6 => vget c.spt.cmd i 0
    | _ => vget c.spt.rpl i 0
  else match o with
  | 0x00 => fields [(c.enable.toNat, 0), (c.irqEvery.toNat, 16)]
  | 0x04 => fields [(c.enable.toNat, 0), ((decide (64 ≤ c.held.length)).toNat, 1), (min c.held.length 64, 2)]
  | 0x08 => fields [(c.cfgBad.toNat, 0), (c.tailBad.toNat, 1), (c.consBad.toNat, 2), (c.rplLost.toNat, 3),
      (c.mboxBusy.toNat, 4), (c.fetchErr.toNat, 5)]
  | 0x0C => word c.ringSize.toNat
  | 0x10 => lo32 c.ringBase
  | 0x14 => hi32 c.ringBase
  | 0x18 => c.tail
  | 0x1C => c.head
  | 0x20 => word c.rplSize.toNat
  | 0x24 => lo32 c.rplBase
  | 0x28 => hi32 c.rplBase
  | 0x2C => c.rplProd
  | 0x30 => c.rplCons
  | 0x34 => lo32 c.rplWb
  | 0x38 => hi32 c.rplWb
  | 0x3C => c.lostCnt
  | 0x40 => halves c.rejAccept c.rejExec
  | 0x44 => c.execCnt
  | 0x48 => ctrl c.mbox
  | 0x4C => ctrl c.spt
  | _ => 0

/-- The registers of stream m (R303). -/
def readStream (s : State) (m o : Nat) : Word :=
  let x := streamOf s m
  match o with
  | 0x00 => fields [((match activeSet s with | some b => decide (Bank.strType b m ≠ 0) | none => false).toNat, 0),
      (x.waiting.toNat, 1)]
  | 0x04 => x.prod
  | 0x08 => x.cons
  | 0x0C => x.dropCnt
  | 0x10 => lo32 x.w
  | 0x14 => hi32 x.w
  | 0x18 => lo32 x.consCur
  | _ => hi32 x.consCur

def holdCode : HoldState → Nat
  | .none => 0 | .recording => 1 | .pending => 2 | .frozen => 3

/-- The hold registers (R242), at HOST offsets 0x800 to 0x81C. -/
def readHold (s : State) (o : Nat) : Word :=
  let h := s.hold
  match o with
  | 0x00 => fields [(holdCode h.state, 0), (h.delivering.toNat, 2), (h.incompleteSeen.toNat, 3), (h.overSeen.toNat, 4),
      ((match activeSet s with | some b => Bank.holdDiv b % 32 | none => 0), 8)]
  | 0x04 => h.endSfn
  | 0x08 => h.tailSfn
  | 0x0C => h.headSfn
  | 0x10 => h.framesReg
  | 0x14 => lo32 h.cursor
  | 0x18 => hi32 h.cursor
  | _ => halves h.incompleteCnt h.overCnt

/-- HOST registers (R303, R242, R300). -/
def readHost (s : State) (o : Nat) : Word :=
  let h := s.host
  if 0x3000 ≤ o then word (h.pba.toNat / 2 ^ (8 * (o - 0x3000)))
  else if 0x1000 ≤ o then msixWord s ((o - 0x1000) / 4)
  else if 0x800 ≤ o then readHold s (o - 0x800)
  else if 0x100 ≤ o then readStream s ((o - 0x100) / 32) (o % 32)
  else match o with
  | 0x00 => hostStatus h
  | 0x04 => fields [(h.addrMiss.toNat, 0), (h.bar2Miss.toNat, 1), (h.linkDownSeen.toNat, 2), (h.linkChangeSeen.toNat, 3),
      (h.dropSeen.toNat, 4), (h.consBad.toNat, 5)]
  | 0x08 => fields [(h.missOfs.toNat, 0), (h.missWrite.toNat, 31)]
  | 0x0C => halves h.missBar0 h.missBar2
  | 0x10 => word h.tickIrqDiv.toNat
  | 0x14 => halves h.linkDownCnt h.linkChangeCnt
  | _ => 0

/-! ### MEMC, MEMCH -/

/-- Nanoseconds between a trace entry and the one before it; with none before it the value is not stated (R265). -/
def traceDt (l : List TraceEnt) (i : Nat) : Nat :=
  match l[i]?, l[i + 1]? with
  | some a, some b => clampNat (a.time - b.time) 16383
  | some a, none => (Config.word a.time).toNat % 16384
  | _, _ => 0

def readTrace (s : State) (i : Nat) (hi : Bool) : Word :=
  match s.memc.frzTrace[i]? with
  | none => 0
  | some e =>
    if hi then fields [(e.row.toNat, 0), (traceDt s.memc.frzTrace i, 18)]
    else fields [(e.cmd.toNat, 0), (e.channel.toNat, 4), (e.sc.toNat, 7), (e.rk.toNat, 8), (e.bank.toNat, 9),
      (e.col.toNat, 13), (e.port.toNat, 18)]

/-- The regulator registers of port p (R265). -/
def readReg (s : State) (p o : Nat) : Word :=
  let x := vget s.memc.ports p ReqPort.reset
  match o with
  | 0x0 => match activeSet s with | some b => word (regRate b p) | none => 0
  | 0x4 => match activeSet s with | some b => fields [(regBurst b p, 0), (regClass b p, 20)] | none => 0
  | 0x8 => x.lines
  | _ => x.wait

/-- MEMC registers (R265). -/
def readMemc (s : State) (o : Nat) : Word :=
  let m := s.memc
  if 0x400 ≤ o then readTrace s ((o - 0x400) / 8) (o % 8 = 4)
  else if 0x100 ≤ o then readReg s ((o - 0x100) / 16) (o % 16)
  else if 0x10 ≤ o && o ≤ 0x30 then word (vget m.hash ((o - 0x10) / 4) 0).toNat
  else match o with
  | 0x00 => fields [(m.trained.toNat, 0), (m.frozen.toNat, 1), (m.mapLock.toNat, 2), (m.quiet.toNat, 3),
      (m.selfRefresh.toNat, 4)]
  | 0x04 => fields [(if m.trained then m.capacity.toNat else 0, 0), (m.ranks.toNat, 2)]
  | 0x08 => if (List.range 8).any fun n => (chOf s n).trained then word m.mts.toNat else 0
  | 0x0C => fields [(m.hashBad.toNat, 0), (m.mapDrop.toNat, 1), (m.frozenAccess.toNat, 2), (m.forcedRef.toNat, 3)]
  | 0x40 => frzCauseWord m
  | 0x44 => m.frzSfn
  | 0x48 => lo32 m.frzAddr
  | 0x4C => hi32 m.frzAddr
  | 0x50 => m.frzCnt
  | _ => 0

/-- Four eye bytes of a word. -/
def eyeWord (v : Vector (BitVec 8) 24) (i : Nat) : Word :=
  fields ((List.range 4).map fun j => ((vget v (4 * i + j) 0).toNat, 8 * j))

/-- MEMCH registers (R266, R279). -/
def readMemch (s : State) (n o : Nat) : Word :=
  let c := chOf s n
  let debt (i : Nat) : Nat := wrap 5 (vget c.debt i 0)
  if 0x1C0 ≤ o then vget c.user ((o - 0x1C0) / 4) 0
  else if 0x160 ≤ o && o < 0x190 then
    halves (vget c.cmpErr ((o - 0x160) / 2) 0) (vget c.cmpErr ((o - 0x160) / 2 + 1) 0)
  else if 0x140 ≤ o && o < 0x160 then eyeWord c.eyeWr ((o - 0x140) / 4)
  else if 0x120 ≤ o && o < 0x140 then eyeWord c.eyeRd ((o - 0x120) / 4)
  else match o with
  | 0x000 => fields [(c.trained.toNat, 0), (c.freezeSrc.toNat, 1), (c.corrSeen.toNat, 2)]
  | 0x004 => c.corr
  | 0x008 => c.uncorr
  | 0x00C => c.capar
  | 0x010 => lo32 c.corrAddr
  | 0x014 => hi32 c.corrAddr
  | 0x018 => c.rmw
  | 0x01C => c.forced
  | 0x020 => fields [(debt 0, 0), (debt 1, 8), (debt 2, 16), (debt 3, 24)]
  | 0x024 => c.rawWait
  | 0x028 => fields [(c.range.toNat, 0), (c.trefipb.toNat, 16)]
  | 0x100 => fields [(c.busy.toNat, 0), (c.periodic.toNat, 1), (c.helperDrop.toNat, 2), (c.lostSeen.toNat, 3)]
  | 0x104 => qualityWord c
  | 0x108 => c.trnSfn
  | 0x10C => fields [(c.pattern.toNat, 0), (c.invertAlt.toNat, 2)]
  | 0x110 => c.seed
  | 0x190 => lo32 c.cmpAddr
  | 0x194 => hi32 c.cmpAddr
  | 0x198 => fields [(c.cmpLanes.toNat, 0), (c.cmpWord.toNat, 24)]
  | 0x19C => lo32 c.cmpExp
  | 0x1A0 => hi32 c.cmpExp
  | 0x1A4 => lo32 c.cmpAct
  | 0x1A8 => hi32 c.cmpAct
  | _ => 0

/-! ### SHUT, HKADC, SPC, SPT, KEEP -/

/-- SHUT_GRP_STATUS (R189). -/
def groupStatus (s : State) (g : Nat) : Word :=
  let x := vget s.shut.groups g Group.reset
  let cs := (groupCoils g).map (coilOf s)
  let filt := ((cs.find? fun c => c.state = .pullin && c.filt ≠ 0).map fun c => c.filt.toNat).getD 0
  fields [(x.raw.toNat, 0), (filt, 12), (x.hsg.toNat, 24), ((cs.filter energised).length, 25)]

/-- SHUT registers (R189). -/
def readShut (s : State) (o : Nat) : Word :=
  let mask (hi : Bool) (f : Coil → Bool) : Word := boolMask 32 fun i => f (coilOf s (i + if hi then 32 else 0))
  let count (st : CoilState) : Nat := ((List.range 64).filter fun t => (coilOf s t).state = st).length
  if 0x400 ≤ o then
    let c := coilOf s ((o - 0x400) / 16)
    match o % 16 with
    | 0x0 => fields [(c.stateByte.toNat, 0), (c.dipByte.toNat, 8), (coilCode c.state, 16)]
    | 0x4 => word c.dipT.toNat
    | 0x8 => c.actCnt
    | _ => halves c.faultCnt c.retryCnt
  else if 0x100 ≤ o then
    let g := (o - 0x100) / 32
    if o % 32 = 0x1C then groupStatus s g else word (shutWord s g (o % 32 / 4))
  else match o with
  | 0x00 => fields [(count .pullin, 0), (count .wait, 5)]
  | 0x04 => fields [(pullinMax s, 0), (staggerUs s, 16)]
  | 0x08 => mask false fun c => c.fault ≠ 0
  | 0x0C => mask true fun c => c.fault ≠ 0
  | 0x18 => mask false countsClosed
  | 0x1C => mask true countsClosed
  | 0x20 => s.shut.deferCnt
  | _ => 0

/-- HKADC registers (R377). -/
def readHkadc (s : State) (o : Nat) : Word :=
  let h := s.hk
  if 0x300 ≤ o then word (activeWord s 6 (0x280 + 4 * ((o - 0x300) / 4)))
  else if 0x200 ≤ o then (vget h.slots ((o - 0x200) / 4) (0, 0)).2
  else if 0x100 ≤ o then vget h.latched ((o - 0x100) / 4) 0
  else match o with
  | 0x00 => fields [(h.passRunning.toNat, 0), (h.pending.toNat, 1), (h.calibrating.toNat, 2), (h.c0.calOk.toNat, 3),
      (h.c1.calOk.toNat, 4)]
  | 0x08 => fields [((hkPassMode s).toNat, 0), (hkTrigSrc s, 1), (hkNEnt s, 3), (hkNInj s, 10), (hkTrigDiv s, 16)]
  | 0x0C => halves h.c0.ofs h.c0.gain
  | 0x10 => halves h.c1.ofs h.c1.gain
  | 0x14 => fields [(h.missedSeen.toNat, 0), (h.skipSeen.toNat, 1), (h.openSeen.toNat, 2), (h.calRejSeen.toNat, 3),
      (h.selfcalDrop.toNat, 4)]
  | 0x18 => h.missedCnt
  | 0x1C => h.skipCnt
  | 0x20 => h.passCnt
  | 0x24 => word h.openMask.toNat
  | 0x28 => word (h.openMask.toNat / 2 ^ 32)
  | 0x2C => h.calSfn
  | _ => 0

/-- SPC registers (R388). -/
def readSpc (s : State) (o : Nat) : Word :=
  let p := s.spc
  if 0x100 ≤ o then
    let i := (o - 0x100) / 8
    if o % 8 = 0 then vget p.cfg0 i 0 else vget p.cfg1 i 0
  else match o with
  | 0x00 => fields [(p.busy.toNat, 0), (p.stalled.toNat, 1), (p.tx.length, 2), (p.rx.length, 7), (p.sel.toNat, 12)]
  | 0x0C => p.rx.headD 0
  | 0x10 => fields [(p.cmdDrop.toNat, 0), (p.txDrop.toNat, 1)]
  | 0x14 => halves p.doneCnt p.abortedCnt
  | _ => 0

/-- SPT registers (R389). -/
def readSpt (s : State) (o : Nat) : Word :=
  let p := s.spt
  match o with
  | 0x0 => fields [(p.selected.toNat, 0), (p.busy.toNat, 1), (p.done.toNat, 2)]
  | 0x4 => fields [(p.bits.toNat, 0), (p.cpol.toNat, 6), (p.cpha.toNat, 7), (p.lsbFirst.toNat, 8)]
  | 0x8 => word p.busyDrop.toNat
  | 0xC => halves p.framing p.badcmd
  | _ => 0

/-- KEEP registers (R410). -/
def readKeepReg (s : State) (o : Nat) : Word :=
  let k := s.keep
  let busy : Bool := match k.current with | some b => b.now.isSome | none => false
  let waiting := (k.queue.filter fun w => !isRead w).length - (if k.current.isSome then 1 else 0)
  if 0x100 ≤ o then
    let r := ringOf s ((o - 0x100) / 8)
    if o % 8 = 0 then (if r.empty then 0 else r.seq)
    else fields [(r.slot.toNat, 0), (r.empty.toNat, 8), (r.valid.toNat, 9)]
  else match o with
  | 0x00 => fields [(busy.toNat, 0), (k.ready.toNat, 1), (k.vkeepOk.toNat, 2), (k.bp.toNat, 3), (clampNat waiting 63, 5)]
  | 0x04 => fields [(k.dupseq.toNat, 0), (k.corrSeen.toNat, 1), (k.uncorrSeen.toNat, 2), (k.protectHit.toNat, 3),
      (k.vkeepLow.toNat, 4)]
  | 0x08 => fields [(k.action.toNat, 0), (k.page.toNat, 16)]
  | 0x0C => halves k.corrCnt k.uncorrCnt
  | 0x10 => k.writeCnt
  | 0x14 => halves k.refVkeep k.refProtect
  | 0x18 => fields [(k.dupRing.toNat, 0), (k.dupSlot.toNat, 16)]
  | 0x1C => word k.vkeepMv.toNat
  | 0x20 => word (k.lifeWrites / 1000)
  | _ => 0

/-! ### TILE, ENG -/

def portCode : PortState → Nat
  | .off => 0 | .prepare => 1 | .ready => 2 | .imaging => 3 | .fault => 4

def calCode : CalPhase → Nat
  | .idle => 0 | .close => 1 | .accum => 2 | .compute => 3 | .open => 4 | .traverse => 5

/-- The tile-port registers (R101); those from 0x004 to 0x018 show the set's tile record. -/
def readPort (s : State) (t o : Nat) : Word :=
  let p := (tileOf s t).port
  match o with
  | 0x00 => fields [(portCode p.state, 0), (p.los.toNat, 3), (p.losCause.toNat, 8), (p.tstatLevel.toNat, 16),
      (p.masked.toNat, 17)]
  | 0x1C => word p.losSticky.toNat
  | 0x20 => fields [(p.lastSummary.toNat, 0), (p.stuckSeen.toNat, 8), (p.chatterSeen.toNat, 9)]
  | 0x24 => p.chatterCnt
  | 0x28 => halves p.retryCnt p.failCnt
  | 0x2C => halves p.mismatchCnt p.reprepCnt
  | 0x30 => p.losCnt
  | 0x34 => word p.hostAddr.toNat
  | 0x38 => fields [(p.hostData.toNat, 0), (p.hostDone.toNat, 16), (p.hostOk.toNat, 17), (p.hostPending.toNat, 18)]
  | _ => word (setWord s t (o - 4))

/-- The readout registers (R129). -/
def readRdo (s : State) (t o : Nat) : Word :=
  let x := tileOf s t
  let r := x.rdo
  match o with
  | 0x100 => word (rdoSetup s t)
  | 0x104 => word (setWord s t 0x1C)
  | 0x108 => word (setWord s t 0x20)
  | 0x10C => word (setWord s t 0x24)
  | 0x110 => word x.tapA.w.toNat
  | 0x114 => word x.tapB.w.toNat
  | 0x118 => x.tapA.ofs
  | 0x11C => x.tapA.gain
  | 0x120 => x.tapB.ofs
  | 0x124 => x.tapB.gain
  | 0x128 => r.tSub
  | 0x12C => fields [(x.tapA.injOk.toNat, 0), (x.tapB.injOk.toNat, 1), (r.thOk.toNat, 2), (r.stale.toNat, 3),
      (r.sat.toNat, 4), (r.wcalTapB.toNat, 8), (r.wcalOk.toNat, 9), (r.wcalForced.toNat, 10)]
  | 0x130 => word r.rsat.toNat
  | 0x134 => word r.conv.toNat
  | 0x138 => word r.rail.toNat
  | 0x13C => fields [(r.wMeas.toNat, 0), (r.resid.toNat, 20)]
  | 0x140 => halves r.wcalAcc r.wcalRej
  | 0x144 => halves r.injRej r.thRej
  | 0x148 => x.tapA.wcalSfn
  | 0x14C => x.tapB.wcalSfn
  | _ => 0

/-- The lane registers (R150). -/
def readLane (s : State) (t o : Nat) : Word :=
  let l := (tileOf s t).lane
  let on : Bool := tileEnabled s t
  let base (b : BitVec 64) : Word := half64 (o % 8 = 4) b
  match o with
  | 0x200 => if on then fields [(laneFlags s t % 256, 0), (alphaOf s t % 512, 8)] else 0
  | 0x204 => if on then word (motionThr s t) else 0
  | 0x208 => if on then word (laneWord s t 0x44) else 0
  | 0x20C => l.housing
  | 0x210 => l.dt
  | 0x214 => fields [(l.status.toNat, 0), (l.blindOkA.toNat, 8), (l.blindOkB.toNat, 9), (l.saveFail.toNat, 10),
      (l.corrSlot.toNat, 16)]
  | 0x218 => l.meanA
  | 0x21C => l.meanB
  | 0x220 => word l.bad.toNat
  | 0x224 => word l.norep.toNat
  | 0x228 => word l.clipLo.toNat
  | 0x22C => word l.clipHi.toNat
  | 0x230 => word l.motion.toNat
  | 0x234 => l.heldCnt
  | 0x238 => l.blindFailCnt
  | 0x23C => l.tblLate
  | 0x240 | 0x244 => base l.cb.base
  | 0x248 | 0x24C => base l.o
  | 0x250 | 0x254 => base l.g
  | 0x258 | 0x25C => base l.d
  | 0x260 | 0x264 => base l.t.base
  | _ => 0

/-- The calibration registers (R171). -/
def readCal (s : State) (t o : Nat) : Word :=
  let c := (tileOf s t).cal
  match o with
  | 0x300 => fields [(calCode c.phase, 0), (c.due.toNat, 3), (c.requested.toNat, 4), (c.abandoning.toNat, 5),
      (c.slot % 4, 6), (c.index % 256, 8), (c.lastCause.toNat, 16), (c.abandonSeen.toNat, 20)]
  | 0x304 => if (activeSet s).any fun b => Bank.enabled b t then word c.k.toNat else 0
  | 0x308 => c.tcal
  | 0x30C => c.dueSfn
  | 0x310 => c.lastSfn
  | 0x314 => halves c.doneCnt c.abandCnt
  | 0x318 => c.varC
  | 0x31C => c.varO
  | 0x320 => c.spread
  | 0x324 => c.level
  | 0x328 => word c.poison.toNat
  | 0x32C => lo32 c.target
  | 0x330 => hi32 c.target
  | _ => 0

def readTile (s : State) (t o : Nat) : Word :=
  if o < 0x100 then readPort s t o
  else if o < 0x200 then readRdo s t o
  else if o < 0x300 then readLane s t o
  else readCal s t o

/-- The slots that the engine runs in this period (R216). -/
def periodSlots (s : State) (e : Nat) : List Nat :=
  match engineSet s with
  | some b => if s.eng.active then Bank.engSlots b e else []
  | none => []

/-- ENG_STATUS (R216). -/
def engStatus (s : State) (e : Nat) : Word :=
  let x := engOf s e
  let done : Bool := s.cfg.hasActive && (periodSlots s e).all (slotEnded s)
  let waits : Bool := match engineSet s with
    | some b => s.eng.active && x.running.isNone && (match nextSlot s b e with
        | some i => !barrierDone s b (Bank.slotWait b i)
        | none => false)
    | none => false
  fields [(x.running.isSome.toNat, 0), (done.toNat, 1), (waits.toNat, 2), (x.slotReg.toNat, 16)]

/-- ENG registers (R216). -/
def readEng (s : State) (e o : Nat) : Word :=
  let x := engOf s e
  let mine : List Nat := match activeSet s with | some b => Bank.engSlots b e | none => []
  match o with
  | 0x00 => engStatus s e
  | 0x04 => match activeSet s with | some b => word (dmaMbps b e) | none => 0
  | 0x08 => match activeSet s, mine.getLast? with | some b, some i => word (planNs b i) | _, _ => 0
  | 0x0C => x.finishNs
  | 0x10 => x.lateMax
  | 0x14 => fields [(x.faultCause.toNat, 0), (x.faultSlot.toNat, 4), (x.faultValid.toNat, 31)]
  | 0x18 => x.faultSfn
  | 0x1C => halves x.abandonCnt x.faultCnt
  | 0x20 => halves x.eccCorr x.eccUncorr
  | 0x24 => halves x.runOvf x.clOvf
  | 0x28 => lo32 x.dmaBytes
  | 0x2C => hi32 x.dmaBytes
  | 0x30 => fields [(x.lateSeen.toNat, 0), (x.abandonSeen.toNat, 1), (x.faultSeen.toNat, 2), (x.eccSeen.toNat, 3),
      (x.capSeen.toNat, 4)]
  | 0x34 => word mine.length
  | _ => 0

/-! ### Every block -/

/-- The word at a window offset of a bank. -/
def windowWord (b : Bank) (o : Nat) : Word := word (leNat (readCells zeroByte b o 4))

/-- The register or window word of block type `ty`, instance `i`, at an implemented offset. -/
def blockWord (s : State) (ty i o : Nat) : Word :=
  match ty with
  | 0x01 => mapWord o
  | 0x02 => readDev s o
  | 0x03 => readErr s o
  | 0x04 => readPwr s o
  | 0x05 => readTick s o
  | 0x10 => readCmdq s o
  | 0x11 => readHost s o
  | 0x20 => readMemc s o
  | 0x21 => readMemch s i o
  | 0x30 => readShut s o
  | 0x31 => readHkadc s o
  | 0x32 => readSpc s o
  | 0x33 => readSpt s o
  | 0x34 => readKeepReg s o
  | 0x35 => syncReg s (o / 4)
  | 0x40 => readTile s i o
  | 0x41 => readEng s i o
  | 0x80 => windowWord s.cfg.shadow o
  | 0x81 => windowWord s.cfg.active o
  | 0x82 => if s.dev.phase = .hostWait then windowWord s.dev.fwWindow o else 0
  | _ => 0

/-- The block is served: until the firmware starts only MAP, DEV, ERR, PWR and the firmware load window are (R437). -/
def blockServed (s : State) (ty : Nat) : Bool :=
  s.dev.power ≠ .off || ty = 0x01 || ty = 0x02 || ty = 0x03 || ty = 0x04 || ty = 0x82

/-- The word of an implemented BAR0 offset; none for an unimplemented one (R285, R437, R446). -/
def bar0Word (s : State) (a : Nat) : Option Word :=
  match blockAt a with
  | none => none
  | some b =>
    let o := a - b.base
    if !isImplemented b.type.ty o then none
    else some (blockWord (if blockServed s b.type.ty then s else State.reset) b.type.ty b.inst o)

/-- A BAR0 access that is a miss is recorded and raised (R285, R412). -/
def bar0Miss (a : Nat) (write : Bool) (s : State) : State :=
  let s := modHost (fun h =>
    { h with addrMiss := true, missBar0 := satInc h.missBar0,
             missOfs := if h.addrMiss then h.missOfs else BitVec.ofNat 26 a,
             missWrite := if h.addrMiss then h.missWrite else write }) s
  raiseErr (mkErr 2 0x25 0xFF 0 (word a)) s

/-- A full-word BAR0 read: its value, and whether it was a miss (R12, R285). -/
def bar0Read (a : Nat) (s : State) : Word × Bool × State :=
  match bar0Word s a with
  | some w => (w, false, s)
  | none => (0, true, bar0Miss a false s)

end Sys2Proof.Machine
end

