-- ==== Sys2Proof/Machine/RegWrite.lean ====
section
/-! DEFINITION. BAR0 writes (00 R11, R13; 12 R284, R285; 21 R450 to R452), block by block, and the commands that read and
write registers (13 R314, R315). -/
namespace Sys2Proof.Machine

/-! ### W1C fields (R11) -/

/-- A one-bit W1C field at bit `i`. -/
def w1c (v : Word) (i : Nat) (x : Bool) : Bool := x && !v.getLsbD i
/-- A W1C field of several bits whose lowest bit is bit 0. -/
def w1cMask {w : Nat} (v : Word) (x : BitVec w) : BitVec w := x &&& ~~~(BitVec.ofNat w v.toNat)

/-! ### DEV, ERR, TICK -/

def writeDev (o : Nat) (v : Word) (s : State) : State :=
  match o with
  | 0x14 => modDev (fun d => { d with
      porCause := w1c v 0 d.porCause, brownoutCause := w1c v 1 d.brownoutCause, resetNCause := w1c v 2 d.resetNCause,
      perstCause := w1c v 3 d.perstCause }) s
  | 0x20 => if v.getLsbD 0 then fwGo s else s
  | 0x24 => modDev (fun d => { d with fwDrop := w1c v 0 d.fwDrop, sigFailSeen := w1c v 1 d.sigFailSeen }) s
  | _ => s

/-- VALID of a capture register (R415, R426). -/
def writeErr (o : Nat) (v : Word) (s : State) : State :=
  if (o = 0x10 || o = 0x20 || o = 0x30) && v.getLsbD 31 then ackClass (o / 16 - 1) s else s

/-- PARK_NS: a write outside its range is ignored (R70). -/
def parkWrite (v : Word) (s : State) : State :=
  if 10000000 ≤ v.toNat && v.toNat ≤ 1000000000 then modTick (fun t => { t with parkPeriod := v }) s else s

def writeTickReg (o : Nat) (v : Word) (s : State) : State :=
  match o with
  | 0x0C => parkWrite v s
  | 0x14 => modTick (fun t => { t with
      tableTouch := w1c v 0 t.tableTouch, shadowDrop := w1c v 1 t.shadowDrop, lateSeen := w1c v 2 t.lateSeen,
      overrunSeen := w1c v 3 t.overrunSeen }) s
  | _ => s

/-! ### CMDQ, HOST -/

def setLo (x : BitVec 64) (v : Word) : BitVec 64 := pair64 v (hi32 x)
def setHi (x : BitVec 64) (v : Word) : BitVec 64 := pair64 (lo32 x) v

/-- GO, then NEXT, of a mailbox (R313). -/
def writeMboxCtrl (mgmt : Bool) (v : Word) (s : State) : State :=
  let s := if v.getLsbD 0 then mboxGo mgmt s else s
  if v.getLsbD 1 then mboxNext mgmt s else s

def writeCmdq (o : Nat) (v : Word) (s : State) : State :=
  if 0x600 ≤ o && o < 0x700 then mboxCmdWrite true ((o - 0x600) / 4) v s
  else if 0x400 ≤ o && o < 0x500 then mboxCmdWrite false ((o - 0x400) / 4) v s
  else match o with
  | 0x00 =>
    let s := modCmdq (fun c => { c with irqEvery := BitVec.ofNat 13 (bits v.toNat 28 16) }) s
    if v.getLsbD 0 then caravanEnable s else caravanClear s
  | 0x08 => modCmdq (fun c => { c with
      cfgBad := w1c v 0 c.cfgBad, tailBad := w1c v 1 c.tailBad, consBad := w1c v 2 c.consBad,
      rplLost := w1c v 3 c.rplLost, mboxBusy := w1c v 4 c.mboxBusy, fetchErr := w1c v 5 c.fetchErr }) s
  | 0x0C => writeRingReg (fun c => { c with ringSize := BitVec.ofNat 13 v.toNat }) s
  | 0x10 => writeRingReg (fun c => { c with ringBase := setLo c.ringBase v }) s
  | 0x14 => writeRingReg (fun c => { c with ringBase := setHi c.ringBase v }) s
  | 0x18 => writeTail v s
  | 0x20 => writeRingReg (fun c => { c with rplSize := BitVec.ofNat 13 v.toNat }) s
  | 0x24 => writeRingReg (fun c => { c with rplBase := setLo c.rplBase v }) s
  | 0x28 => writeRingReg (fun c => { c with rplBase := setHi c.rplBase v }) s
  | 0x30 => writeRplCons v s
  | 0x34 => writeRingReg (fun c => { c with rplWb := setLo c.rplWb v }) s
  | 0x38 => writeRingReg (fun c => { c with rplWb := setHi c.rplWb v }) s
  | 0x48 => writeMboxCtrl false v s
  | 0x4C => writeMboxCtrl true v s
  | _ => s

/-- What an MSI-X table word not listed reads as (log entry 11). -/
def msixDefault (i : Nat) : Word := if i % 4 = 3 then 1 else 0

/-- Write a word of the MSI-X table, the list rising by index with no word at its default. -/
def msixPut (i : Nat) (v : Word) : List (Nat × Word) → List (Nat × Word)
  | [] => if v = msixDefault i then [] else [(i, v)]
  | (k, w) :: r =>
    if i < k then (if v = msixDefault i then (k, w) :: r else (i, v) :: (k, w) :: r)
    else if i = k then (if v = msixDefault i then r else (i, v) :: r)
    else (k, w) :: msixPut i v r

/-- A word of the MSI-X table: the vector control word has only its mask bit, as the standard gives (R300). -/
def msixWrite (i : Nat) (v : Word) (s : State) : State :=
  modHost (fun h => { h with msixTable := msixPut i (if i % 4 = 3 then v &&& 1 else v) h.msixTable }) s

def writeHost (o : Nat) (v : Word) (s : State) : State :=
  if 0x3000 ≤ o then s
  else if 0x1000 ≤ o then msixWrite ((o - 0x1000) / 4) v s
  else if o = 0x800 then
    modHold (fun h => { h with incompleteSeen := w1c v 3 h.incompleteSeen, overSeen := w1c v 4 h.overSeen }) s
  else if 0x100 ≤ o && o < 0x500 then
    let m := (o - 0x100) / 32
    match o % 32 with
    | 0x08 => writeStrCons m v s
    | 0x18 => writeConsCur m false v s
    | 0x1C => writeConsCur m true v s
    | _ => s
  else match o with
  | 0x04 => modHost (fun h => { h with
      addrMiss := w1c v 0 h.addrMiss, bar2Miss := w1c v 1 h.bar2Miss, linkDownSeen := w1c v 2 h.linkDownSeen,
      linkChangeSeen := w1c v 3 h.linkChangeSeen, dropSeen := w1c v 4 h.dropSeen, consBad := w1c v 5 h.consBad }) s
  | 0x10 => modHost (fun h => { h with tickIrqDiv := BitVec.ofNat 16 v.toNat }) s
  | _ => s

/-! ### MEMC, MEMCH -/

def writeMemc (o : Nat) (v : Word) (s : State) : State :=
  if 0x10 ≤ o && o ≤ 0x30 then hashWrite ((o - 0x10) / 4) v s
  else if o = 0x0C then modMemc (fun m => { m with
      hashBad := w1c v 0 m.hashBad, mapDrop := w1c v 1 m.mapDrop, frozenAccess := w1c v 2 m.frozenAccess,
      forcedRef := w1c v 3 m.forcedRef }) s
  else s

/-- The user pattern is dropped while the channel is busy (R279). -/
def writeMemch (n o : Nat) (v : Word) (s : State) : State :=
  modCh n (fun c =>
    if 0x1C0 ≤ o then
      if c.busy then { c with helperDrop := true } else { c with user := vset c.user ((o - 0x1C0) / 4) v }
    else match o with
    | 0x000 => { c with corrSeen := w1c v 2 c.corrSeen }
    | 0x100 => { c with helperDrop := w1c v 2 c.helperDrop, lostSeen := w1c v 3 c.lostSeen }
    | _ => c) s

/-! ### SHUT, HKADC, SPC, SPT, KEEP, SYNC -/

def writeShut (o : Nat) (v : Word) (s : State) : State :=
  match o with
  | 0x10 => shutFaultClr false v s
  | 0x14 => shutFaultClr true v s
  | _ => s

def writeHkadc (o : Nat) (v : Word) (s : State) : State :=
  match o with
  | 0x04 =>
    let s := if v.getLsbD 0 then hkSelfcalWrite s else s
    if v.getLsbD 1 then hkSoftTrigger s else s
  | 0x14 => modHk (fun h => { h with
      missedSeen := w1c v 0 h.missedSeen, skipSeen := w1c v 1 h.skipSeen, openSeen := w1c v 2 h.openSeen,
      calRejSeen := w1c v 3 h.calRejSeen, selfcalDrop := w1c v 4 h.selfcalDrop }) s
  | _ => s

/-- A BITS field outside 4 to 32 is ignored, the other fields being written (R388, R389). -/
def bitsField (old new : Nat) : Nat := if 4 ≤ new && new ≤ 32 then new else old

/-- SPC_CMD: POP, ABORT and GO (R380 to R383, R388). -/
def writeSpcCmd (v : Word) (s : State) : State :=
  let s := if v.getLsbD 6 then spcPop s else s
  let s := if v.getLsbD 5 then spcAbort s else s
  if v.getLsbD 7 then
    spcGo (BitVec.ofNat 4 v.toNat) (v.getLsbD 4) (BitVec.ofNat 16 (bits v.toNat 23 8)) s
  else s

/-- SPC_CFG1 of a select. -/
def spcCfg1 (old v : Word) : Word :=
  word (bitsField (bits old.toNat 5 0) (bits v.toNat 5 0) + bits v.toNat 10 8 * 256)

/-- SPC writes are dropped until the boot ROM ends (R384). -/
def writeSpc (o : Nat) (v : Word) : State → State :=
  spcWrite fun s =>
    if 0x100 ≤ o then
      let i := (o - 0x100) / 8
      if o % 8 = 0 then modSpc (fun p => { p with cfg0 := vset p.cfg0 i v }) s
      else modSpc (fun p => { p with cfg1 := vmod p.cfg1 i fun x => spcCfg1 x v }) s
    else match o with
    | 0x04 => writeSpcCmd v s
    | 0x08 => spcPush v s
    | 0x10 => modSpc (fun p => { p with cmdDrop := w1c v 0 p.cmdDrop, txDrop := w1c v 1 p.txDrop }) s
    | _ => s

def writeSpt (o : Nat) (v : Word) (s : State) : State :=
  match o with
  | 0x4 => { s with spt := { s.spt with
      bits := BitVec.ofNat 6 (bitsField s.spt.bits.toNat (bits v.toNat 5 0)), cpol := v.getLsbD 6, cpha := v.getLsbD 7,
      lsbFirst := v.getLsbD 8 } }
  | 0x8 => { s with spt := { s.spt with busyDrop := w1c v 0 s.spt.busyDrop } }
  | _ => s

def writeKeepReg (o : Nat) (v : Word) (s : State) : State :=
  if o = 0x04 then modKeep (fun k => { k with
      dupseq := w1c v 0 k.dupseq, corrSeen := w1c v 1 k.corrSeen, uncorrSeen := w1c v 2 k.uncorrSeen,
      protectHit := w1c v 3 k.protectHit, vkeepLow := w1c v 4 k.vkeepLow }) s
  else s

def writeSync (o : Nat) (v : Word) (s : State) : State :=
  match o with
  | 0x04 => modSync (fun y => { y with dnEn := BitVec.ofNat 4 v.toNat }) s
  | 0x2C => modSync (fun y => { y with
      earlySeen := w1c v 0 y.earlySeen, holdoverSeen := w1c v 1 y.holdoverSeen, slipSeen := w1c v 2 y.slipSeen,
      periodMismatch := w1c v 3 y.periodMismatch, depthExceeded := w1c v 4 y.depthExceeded,
      freqLimit := w1c v 5 y.freqLimit, assignTimeout := w1c v 6 y.assignTimeout, dlyReject := w1c v 7 y.dlyReject }) s
  | _ => s

/-! ### TILE, ENG -/

def writeTile (t o : Nat) (v : Word) (s : State) : State :=
  match o with
  | 0x01C => modPort t (fun p => { p with losSticky := w1cMask v p.losSticky }) s
  | 0x020 => modPort t (fun p => { p with
      stuckSeen := w1c v 8 p.stuckSeen, chatterSeen := w1c v 9 p.chatterSeen,
      unmaskNext := p.unmaskNext || v.getLsbD 10 }) s
  | 0x034 =>
    if v.getLsbD 31 then hostReadGo t (BitVec.ofNat 6 v.toNat) s
    else modPort t (fun p => { p with hostAddr := BitVec.ofNat 6 v.toNat }) s
  | 0x214 => modLane t (fun l => { l with saveFail := w1c v 10 l.saveFail }) s
  | 0x300 => modCal t (fun c => { c with abandonSeen := w1c v 20 c.abandonSeen }) s
  | _ => s

def writeEng (e o : Nat) (v : Word) (s : State) : State :=
  match o with
  | 0x14 => modEng e (fun x => { x with faultValid := w1c v 31 x.faultValid }) s
  | 0x30 => modEng e (fun x => { x with
      lateSeen := w1c v 0 x.lateSeen, abandonSeen := w1c v 1 x.abandonSeen, faultSeen := w1c v 2 x.faultSeen,
      eccSeen := w1c v 3 x.eccSeen, capSeen := w1c v 4 x.capSeen }) s
  | _ => s

/-! ### Every block -/

/-- A full-word write to an implemented offset of a block that is served. -/
def regWrite (ty i o : Nat) (v : Word) (s : State) : State :=
  match ty with
  | 0x02 => writeDev o v s
  | 0x03 => writeErr o v s
  | 0x05 => writeTickReg o v s
  | 0x10 => writeCmdq o v s
  | 0x11 => writeHost o v s
  | 0x20 => writeMemc o v s
  | 0x21 => writeMemch i o v s
  | 0x30 => writeShut o v s
  | 0x31 => writeHkadc o v s
  | 0x32 => writeSpc o v s
  | 0x33 => writeSpt o v s
  | 0x34 => writeKeepReg o v s
  | 0x35 => writeSync o v s
  | 0x40 => writeTile i o v s
  | 0x41 => writeEng i o v s
  | 0x80 => shadowWord o v s
  | 0x82 => fwWrite o v s
  | _ => s

/-- A BAR0 write of the word at `a` (R11, R13, R285, R437, R441): SPC drops writes while the boot ROM runs and shows it
(R384); other blocks not yet served ignore them. -/
def bar0Write (a : Nat) (v : Word) (be : BitVec 4) (s : State) : State :=
  match blockAt a with
  | none => bar0Miss a true s
  | some b =>
    let o := a - b.base
    if !isImplemented b.type.ty o then bar0Miss a true s
    else if be ≠ 0xF then
      if b.type.ty = 0x82 && s.dev.phase ≠ .hostWait then modDev (fun d => { d with fwDrop := true }) s
      else bar0Miss a true s
    else if blockServed s b.type.ty || b.type.ty = 0x32 then regWrite b.type.ty b.inst o v s
    else s

/-- Whether a BAR0 offset is implemented. -/
def bar0Implemented (a : Nat) : Bool :=
  match blockAt a with
  | some b => isImplemented b.type.ty (a - b.base)
  | none => false

/-- The word-aligned BAR0 offset of an access. -/
def wordAddr (a : Word) : Nat := a.toNat / 4 * 4

/-! ### The commands that reach registers (R314, R315) -/

/-- Read `n` words from an address on, in ascending address. -/
def readWords : Nat → Nat → State → List Word × State
  | 0, _, s => ([], s)
  | n + 1, a, s =>
    let (w, _, s) := bar0Read a s
    let (l, s) := readWords n (a + 4) s
    (w :: l, s)

/-- Write words from an address on, in ascending address. -/
def writeWords : Nat → List Word → State → State
  | _, [], s => s
  | a, v :: r, s => writeWords (a + 4) r (bar0Write a v 0xF s)

/-- Words from an address to the last register of its block. -/
def wordsLeft (a : Nat) : Nat :=
  match blockAt a with
  | some b => (lastReg b.type.ty - (a - b.base)) / 4 + 1
  | none => 0

/-- READ_REGS at its tick: it stops at the last register of the block (R315). -/
def readRegs (h : Hdr) (addr count : Nat) (s : State) : State :=
  runAtTick h 0x01 (fun s =>
    let n := min count (wordsLeft addr)
    let (l, s) := readWords n addr s
    reply h 0x01 (if n < count then stTruncated else stOk) (word n :: l) s) s

/-- WRITE_REGS at its tick (R315): a range that passes the last register writes nothing. -/
def writeRegs (h : Hdr) (addr : Nat) (vals : List Word) (s : State) : State :=
  runAtTick h 0x02 (fun s =>
    if wordsLeft addr < vals.length then reply h 0x02 stBadParam [] s
    else reply h 0x02 stOk [word vals.length] (writeWords addr vals s)) s

/-- READ_MAP at its tick (R315, R342). -/
def readMap (h : Hdr) (ofs count : Nat) (s : State) : State :=
  runAtTick h 0x03 (fun s =>
    let n := min count ((mapBytes - ofs) / 4)
    reply h 0x03 (if n < count then stTruncated else stOk) (word n :: (List.range n).map fun i => mapWord (ofs + 4 * i)) s) s

/-- NOP at its tick (R314). -/
def nop (h : Hdr) (s : State) : State := runAtTick h 0x00 (fun s => reply h 0x00 stOk [] s) s

/-- SET_TIME at its tick (R314). -/
def setTime (h : Hdr) (v : BitVec 64) (s : State) : State :=
  runAtTick h 0x04 (fun s => reply h 0x04 stOk [] { s with clock := { s.clock with devTime := v } }) s

/-! ### The commands and events -/

/-- NOP (R314). -/
def execNop (h : Hdr) (s : State) : Host.Outcome State Fault Refusal := .next (nop h s)

/-- READ_REGS (R314, R315). -/
def execReadRegs (h : Hdr) (addr count : Word) (s : State) : Host.Outcome State Fault Refusal :=
  .next (readRegs h addr.toNat count.toNat s)

/-- WRITE_REGS (R314, R315). -/
def execWriteRegs (h : Hdr) (addr : Word) (vals : List Word) (s : State) : Host.Outcome State Fault Refusal :=
  .next (writeRegs h addr.toNat vals s)

/-- READ_MAP (R314, R315). -/
def execReadMap (h : Hdr) (ofs count : Word) (s : State) : Host.Outcome State Fault Refusal :=
  .next (readMap h ofs.toNat count.toNat s)

/-- SET_TIME (R314). -/
def execSetTime (h : Hdr) (v : BitVec 64) (s : State) : Host.Outcome State Fault Refusal := .next (setTime h v s)

/-- REGISTER_WRITE (R11, R13). -/
def execRegisterWrite (addr : Word) (v : Word) (be : BitVec 4) (s : State) : Host.Outcome State Fault Refusal :=
  .next (barAccess (bar0Write (wordAddr addr) v be) s)

/-- A host read of BAR0: the addressed bytes of the register, or zeros and a miss (R12, R13, R284, R285). -/
def bar0HostRead (a : Nat) (be : BitVec 4) (s : State) : State :=
  let (w, _, s) := bar0Read a s
  emit (.readData (((leBytes 4 w.toNat).zipIdx.filter fun p => be.getLsbD p.2).map fun p => p.1)) s

/-- A host write of BAR0 that is dropped: to an unimplemented offset, or of a part of a register; a whole one to a
register is a REGISTER_WRITE (R13, R285). -/
def bar0HostDrop (a : Nat) (be : BitVec 4) (s : State) : State :=
  if bar0Implemented a && be = 0xF then s else bar0Write a 0 be s

/-- BAR0_UNIMPLEMENTED_ACCESS (R285), and the reads that R13 and R284 describe of an implemented offset. -/
def execBar0UnimplementedAccess (addr : Word) (write : Bool) (s : State) (be : BitVec 4 := 0xF) :
    Host.Outcome State Fault Refusal :=
  .next (barAccess (if write then bar0HostDrop (wordAddr addr) be else bar0HostRead (wordAddr addr) be) s)

/-- SHADOW_WINDOW_WRITE (R59, R333), at an offset of the window. -/
def execShadowWindowWrite (ofs : Word) (v : Word) (be : BitVec 4) (s : State) : Host.Outcome State Fault Refusal :=
  .next (barAccess (bar0Write (0x01000000 + wordAddr ofs % 0x800000) v be) s)

/-- TICK_PARK_PERIOD_WRITE (R70). -/
def execTickParkPeriodWrite (v : Word) (s : State) : Host.Outcome State Fault Refusal :=
  .next (barAccess (bar0Write 0x0001300C v 0xF) s)

end Sys2Proof.Machine
end

