-- ==== Sys2Proof/Machine/Reset.lean ====
section
/-! DEFINITION. RESET_BLOCK (13 R325) on each block that accepts it: TILE (03 R77, R101; 04 R127; 06 R171), ENG (08 R214,
R216), SHUT (07 R185), HOST (12 R288), HKADC (16 R376), SPC (17 R382), SPT, and MEMC with its channels (10 R265, R266;
11 R279). -/
namespace Sys2Proof.Machine

/-! ### TILE -/

/-- The registers of R101 that the reset returns to their values. -/
def resetPortRegs (p : Port) : Port :=
  { p with
    los := false, losCause := 0, tstatLevel := false, masked := false, unmaskNext := false,
    wholeRun := 0, lastSummary := 0, stuckSeen := false, chatterSeen := false, losSticky := 0, chatterCnt := 0,
    retryCnt := 0, failCnt := 0, mismatchCnt := 0, reprepCnt := 0, losCnt := 0, hostAddr := 0, hostReq := 0,
    hostData := 0, hostDone := false, hostOk := false, hostPending := false }

/-- The registers of R150; the table bases and the frame in progress are kept. -/
def resetLaneRegs (l : Lane) : Lane :=
  { Lane.reset with
    work := l.work, cb := l.cb, o := l.o, g := l.g, d := l.d, t := l.t, freshNext := l.freshNext, prevRead := l.prevRead,
    prevSat := l.prevSat, prevBlind := l.prevBlind, prevHeld := l.prevHeld, prevSameSet := l.prevSameSet,
    statusPipe := l.statusPipe }

/-- RESET_BLOCK on TILE t: a port past OFF prepares, its measurements and calibration end, W, OFS and GAIN are reloaded,
and the registers are reset. K is set-derived. -/
def resetTile (t : Nat) (s : State) : State :=
  let s := if (tileOf s t).port.state = .off then s else portChange t (enterPrepare t) s
  let s := reloadTaps t (lincalDrop t s)
  let k := if tileEnabled s t then setK s else 0
  modTile t (fun x =>
    let tap (p : Tap) : Tap := { p with injOk := false, wcalSfn := 0 }
    { x with
      port := resetPortRegs x.port, tapA := tap x.tapA, tapB := tap x.tapB,
      rdo := { Rdo.reset with stale := true, subStale := true }, lane := resetLaneRegs x.lane,
      cal := { Cal.reset with target := x.cal.target, k := BitVec.ofNat 7 k } }) s

/-! ### ENG -/

/-- RESET_BLOCK on ENG e: the running slot is abandoned with cause RESET, and the registers are reset. -/
def resetEng (e : Nat) (s : State) : State :=
  let s := match engineSet s, (engOf s e).running with
    | some b, some i => faultSlot b e i 5 s
    | _, _ => s
  modEng e (fun x => { Eng.reset with
    lmem := x.lmem, lmemEpoch := x.lmemEpoch, next := x.next, pass := x.pass, op := x.op, opsEnded := x.opsEnded,
    stopped := x.stopped, finishNow := x.finishNow, produced := x.produced, abandonedNow := x.abandonedNow,
    dmaNow := x.dmaNow }) s

/-! ### SHUT -/

/-- A coil after a reset of SHUT: its release goes on, a fault is cleared at the next tick (R185), and its lifetime totals
are kept. -/
def resetCoil (c : Coil) : Coil :=
  { Coil.reset with
    state := c.state, n := c.n, fault := c.fault, faultAfter := c.faultAfter, groupLatched := c.groupLatched, clearNext := decide (c.fault ≠ 0),
    lifeAct := c.lifeAct, lifeFaults := c.lifeFaults, lifeRetries := c.lifeRetries }

/-- RESET_BLOCK on SHUT (R185): calibrations in CLOSE, ACCUM or COMPUTE end with cause SHUTTER_FAULT, every coil is
released and every request withdrawn. -/
def resetShut (s : State) : State :=
  let closing (s : State) (t : Nat) : Bool :=
    let p := (tileOf s t).cal.phase
    p = .close || p = .accum || p = .compute
  let s := forEach ((List.range 64).filter (closing s)) (fun t => calToOpen t 3) s
  let s := forEach (List.range 64) releaseCoil s
  let s := { s with shut := { s.shut with
    coils := s.shut.coils.map resetCoil, groups := s.shut.groups.map fun _ => Group.reset, deferCnt := 0 } }
  moveReplies s

/-! ### HOST -/

/-- RESET_BLOCK on HOST (R288): the registers of HOST, the hold registers among them (R242). -/
def resetHost (s : State) : State := holdReset (resetHostRegs s)

/-! ### MEMC -/

/-- The registers of a channel at their Reset values (R10, R266, R279): TRAINED, the refresh debt and the trace among them. BUSY
goes on showing a command that runs, and the delays themselves stay in the channel (log entry 116). -/
def resetMemch (c : Memch) : Memch :=
  { Memch.reset with busy := c.busy, rdDelay := c.rdDelay, wrDelay := c.wrDelay, caDelay := c.caDelay }

/-- RESET_BLOCK on MEMC (R10, R265): its registers return to their Reset values, so that no channel is trained, the masks are
those of the home bits and are unlocked (R250), which moves every line if a mask differed, and periodic retraining is disarmed. -/
def resetMemc (s : State) : State :=
  let moved := decide (s.memc.hash ≠ hashReset)
  let s := modMemc (fun m => { Memc.reset with
    rate := m.rate, ports := m.ports.map (fun p => { p with lines := 0, linesNow := 0, wait := 0 }), reqs := m.reqs,
    hostReads := m.hostReads, lastPort := m.lastPort, train := m.train, diag := m.diag, undo := m.undo }) s
  let s := { s with memch := s.memch.map resetMemch }
  if moved then { s with dram := { cells := [], epoch := s.dram.epoch + 1 } } else s

/-! ### The command -/

/-- The effect of RESET_BLOCK on an instance of a type, none where it refuses (R325). -/
def blockReset (ty i : Nat) (s : State) : Option (State → State) :=
  match ty with
  | 0x40 => some (resetTile i)
  | 0x41 => some (resetEng i)
  | 0x30 => some resetShut
  | 0x11 => some resetHost
  | 0x31 => some hkReset
  | 0x32 => some spcReset
  | 0x33 => some fun s => { s with spt := { Spt.reset with selected := s.spt.selected } }
  | 0x20 => if s.dev.power = .parked then some resetMemc else none
  | _ => none

/-- RESET_BLOCK at its tick (R325). -/
def resetBlock (h : Hdr) (ty i : Nat) (s : State) : State :=
  runAtTick h 0x72 (fun s =>
    match blockReset ty i s with
    | some f => if i < instCount ty then reply h 0x72 stOk [] (f s) else reply h 0x72 stRefused [] s
    | none => reply h 0x72 stRefused [] s) s

/-- RESET_BLOCK (R325). -/
def execResetBlock (h : Hdr) (blockType inst : BitVec 16) (s : State) : Host.Outcome State Fault Refusal :=
  .next (resetBlock h blockType.toNat inst.toNat s)

end Sys2Proof.Machine
end

