-- ==== Sys2Proof/Machine/SptPort.lean ====
section
/-! DEFINITION. SPT, the serial target (17 R385 to R387), one frame at a time. Frames are performed as they end, so no
frame finds one still being performed. -/
namespace Sys2Proof.Machine

def modSpt (f : Spt → Spt) (s : State) : State := { s with spt := f s.spt }

def sptAddr (cmd : Word) : Nat := bits cmd.toNat 25 0
/-- Words of the command, 1 to 16. -/
def sptCount (cmd : Word) : Nat := bits cmd.toNat 29 26 + 1

/-- The target is served: the main die runs, and a frame whose command is bad is discarded and counted (R386, R387). -/
def sptFrame (cmd : Word) (f : State → State) (s : State) : State :=
  if !s.dev.released then s
  else if sptAddr cmd % 4 ≠ 0 then modSpt (fun p => { p with badcmd := satInc p.badcmd }) s
  else f s

/-- A WRITE frame ends: its complete data words are written, and a partial word is counted (R386, R387). -/
def sptWrite (cmd : Word) (data : List Word) (partialWord : Bool) : State → State :=
  sptFrame cmd fun s =>
    let n := sptCount cmd
    let cut := partialWord && decide (data.length < n)
    let s := writeWords (sptAddr cmd) (data.take n) s
    if cut then modSpt (fun p => { p with framing := satInc p.framing }) s else s

/-- Read words for a READ frame: whether one of them was a miss. -/
def sptReadWords : Nat → Nat → State → List Word × Bool × State
  | 0, _, s => ([], false, s)
  | n + 1, a, s =>
    let (w, m, s) := bar0Read a s
    let (l, k, s) := sptReadWords n (a + 4) s
    (w :: l, m || k, s)

/-- A READ frame fills the buffer (R386). -/
def sptRead (cmd : Word) : State → State :=
  sptFrame cmd fun s =>
    let (l, miss, s) := sptReadWords (sptCount cmd) (sptAddr cmd) s
    modSpt (fun p => { p with buffer := l, miss, done := true, words := BitVec.ofNat 5 (sptCount cmd) }) s

/-- The status word of FETCH (R386). -/
def sptStatus (p : Spt) : Word :=
  fields [(p.words.toNat, 0), (p.done.toNat, 8), (p.miss.toNat, 9), (0x5A, 24)]

/-- A FETCH frame: the status word and N + 1 words of the buffer, zeros while DONE is 0 and past its end (R386). -/
def sptFetch (cmd : Word) : State → State :=
  sptFrame cmd fun s =>
    let l := (List.range (sptCount cmd)).map fun i => if s.spt.done then s.spt.buffer.getD i 0 else 0
    emit (.sptWords (sptStatus s.spt :: l)) s

/-- A frame is discarded: a bad command, or none at all (R386, R387). -/
def sptBad (cmd : Option Word) (s : State) : State :=
  if !s.dev.released then s
  else match cmd with
  | none => modSpt (fun p => { p with framing := satInc p.framing }) s
  | some w =>
    if bits w.toNat 31 30 = 3 || sptAddr w % 4 ≠ 0 then modSpt (fun p => { p with badcmd := satInc p.badcmd }) s else s

/-- SPT_WRITE (R386, R387). -/
def execSptWrite (cmd : Word) (data : List Word) (partialWord : Bool) (s : State) : Host.Outcome State Fault Refusal :=
  .next (sptWrite cmd data partialWord s)

/-- SPT_READ (R386). -/
def execSptRead (cmd : Word) (s : State) : Host.Outcome State Fault Refusal := .next (sptRead cmd s)

/-- SPT_FETCH (R386). -/
def execSptFetch (cmd : Word) (s : State) : Host.Outcome State Fault Refusal := .next (sptFetch cmd s)

/-- SPT_BAD_FRAME (R386, R387). -/
def execSptBadFrame (cmd : Option Word) (s : State) : Host.Outcome State Fault Refusal := .next (sptBad cmd s)

end Sys2Proof.Machine
end

