-- ==== Sys2Proof/Machine/Commands.lean ====
section
/-! DEFINITION. A packet of the timed queue as the command it spells (13 R314 to R325; 11 R274 to R278; 18 R406), run at
its tick. -/
namespace Sys2Proof.Machine

/-- Run a queued command with its parameter words (R55, R56). Its opcode and parameters were checked on arrival. -/
def runQueued (q : Queued) (s : State) : State :=
  let h := q.hdr
  let p := q.params
  let w (j : Nat) : Word := p.getD j 0
  let d (j : Nat) : BitVec 64 := pair64 (w j) (w (j + 1))
  let b (j hi lo : Nat) : Nat := bits (w j).toNat hi lo
  match q.opcode.toNat with
  | 0x00 => nop h s
  | 0x01 => readRegs h (w 0).toNat (w 1).toNat s
  | 0x02 => writeRegs h (w 0).toNat p.tail s
  | 0x03 => readMap h (w 0).toNat (w 1).toNat s
  | 0x04 => setTime h (d 0) s
  | 0x10 => writeCfg h (w 0) p.tail s
  | 0x11 => commitShadow h (w 0) (w 1) s
  | 0x12 => swapConfig h s
  | 0x13 => cfgStatus h s
  | 0x20 => startCmd h s
  | 0x21 => stopCmd h s
  | 0x22 => tableLoad h (w 0) (d 1) p[4]? s
  | 0x23 => tableSave h (w 0) (d 1) ((w 3).getLsbD 0) s
  | 0x24 => replayCmd h (d 0) (d 2) (d 4) (w 6) ((w 7).getLsbD 0) s
  | 0x25 => runAtTick h 0x25 (holdFreeze h (w 0)) s
  | 0x26 => runAtTick h 0x26 (holdRelease h ((w 0).getLsbD 0)) s
  | 0x30 => shutterCal h (d 0) s
  | 0x31 => shutterMove h (d 0) ((w 2).getLsbD 0) s
  | 0x32 => hkSelfcal h s
  | 0x33 => dacLincal h (b 0 5 0) ((w 0).getLsbD 8) ((w 0).getLsbD 9) s
  | 0x34 => blendSet h (d 0) (w 2) s
  | 0x40 => memTrain h (BitVec.ofNat 2 (b 0 1 0)) (BitVec.ofNat 8 (b 0 15 8)) (BitVec.ofNat 7 (b 0 22 16)) (w 1) (w 2) s
  | 0x41 => memDiag h (BitVec.ofNat 2 (b 0 1 0)) (BitVec.ofNat 2 (b 0 3 2)) ((w 0).getLsbD 4)
      (BitVec.ofNat 8 (b 0 15 8)) (BitVec.ofNat 8 (b 0 23 16)) (d 1) (d 3) (w 5) s
  | 0x42 => memResume h ((w 0).getLsbD 0) s
  | 0x50 => readKeep h (w 0).toNat (w 1).toNat s
  | 0x51 => writeKeep h (w 0).toNat (w 1).toNat (p.drop 2) s
  | 0x52 => appendKeep h (b 0 7 0) p.tail s
  | 0x53 => ringReadKeep h (b 0 7 0) (w 1).toNat s
  | 0x54 => protectKeep h (BitVec.ofNat 2 (b 0 1 0)) s
  | 0x55 => scrubKeep h s
  | 0x60 => joinCmd h ((w 0).getLsbD 0) s
  | 0x61 => statusCmd h s
  | 0x62 => assignCmd h (BitVec.ofNat 12 (b 0 11 0)) ((w 0).getLsbD 12) s
  | 0x70 => errAck h (BitVec.ofNat 3 (b 0 2 0)) s
  | 0x71 => powerState h ((w 0).getLsbD 0) s
  | 0x72 => resetBlock h (b 0 15 0) (b 0 31 16) s
  | _ => reply h q.opcode.toNat stBadOpcode [] s

/-- The commands due at the tick that has just fallen, in acceptance order (R55, R56). -/
def dueCommands (s : State) : List Queued := s.tick.queue.filter fun q => q.hdr.sfn = s.tick.sfn

/-- The queued commands of the tick leave the queue and run. -/
def runDue (s : State) : State :=
  let l := dueCommands s
  modTick (fun t => { t with accNow := none })
    (forEach l (fun q s => runQueued q (modTick (fun t => { t with accNow := some q.acc }) s))
      (modTick (fun t => { t with queue := t.queue.filter fun q => q.hdr.sfn ≠ t.sfn }) s))

end Sys2Proof.Machine
end

