-- ==== Sys2Proof/Machine/Flags.lean ====
section
/-! DEFINITION. FRAME_FLAGS of a frame (12 R295; 02 R57, R68): the bits that the tick fixes for every output of the frame.
The bits of one stream (TRUNC, DROPPED, HOLD_FIRST, HOLD_LAST, OVERRUN) are added where its header is formed. -/
namespace Sys2Proof.Machine

/-- The flags of the frame that starts now, from the events of the period before it (R57), the sync state and the message that
placed its tick (R359). In replay
they are those of the side record, with REPLAY (R67, R295). -/
def frameFlags (s : State) (late missed skipped : Bool) : BitVec 32 :=
  let live : BitVec 32 := fields [(late.toNat, 0), (missed.toNat, 1), (skipped.toNat, 2),
    ((decide (s.sync.state = .holdover) || s.sync.placedHoldover).toNat, 3), ((s.sync.slipFrames.contains s.tick.sfn).toNat, 4)]
  match sideOf s with
  | some l => setBit (if sideGood l then word (sideU32 l 0x14) else live) 5
  | none => live

end Sys2Proof.Machine
end

