-- ==== Sys2Proof/Machine/Tick.lean ====
section
/-! DEFINITION. The frame tick (02 R33 to R40, R48 to R61; 19 R414, R416): the end of the old period, what the tick decides
before its commands, the commands, and the start of the new period in every stage. -/
namespace Sys2Proof.Machine

/-! ### The end of a period (R37, R48 to R51) -/

/-- What the engine did in its period goes to its registers (R216): all-ones if a slot of it was abandoned. -/
def latchEngine (s : State) (e : Nat) (x : Eng) : Eng :=
  let bad : Bool := match engineSet s with
    | some b => (Bank.engSlots b e).any fun i => s.eng.fates.any fun p => p.1 = i && p.2 ≠ .finished
    | none => false
  { x with finishNs := if bad then 0xFFFFFFFF#32 else satNat 32 x.finishNow, dmaBytes := BitVec.ofNat 64 x.dmaNow }

def latchEngines (s : State) : State :=
  if s.eng.active then forEach (List.range 96) (fun e s => modEng e (latchEngine s e) s) s else s

/-- Stages that overran: the lowest tile, engine and stream of the period (R51). -/
def laneOverran (s : State) : Option Nat := (List.range 64).find? fun t => (tileOf s t).lane.work.overrun
def engOverran (s : State) : Option Nat := (List.range 96).find? fun e => (engOf s e).abandonedNow
def dmaOverran (s : State) : Option Nat := (List.range 32).find? fun m => (streamOpen s m).isSome

/-- One error and one count per stage per frame; TICK_OVR_LAST takes the SFN that the outputs of the frame carry (R51,
R68, R70). -/
def countOverruns (lane eng dma : Option Nat) (s : State) : State :=
  let last := if lane.isSome then some (word (outSfn s)) else if eng.isSome then frameSfn s 1 else
    dma.bind fun m => (streamOpen s m).map fun x => x.2.2
  let err (code : Nat) (x : Option Nat) : List ErrRec := match x with | some u => [mkErr 1 code u 0 0] | none => []
  let cnt (x : Option Nat) (c : BitVec 32) : BitVec 32 := if x.isSome then satInc c else c
  raiseErrs (err 0x10 lane ++ err 0x11 eng ++ err 0x12 dma) (modTick (fun t => { t with
    ovrLane := cnt lane t.ovrLane, ovrEng := cnt eng t.ovrEng, ovrDma := cnt dma t.ovrDma,
    overrunSeen := t.overrunSeen || lane.isSome || eng.isSome || dma.isSome, ovrLast := last.getD t.ovrLast }) s)

/-- The onsets of the frame that a tile has completed (R100, R116, R135). -/
def onsets (s : State) (t : Nat) : List ErrRec :=
  let x := tileOf s t
  let w := x.lane.work
  let los := w.mode ≠ .idle && x.port.los && !x.port.prevLos
  let sat := w.mode = .read && x.lane.status.getLsbD 3 && !(x.lane.prevRead && x.lane.prevSat)
  let blind := w.mode = .read && w.blindFail && !(x.lane.prevRead && x.lane.prevBlind)
  (if los then [mkErr 1 0x15 t x.port.losCause.toNat 0] else [])
    ++ (if blind then [mkErr 1 0x16 t 0 0] else [])
    ++ (if sat then [mkErr 1 0x17 t 0 (word x.rdo.rsat.toNat)] else [])

/-- The work that a period still owes is cut off and its results are kept (R38, R48 to R51, R146, R214, R238). -/
def endPeriod (s : State) : State :=
  let s := forEach (List.range 64) laneCut s
  let s := stopEngines (laneSavesEnd s)
  let s := latchEngines s
  let dma := if s.err.freezeNext = 0 then dmaOverran s else none
  let lane := laneOverran s
  let eng := engOverran s
  let s := countOverruns lane eng dma s
  let s := if s.err.freezeNext = 0 then forEach (List.range 32) overrunStream s else s
  raiseErrs ((List.range 64).flatMap (onsets s)) (holdFrameEnd s)

/-! ### The tick (R34, R37 to R39, R60) -/

/-- The per-frame state of a tile starts from empty (R38), what its last frame left going to the history of R142, R143,
R149 and R476. -/
def turnTile (t : Nat) (s : State) : State :=
  modTile t (fun x =>
    let w := x.lane.work
    let active := decide (w.mode ≠ .idle)
    { x with
      port := { x.port with
        prevLos := active && x.port.los, activeRows := 0, transitions := 0, rows := 0, rstRun := 0, checkDone := false,
        kpTicks := if x.port.state = .prepare then x.port.kpTicks + 1 else x.port.kpTicks,
        sinceMismatch := x.port.sinceMismatch.map (· + 1),
        masked := x.port.masked && !x.port.unmaskNext,
        wholeRun := if x.port.unmaskNext || w.mode ≠ .read || s.tick.replaying then 0 else x.port.wholeRun,
        unmaskNext := false, causeNow := 0, retryDue := x.port.retryDue ++ x.port.retryLater, retryLater := [],
        hostWin := false },
      lane := { x.lane with
        work := LaneWork.reset, statusPipe := x.lane.status :: x.lane.statusPipe.take 1,
        prevRead := decide (w.mode = .read), prevSat := x.lane.status.getLsbD 3, prevBlind := w.blindFail,
        prevHeld := w.held, prevSameSet := active } }) s

/-- Every stage moves on by one frame (R37, R38): the frames in the machine, their marks, the tables' bases, the ticks of
the set and its lock (R59). -/
def turnPeriod (s : State) : State :=
  let s := modTick (fun t => { t with
    frames := none :: t.frames.take 2, dmaOvrTiles := t.engOvrTiles, engOvrTiles := 0, crossLanes := 0 }) s
  let s := endLock (modCfg (fun c => { c with n := c.n + 1 }) s)
  let s := forEach (List.range 64) (fun t s => settleLane t (turnTile t s)) (settleDbufs s)
  let s := forEach (List.range 4) (fun q => modQuad q fun x => { x with measured := false, supplyBad := false }) s
  let s := modMemc (fun m => { m with reqs := m.reqs.filter fun q => 9 ≤ q.req.port.val, undo := [] }) s
  modHost (fun h => { h with streams := h.streams.map fun x => { x with doneNow := false, hush := x.hush - 1 } }) s

/-- The flat-field units decide from the frame just finished (R157). -/
def decideCal (t : Nat) (s : State) : State :=
  if (tileOf s t).cal.frameDone then
    let (s, es) := applyMove t (calMove s t) s
    raiseErrs es s
  else s

/-- A port's transition of the tick: while FROZEN, a transition to FAULT or to PREPARE stays due (R416). -/
def turnPort (t : Nat) (s : State) : State :=
  let p := (tileOf s t).port
  if s.dev.power = .frozen && (p.faultNext || p.reprepNext) then s else portChange t (portTick t) s

/-- What the tick decides before its commands (R39, R77, R126, R157, R188, R239, R373, R375). A port leaves IMAGING before
the flat-field unit decides from the frame just finished: DESIGN CHOICE, log entry 141. -/
def decideTick (s : State) : State :=
  let s := replayMoves (replayTick s)
  let s := hkTick s
  let ts := List.range 64
  let s := forEach ts (fun t s => modCal t (fun c => { c with faultHeld := driveFault s t }) s) s
  let s := forEach ts (fun t s => coilTick t (latchBlanking t s)) s
  let s := forEach ts turnPort s
  holdFreezeDue (forEach ts decideCal s)

/-! ### The new period -/

/-- An engine starts its period empty, its local memory undefined (R38, R200). -/
def turnEngine (epoch : Nat) (x : Eng) : Eng :=
  { x with running := none, stopped := false, opsEnded := false, produced := [], finishNow := 0, dmaNow := 0,
           abandonedNow := false, ovfNow := false, lmem := [], lmemEpoch := epoch, pass := 0, op := 0 }

/-- The engines take the frame read in the period before, the regulators fill their credits, the line counts of the
period are shown, and vector 4 is sent at every TICK_IRQ_DIV-th tick (R37, R200, R256, R265, R300). -/
def startStages (s : State) : State :=
  let free := s.free
  let s := bumpFree { s with eng := { active := (frameSfn s 1).isSome, fates := [], events := [] },
                             engs := s.engs.map (turnEngine free) }
  let s := pumpHost <| fillCredits (modMemc (fun m => { m with
    ports := m.ports.map fun p => { p with lines := p.linesNow, linesNow := 0 }, perSince := m.perSince + 1 }) s)
  let d := s.host.tickIrqDiv.toNat
  if d ≠ 0 && s.tick.sfn.toNat % d = 0 then sendVector 4 s else s

/-- The frame of the period begins under the flags that its outputs carry, and under P of R33; a period written to
TICK_PARK_PERIOD at this tick counts from the next one. -/
def startFrame (park : Word) (late missed skipped : Bool) (s : State) : State :=
  let s := modTick (fun t => { t with flags := frameFlags s late missed skipped :: t.flags.take 2 }) s
  let s := beginFrame s
  let p := if s.dev.power = .imaging then word (setPeriod s) else park
  modTick (fun t => { t with period := p, stamps := (s.clock.devTime, p) :: t.stamps.take 2 }) s

/-- The tick: the old period ends, the SFN goes on, FROZEN and PARKED are entered when due, the tick decides and its errors
are raised in the order of R414, the commands run, and the new period starts. -/
def tickStep (s : State) : State :=
  if !s.tick.running then s
  else
    let was := s.dev.power
    let park := s.tick.parkPeriod
    let (late, missed, skipped) := (s.tick.lateNext, s.tick.missedNext, s.tick.skippedNext)
    let s := openBatch (modTick (fun t => { t with lateNext := false, missedNext := false, skippedNext := false }) s)
    let s := endPeriod s
    let s := syncTick { s with clock := { s.clock with lastTick := s.clock.now } }
    let s := turnPeriod (parkTick (enterFrozen s))
    let s := runDue (releaseBatch (decideTick s))
    noteEntry was (hkTickOver (startStages (startFrame park late missed skipped s)))

/-! ### The commands and events -/

/-- TICK (R34). -/
def execTick (s : State) : Host.Outcome State Fault Refusal := .next (tickStep s)

/-- P that the next period will have, if the tick fell now. -/
def nextPeriod (s : State) : Word := (tickStep s).tick.period

/-- TICK_MESSAGE (15 R348, R351, R356). -/
def execTickMessage (a : Int) (line : LineCheck) (sfn : Sfn) (lead period : Word) (depth : Byte) (holdover : Bool)
    (s : State) : Host.Outcome State Fault Refusal :=
  .next (lineOk line (tickPayload sfn.toNat lead.toNat period.toNat depth.toNat holdover) (judgeTick (nextPeriod s) a sfn lead period depth holdover) s)

/-- TICK_MESSAGE_SEND (15 R349, R352). -/
def execTickMessageSend (s : State) : Host.Outcome State Fault Refusal := .next (sendOwnTick (nextPeriod s) s)

end Sys2Proof.Machine
end

