-- ==== Sys2Proof/Machine/Dispatch.lean ====
section
/-! DEFINITION. One arm per command: each is one direct call of its meaning. -/
namespace Sys2Proof.Machine


/-- The effect of a command on everything but the queue. -/
def exec (i : Instr) (s : State) : Host.Outcome State Fault Refusal :=
  match i with
  | .tick => Sys2Proof.Machine.execTick s
  | .engineStopPoint => Sys2Proof.Machine.execEngineStopPoint s
  | .quietWindowOpen => Sys2Proof.Machine.execQuietWindowOpen s
  | .quietWindowClose => Sys2Proof.Machine.execQuietWindowClose s
  | .replayEnd => Sys2Proof.Machine.execReplayEnd s
  | .shadowLockEnd => Sys2Proof.Machine.execShadowLockEnd s
  | .packetArrival path words => Sys2Proof.Machine.execPacketArrival path words s
  | .caravanFetch => Sys2Proof.Machine.execCaravanFetch s
  | .caravanFetchDone ok words => Sys2Proof.Machine.execCaravanFetchDone ok words s
  | .replyPost => Sys2Proof.Machine.execReplyPost s
  | .msiXMessage vector => Sys2Proof.Machine.execMsiXMessage vector s
  | .enableSet => Sys2Proof.Machine.execEnableSet s
  | .enableClear => Sys2Proof.Machine.execEnableClear s
  | .cmdqTailWrite v => Sys2Proof.Machine.execCmdqTailWrite v s
  | .cmdqRplConsWrite v => Sys2Proof.Machine.execCmdqRplConsWrite v s
  | .mboxGo mgmt => Sys2Proof.Machine.execMboxGo mgmt s
  | .mboxNext mgmt => Sys2Proof.Machine.execMboxNext mgmt s
  | .nop h => Sys2Proof.Machine.execNop h s
  | .readRegs h addr count => Sys2Proof.Machine.execReadRegs h addr count s
  | .writeRegs h addr vals => Sys2Proof.Machine.execWriteRegs h addr vals s
  | .readMap h ofs count => Sys2Proof.Machine.execReadMap h ofs count s
  | .setTime h v => Sys2Proof.Machine.execSetTime h v s
  | .writeCfg h ofs vals => Sys2Proof.Machine.execWriteCfg h ofs vals s
  | .commitShadow h bytes crc => Sys2Proof.Machine.execCommitShadow h bytes crc s
  | .commitChecksEnd parity => Sys2Proof.Machine.execCommitChecksEnd parity s
  | .swapConfig h => Sys2Proof.Machine.execSwapConfig h s
  | .cfgStatus h => Sys2Proof.Machine.execCfgStatus h s
  | .start h => Sys2Proof.Machine.execStart h s
  | .stop h => Sys2Proof.Machine.execStop h s
  | .tableLoad h table base crc => Sys2Proof.Machine.execTableLoad h table base crc s
  | .tableLoadCheckEnd hits => Sys2Proof.Machine.execTableLoadCheckEnd s hits
  | .tableSave h table dest withCrc => Sys2Proof.Machine.execTableSave h table dest withCrc s
  | .tableSaveCopyEnd table hits => Sys2Proof.Machine.execTableSaveCopyEnd table s hits
  | .replay h rawBase rawStride sideBase n loop => Sys2Proof.Machine.execReplay h rawBase rawStride sideBase n loop s
  | .holdFreeze h post => Sys2Proof.Machine.execHoldFreeze h post s
  | .holdFrozen => Sys2Proof.Machine.execHoldFrozen s
  | .holdRelease h force => Sys2Proof.Machine.execHoldRelease h force s
  | .shutterCal h mask => Sys2Proof.Machine.execShutterCal h mask s
  | .shutterMove h mask close => Sys2Proof.Machine.execShutterMove h mask close s
  | .hkSelfcal h => Sys2Proof.Machine.execHkSelfcal h s
  | .dacLincal h tile tapA tapB => Sys2Proof.Machine.execDacLincal h tile tapA tapB s
  | .blendSet h mask k => Sys2Proof.Machine.execBlendSet h mask k s
  | .memTrain h mode mask eyeMin mts period => Sys2Proof.Machine.execMemTrain h mode mask eyeMin mts period s
  | .memTrainEnd first second later => Sys2Proof.Machine.execMemTrainEnd first second later s
  | .memDiag h mode pattern invertAlt passes mask start length seed => Sys2Proof.Machine.execMemDiag h mode pattern invertAlt passes mask start length seed s
  | .memDiagEnd failed hits => Sys2Proof.Machine.execMemDiagEnd failed hits s
  | .memResume h mode => Sys2Proof.Machine.execMemResume h mode s
  | .keepRead h addr bytes => Sys2Proof.Machine.execKeepRead h addr bytes s
  | .keepWrite h addr bytes data => Sys2Proof.Machine.execKeepWrite h addr bytes data s
  | .keepRingAppend h ring payload => Sys2Proof.Machine.execKeepRingAppend h ring payload s
  | .keepRingRead h ring age => Sys2Proof.Machine.execKeepRingRead h ring age s
  | .keepProtect h bp => Sys2Proof.Machine.execKeepProtect h bp s
  | .keepScrub h => Sys2Proof.Machine.execKeepScrub h s
  | .keepScrubEnd => Sys2Proof.Machine.execKeepScrubEnd s
  | .keepPageWriteStart vkeep => Sys2Proof.Machine.execKeepPageWriteStart vkeep s
  | .keepPageWriteEnd => Sys2Proof.Machine.execKeepPageWriteEnd s
  | .keepVkeepRetry vkeep => Sys2Proof.Machine.execKeepVkeepRetry vkeep s
  | .keepSettlement => Sys2Proof.Machine.execKeepSettlement s
  | .keepRingIndexBuilt => Sys2Proof.Machine.execKeepRingIndexBuilt s
  | .counterAppendTimer => Sys2Proof.Machine.execCounterAppendTimer s
  | .syncJoin h follow => Sys2Proof.Machine.execSyncJoin h follow s
  | .syncStatus h => Sys2Proof.Machine.execSyncStatus h s
  | .syncAssignId h id tree => Sys2Proof.Machine.execSyncAssignId h id tree s
  | .errAck h classes => Sys2Proof.Machine.execErrAck h classes s
  | .powerState h low => Sys2Proof.Machine.execPowerState h low s
  | .lowReached => Sys2Proof.Machine.execLowReached s
  | .lowExitDone => Sys2Proof.Machine.execLowExitDone s
  | .resetBlock h blockType inst => Sys2Proof.Machine.execResetBlock h blockType inst s
  | .registerWrite addr v be => Sys2Proof.Machine.execRegisterWrite addr v be s
  | .bar0UnimplementedAccess addr write be => Sys2Proof.Machine.execBar0UnimplementedAccess addr write s be
  | .shadowWindowWrite ofs v be => Sys2Proof.Machine.execShadowWindowWrite ofs v be s
  | .tickParkPeriodWrite v => Sys2Proof.Machine.execTickParkPeriodWrite v s
  | .memcHashWrite idx v => Sys2Proof.Machine.execMemcHashWrite idx v s
  | .errCapValidWrite cls => Sys2Proof.Machine.execErrCapValidWrite cls s
  | .hostStrConsWrite m v => Sys2Proof.Machine.execHostStrConsWrite m v s
  | .hostStrConsCurWrite m hi v => Sys2Proof.Machine.execHostStrConsCurWrite m hi v s
  | .bar2Access d write len hits => Sys2Proof.Machine.execBar2Access d write len hits s
  | .firmwareWindowWrite ofs v => Sys2Proof.Machine.execFirmwareWindowWrite ofs v s
  | .fwGo => Sys2Proof.Machine.execFwGo s
  | .configSpaceWrite w => Sys2Proof.Machine.execConfigSpaceWrite w s
  | .linkUp speed width => Sys2Proof.Machine.execLinkUp speed width s
  | .linkDown => Sys2Proof.Machine.execLinkDown s
  | .hotReset => Sys2Proof.Machine.execHotReset s
  | .linkDisable => Sys2Proof.Machine.execLinkDisable s
  | .functionLevelReset => Sys2Proof.Machine.execFunctionLevelReset s
  | .flrComplete => Sys2Proof.Machine.execFlrComplete s
  | .linkChange speed width => Sys2Proof.Machine.execLinkChange speed width s
  | .deliveryStart m => Sys2Proof.Machine.execDeliveryStart m s
  | .deliveryEnd m hits => Sys2Proof.Machine.execDeliveryEnd m s hits
  | .holdPart hits => Sys2Proof.Machine.execHoldPart s hits
  | .memAccessIssue arrivals hits => Sys2Proof.Machine.execMemAccessIssue arrivals hits s
  | .dramCaparError ch => Sys2Proof.Machine.execDramCaparError ch s
  | .refreshDue ch sc rk => Sys2Proof.Machine.execRefreshDue ch sc rk s
  | .refreshIssue ch sc rk busy busyRt => Sys2Proof.Machine.execRefreshIssue ch sc rk busy busyRt s
  | .dramTempRead ch range trefipb => Sys2Proof.Machine.execDramTempRead ch range trefipb s
  | .incrSweepStart ch => Sys2Proof.Machine.execIncrSweepStart ch s
  | .incrSweepEnd ch rd wr => Sys2Proof.Machine.execIncrSweepEnd ch rd wr s
  | .pllUnlock q => Sys2Proof.Machine.execPllUnlock q s
  | .crossing stage => Sys2Proof.Machine.execCrossing stage s
  | .vddaMeasure mv => Sys2Proof.Machine.execVddaMeasure mv s
  | .qtempMeasure t => Sys2Proof.Machine.execQtempMeasure t s
  | .brefRampEnd t => Sys2Proof.Machine.execBrefRampEnd t s
  | .brefRampDownEnd t => Sys2Proof.Machine.execBrefRampDownEnd t s
  | .tcfgTransactionStart t lineLow => Sys2Proof.Machine.execTcfgTransactionStart t lineLow s
  | .tcfgTransactionEnd t answer => Sys2Proof.Machine.execTcfgTransactionEnd t answer s
  | .prepareEnd t => Sys2Proof.Machine.execPrepareEnd t s
  | .prepTimeout t => Sys2Proof.Machine.execPrepTimeout t s
  | .tcfgHostGo t addr => Sys2Proof.Machine.execTcfgHostGo t addr s
  | .unmask t => Sys2Proof.Machine.execUnmask t s
  | .cbOvc t => Sys2Proof.Machine.execCbOvc t s
  | .brefFault t => Sys2Proof.Machine.execBrefFault t s
  | .laneRow t codesA codesB rstA rstB tstat late bufferFull hits => Sys2Proof.Machine.execLaneRow t codesA codesB rstA rstB tstat late bufferFull s hits
  | .laneFrameEnd t hits => Sys2Proof.Machine.execLaneFrameEnd t s hits
  | .laneDeadline t => Sys2Proof.Machine.execLaneDeadline t s
  | .blankingWorkEnd t refLA refHA refLB refHB thermistor points => Sys2Proof.Machine.execBlankingWorkEnd t refLA refHA refLB refHB thermistor points s
  | .calDue t => Sys2Proof.Machine.execCalDue t s
  | .abandonHoldoffEnd t => Sys2Proof.Machine.execAbandonHoldoffEnd t s
  | .calStart t => Sys2Proof.Machine.execCalStart t s
  | .closeUnconfirmed t => Sys2Proof.Machine.execCloseUnconfirmed t s
  | .accumEnd t => Sys2Proof.Machine.execAccumEnd t s
  | .computeEnd t => Sys2Proof.Machine.execComputeEnd t s
  | .openUnconfirmed t => Sys2Proof.Machine.execOpenUnconfirmed t s
  | .traverseEnd t => Sys2Proof.Machine.execTraverseEnd t s
  | .senseSample codes => Sys2Proof.Machine.execSenseSample codes s
  | .pullinStart t => Sys2Proof.Machine.execPullinStart t s
  | .pullinEnd t => Sys2Proof.Machine.execPullinEnd t s
  | .openCoil t => Sys2Proof.Machine.execOpenCoil t s
  | .noMove t => Sys2Proof.Machine.execNoMove t s
  | .releaseEnd t => Sys2Proof.Machine.execReleaseEnd t s
  | .gapEnd t => Sys2Proof.Machine.execGapEnd t s
  | .shutFaultClr hi mask => Sys2Proof.Machine.execShutFaultClr hi mask s
  | .slotStart e => Sys2Proof.Machine.execSlotStart e s
  | .operatorEnd e check hits => Sys2Proof.Machine.execOperatorEnd e check s hits
  | .slotEnd e => Sys2Proof.Machine.execSlotEnd e s
  | .hkEntryDelayEnd c => Sys2Proof.Machine.execHkEntryDelayEnd c s
  | .hkEntryEnd c codes => Sys2Proof.Machine.execHkEntryEnd c codes s
  | .hkInjectedEnd c codes => Sys2Proof.Machine.execHkInjectedEnd c codes s
  | .hkPassEnd => Sys2Proof.Machine.execHkPassEnd s
  | .trig => Sys2Proof.Machine.execTrig s
  | .selfcal => Sys2Proof.Machine.execSelfcal s
  | .hkSelfcalStart => Sys2Proof.Machine.execHkSelfcalStart s
  | .hkSelfcalEnd sl0 sh0 sl1 sh1 => Sys2Proof.Machine.execHkSelfcalEnd sl0 sh0 sl1 sh1 s
  | .syncRxUp port => Sys2Proof.Machine.execSyncRxUp port s
  | .syncRxDown port => Sys2Proof.Machine.execSyncRxDown port s
  | .tickMessageSend => Sys2Proof.Machine.execTickMessageSend s
  | .tickMessage a line sfn lead period depth holdover => Sys2Proof.Machine.execTickMessage a line sfn lead period depth holdover s
  | .missedTick => Sys2Proof.Machine.execMissedTick s
  | .dlyReqSend t => Sys2Proof.Machine.execDlyReqSend t s
  | .dlyReq port seq turn => Sys2Proof.Machine.execDlyReq port seq turn s
  | .dlyRsp t line seq turn => Sys2Proof.Machine.execDlyRsp t line seq turn s
  | .idSet line id tree => Sys2Proof.Machine.execIdSet line id tree s
  | .idDone port count truncated => Sys2Proof.Machine.execIdDone port count truncated s
  | .assignTimeout => Sys2Proof.Machine.execAssignTimeout s
  | .spcGo sel hold count => Sys2Proof.Machine.execSpcGo sel hold count s
  | .spcAbort => Sys2Proof.Machine.execSpcAbort s
  | .spcPop => Sys2Proof.Machine.execSpcPop s
  | .spcTxdataWrite v => Sys2Proof.Machine.execSpcTxdataWrite v s
  | .spcWordEnd rx => Sys2Proof.Machine.execSpcWordEnd rx s
  | .spcResume => Sys2Proof.Machine.execSpcResume s
  | .sptWrite cmd data partialWord => Sys2Proof.Machine.execSptWrite cmd data partialWord s
  | .sptRead cmd => Sys2Proof.Machine.execSptRead cmd s
  | .sptFetch cmd => Sys2Proof.Machine.execSptFetch cmd s
  | .perstAssert => Sys2Proof.Machine.execPerstAssert s
  | .resetNAssert => Sys2Proof.Machine.execResetNAssert s
  | .brownout => Sys2Proof.Machine.execBrownout s
  | .supplyLoss cut => Sys2Proof.Machine.execSupplyLoss cut s
  | .resetRelease bootsel => Sys2Proof.Machine.execResetRelease bootsel s
  | .firmwareCheckEnd header keyOk sigOk => Sys2Proof.Machine.execFirmwareCheckEnd header keyOk sigOk s
  | .pllLock q => Sys2Proof.Machine.execPllLock q s
  | .cfgParityError ofs64 => Sys2Proof.Machine.execCfgParityError ofs64 s
  | .endpointReady => Sys2Proof.Machine.execEndpointReady s
  | .sptBadFrame cmd => Sys2Proof.Machine.execSptBadFrame cmd s

end Sys2Proof.Machine
end

