-- ==== Sys2Proof/Machine/Step.lean ====
section
/-! DEFINITION. One step: the command at the front of the queue, or one nanosecond of the tick domain when none waits. -/
namespace Sys2Proof.Machine

/-- Take the command at the front of the queue and run it on the state with the rest; on an empty queue the clock of the
tick domain goes on (DESIGN CHOICE, log entry 1). -/
def step (s : State) : Host.Outcome State Fault Refusal :=
  match s.pending with
  | [] => .next (clockTick s)
  | c :: r => exec c { s with pending := r }

/-- `s` with the command that a word spells at the front of its queue. -/
def State.withFetchWord (s : State) (nbits w : Nat) : State :=
  match decodeTableWord nbits w with
  | some c => { s with pending := c :: s.pending }
  | none => s

end Sys2Proof.Machine
end

