-- ==== Sys2Proof/Safety.lean ====
section
/-! DEFINITION. What holds of a state in every safe run, its sparse memories in canonical form; and a command counted as
executed, the words in which statements say so. -/
namespace Sys2Proof

open Sys2Proof.Machine

/-- A command that executes is counted before its own effect (13 R326). -/
def counted (s : State) : State := { s with cmdq := { s.cmdq with execCnt := satInc s.cmdq.execCnt } }

/-- Every sparse memory of the state is in canonical form. -/
def MemoriesWf (s : State) : Prop :=
  Memory.wf (dramDflt s) s.dram.cells = true ∧ Memory.wf zeroByte s.cfg.active = true ∧
  Memory.wf zeroByte s.cfg.shadow = true ∧ Memory.wf erasedByte s.keep.array = true ∧
  Memory.wf zeroByte s.dev.fwWindow = true

/-- Nothing holds up a stage's accesses: no quiet window is open, nothing is frozen, and no request waits (02 R45; 10 R251,
R261). -/
def MemoryIdle (s : State) : Prop := s.memc.quiet = false ∧ s.memc.frozen = false ∧ s.memc.reqs = []

/-- No word that is read holds an uncorrectable error (10 R246). -/
def Correctable (hits : List (Nat × EccHit)) : Prop := ∀ h ∈ hits, h.2.correctable = true

end Sys2Proof
end

