-- ==== Sys2Proof/Certificates/Slice0/Obligations.lean ====
section
/-! DEFINITION. The statements for the provers. Each docstring names the rules it comes from; a statement that rests on a
choice of the model says so. A statement on a command is its completion statement: its conclusion is the next state. -/

open Sys2Proof Sys2Proof.Machine

/-! ### The block as a whole -/

/-- With a command at the front of the queue a step is that command's effect on the state with the queue's rest. -/
def Obligations.StepRunsFrontCommand : Prop :=
  ∀ (c : Instr) (r : List Instr) (s : State), step { s with pending := c :: r } = exec c { s with pending := r }

/-- DESIGN CHOICE (log entry 1): a step on an empty queue is one nanosecond of the tick domain. Before the firmware
runs nothing changes; after, with no memory request waiting, DEV_TIME counts, every credit of the regulators gains its
rate within its burst, and nothing happens that a command of the table makes happen. -/
def Obligations.IdleStepCounts : Prop :=
  ∀ s : State, s.pending = [] →
    (s.tick.running = false → step s = .next s) ∧
    (s.tick.running = true → s.memc.reqs = [] → ∃ t, step s = .next t ∧ t.clock = { s.clock with
        now := s.clock.now + 1, devTime := s.clock.devTime + 1 } ∧ t.tick = s.tick ∧ t.cmdq = s.cmdq ∧ t.dram = s.dram ∧ t.cfg = s.cfg ∧
      t.tiles = s.tiles ∧ t.engs = s.engs ∧ t.out = s.out ∧ t.err = s.err ∧
      (∀ (b : Bank) (p : Fin 12), activeSet s = some b →
        t.memc.ports[p].credit = min (s.memc.ports[p].credit + Bank.u32 b (Bank.secOfs b 9 + 8 * p.val))
          (regBurst b p.val * 1000 : Nat)))

/-- Reset values that the register tables state (R70, R101, R171, R189, R216, R242, R265, R326, R340, R361, R388, R410,
R426, R443): the device is OFF in boot phase ROM, with no set and the shadow bank not locked; the SFN, LATE_CNT, EXEC_CNT
and REJ_EXEC are 0; no command, packet or write of the keeping store waits; the memory is neither trained nor frozen; the
device is a ROOT with every downstream port enabled; every port is OFF, every calibration IDLE, every coil OPEN, no engine
runs a slot or counts an abandoned one, the hold record is NONE, and no error is captured or counted. -/
def Obligations.ResetValues : Prop :=
  State.reset.pending = [] ∧ State.reset.dev.power = .off ∧ State.reset.dev.phase = .rom ∧
  State.reset.tick.sfn = 0 ∧ State.reset.tick.lateCnt = 0 ∧ State.reset.tick.queue = [] ∧
  State.reset.cmdq.enable = false ∧ State.reset.cmdq.execCnt = 0 ∧ State.reset.cmdq.rejExec = 0 ∧
  State.reset.cfg.hasActive = false ∧ State.reset.cfg.locked = false ∧ State.reset.memc.trained = false ∧
  State.reset.memc.frozen = false ∧ State.reset.sync.state = .root ∧ State.reset.sync.dnEn = 0xF ∧
  State.reset.keep.queue = [] ∧ State.reset.hold.state = .none ∧ State.reset.spc.busy = false ∧
  (∀ t : Fin 64, State.reset.tiles[t].port.state = .off ∧ State.reset.tiles[t].cal.phase = .idle ∧
    State.reset.shut.coils[t].state = .open) ∧
  (∀ e : Fin 96, State.reset.engs[e].running = none ∧ State.reset.engs[e].abandonCnt = 0) ∧
  (∀ c : Fin 3, State.reset.err.cls[c].valid = false ∧ State.reset.err.cls[c].total = 0)

/-- After reset every sparse memory of the state is in its canonical form. -/
def Obligations.ResetMemoriesCanonical : Prop :=
  MemoriesWf State.reset

/-- Every step keeps the keeping array in its canonical form: addresses strictly rising, no erased byte listed. -/
def Obligations.StepKeepsKeepingArrayCanonical : Prop :=
  ∀ s t : State, Memory.wf erasedByte s.keep.array = true → step s = .next t → Memory.wf erasedByte t.keep.array = true

/-- Every step keeps both configuration banks and the firmware load window in their canonical form. -/
def Obligations.StepKeepsBanksCanonical : Prop :=
  ∀ s t : State, Memory.wf zeroByte s.cfg.active = true → Memory.wf zeroByte s.cfg.shadow = true →
    Memory.wf zeroByte s.dev.fwWindow = true → step s = .next t →
    Memory.wf zeroByte t.cfg.active = true ∧ Memory.wf zeroByte t.cfg.shadow = true ∧
      Memory.wf zeroByte t.dev.fwWindow = true

/-- Every step keeps DRAM in its canonical form, whatever event has made its content undefined. -/
def Obligations.StepKeepsDramCanonical : Prop :=
  ∀ s t : State, Memory.wf (dramDflt s) s.dram.cells = true → step s = .next t →
    Memory.wf (dramDflt t) t.dram.cells = true

/-- R393, R398, R399: the keeping array changes only where a page write ends, where settlement finishes a journaled
page, and where the keeping die loses its supply within a page write; no other command or event changes a byte of it.
-/
def Obligations.KeepingArrayChangesOnlyByPages : Prop :=
  ∀ (c : Instr) (s t : State), c ≠ .keepPageWriteEnd → c ≠ .keepSettlement → (∀ k, c ≠ .supplyLoss k) →
    exec c s = .next t → t.keep.array = s.keep.array

/-- R58, R333, R436: no command or event changes the active bank but SWAP_CONFIG, at its own arm or out of the timed
queue at a tick, and a fundamental reset. -/
def Obligations.ActiveBankChangesOnlyBySwap : Prop :=
  ∀ (c : Instr) (s t : State), (∀ h, c ≠ .swapConfig h) → (c = .tick → ∀ q ∈ s.tick.queue, q.opcode ≠ 0x12) →
    c ≠ .perstAssert → c ≠ .resetNAssert → c ≠ .brownout → (∀ k, c ≠ .supplyLoss k) →
    exec c s = .next t → t.cfg.active = s.cfg.active

/-- A command changes neither the queue of the commands that wait behind it nor what the board and the part fix. -/
def Obligations.ExecKeepsQueueAndBoard : Prop :=
  ∀ (c : Instr) (s t : State), exec c s = .next t → t.pending = s.pending ∧ t.board = s.board

/-- Only MEM_ACCESS_ISSUE can stop the machine, and it stops exactly where an arriving request names a line at or
above the installed capacity, which R248 gives no DRAM byte (log entry 27); no command is refused. -/
def Obligations.OnlyOutsideLinesStop : Prop :=
  (∀ (l : List MemReq) (h : List EccHit) (s : State),
    ((∃ r ∈ l, capacity s ≤ 64 * r.line) → exec (.memAccessIssue l h) s = .fault .lineOutsideCapacity) ∧
    ((∀ r ∈ l, 64 * r.line < capacity s) → ∃ t, exec (.memAccessIssue l h) s = .next t)) ∧
  (∀ (c : Instr) (s : State), (∀ l h, c ≠ .memAccessIssue l h) → ∃ t, exec c s = .next t)

/-! ### The tick and the memory it paces -/

/-- R34, R59: once the firmware runs, a tick with no command due carries the next SFN, starts the period's time anew,
leaves the queued commands queued and both banks as they are, counts as a tick of the active set, and at the second
one unlocks the shadow bank; before, it does nothing. -/
def Obligations.TickCarriesNextSfn : Prop :=
  ∀ s : State,
    (s.tick.running = false → exec .tick s = .next s) ∧
    (s.tick.running = true → s.sync.adopt = none → (∀ q ∈ s.tick.queue, q.hdr.sfn ≠ sfnNext s.tick.sfn) →
      ∃ t, exec .tick s = .next t ∧ t.tick.sfn = sfnNext s.tick.sfn ∧
        t.clock = { s.clock with lastTick := s.clock.now } ∧ t.tick.queue = s.tick.queue ∧
        t.cfg.active = s.cfg.active ∧ t.cfg.shadow = s.cfg.shadow ∧ t.cfg.n = s.cfg.n + 1 ∧
        t.cfg.locked = (s.cfg.locked && decide (s.cfg.n = 0)))

/-- R44, R45: an instant in a quiet window of the active Piste opens it while the device images, and no port but DIAG is
served; the close, with no request waiting, ends it and changes nothing else. R253: outside self-refresh the debt of a
rank rises by 1 at each tREFIpb, and at 8 a refresh is forced and counted, which makes it 7; with no request waiting
and nothing frozen a refresh of a remaining bank that is not busy lowers a debt above 0 by 1, and with every remaining
bank busy none is issued. R266: outside self-refresh and a freeze a temperature reading shows its range and the
interval in force on its channel, and the other channels and DRAM stay. -/
def Obligations.WindowsAndRefresh : Prop :=
  ((∀ (s : State) (b : Bank) (w : Nat × Nat), activeSet s = some b → s.dev.power = .imaging →
     windowAt b (s.clock.now - s.clock.lastTick) = some w →
     ∃ t, exec .quietWindowOpen s = .next t ∧ t = { s with memc := { s.memc with
         quiet := true, quietOpenedAt := s.clock.lastTick + w.1, quietLen := w.2, sweptWindow := false } } ∧
       ∀ p, p ≠ 11 → portServed t p = false) ∧
   (∀ s : State, s.memc.reqs = [] →
     exec .quietWindowClose s = .next { s with memc := { s.memc with quiet := false } })) ∧
  (∀ (ch : Fin 8) (sc rk : Bool) (s : State), s.memc.selfRefresh = false →
     let d := vget (chOf s ch.val).debt (refIndex sc rk) 0
     (d < 7 → ∃ t, exec (.refreshDue ch sc rk) s = .next t ∧ t.memc = s.memc ∧ t.dram = s.dram ∧
       vget (chOf t ch.val).debt (refIndex sc rk) 0 = d + 1 ∧ (chOf t ch.val).forced = (chOf s ch.val).forced) ∧
     (7 ≤ d → ∃ t, exec (.refreshDue ch sc rk) s = .next t ∧ t.memc = { s.memc with forcedRef := true } ∧
       t.dram = s.dram ∧ vget (chOf t ch.val).debt (refIndex sc rk) 0 = 7 ∧
       (chOf t ch.val).forced = satInc (chOf s ch.val).forced) ∧
     (∀ busy busyRt : BitVec 16, s.memc.reqs = [] → s.memc.frozen = false →
       (1 ≤ d → remaining (chOf s ch.val) (refIndex sc rk) &&& ~~~(busy ||| busyRt) ≠ 0 →
         ∃ t, exec (.refreshIssue ch sc rk busy busyRt) s = .next t ∧ t.memc = s.memc ∧ t.dram = s.dram ∧
           vget (chOf t ch.val).debt (refIndex sc rk) 0 = d - 1) ∧
       (remaining (chOf s ch.val) (refIndex sc rk) &&& ~~~(busy ||| busyRt) = 0 →
         exec (.refreshIssue ch sc rk busy busyRt) s = .next s))) ∧
  (∀ (ch : Fin 8) (range : BitVec 4) (tref : BitVec 16) (s : State), s.memc.selfRefresh = false → s.memc.frozen = false →
     ∃ t, exec (.dramTempRead ch range tref) s = .next t ∧ (chOf t ch.val).range = range ∧
       (chOf t ch.val).trefipb = tref ∧ t.memc = s.memc ∧ t.dram = s.dram ∧ ∀ n : Fin 8, n ≠ ch → chOf t n.val = chOf s n.val)

/-! ### Packets on their way in, the Caravan and the mailboxes -/

/-- R54: a command with effective frame 0xFFFFFFFF that passes the checks of R305 and finds room is never LATE: it
enters the timed queue for the next frame, or for the frame after that from the arming cutoff on, when it arrives or,
for a TABLE_LOAD whose region is checked first, when that check ends; every part of a reply carries the SFN it was
resolved to. -/
def Obligations.AtOnceFrameResolved : Prop :=
  ∀ s : State, s.tick.queue.length < 256 →
    let f := sfnAdd s.tick.sfn (if s.clock.lastTick + s.tick.period.toNat ≤ s.clock.now + 200000 then 2 else 1)
    (∀ (p : Path) (ws : List Word), s.dev.phase = .ready → s.dev.power ≠ .off →
      packetFault (packetLen ws) (packetOp ws) (packetPars ws) = none →
      (packetOp ws ≠ 0x22 ∨ packetLen ws ≠ 5) → packetEff ws = 0xFFFFFFFF#32 →
      exec (.packetArrival p ws) s = .next { s with tick := { s.tick with
        accNext := s.tick.accNext + 1,
        queue := s.tick.queue ++ [{ hdr := { packetHdr p ws with sfn := f }, opcode := BitVec.ofNat 8 (packetOp ws),
                                    params := packetPars ws, acc := s.tick.accNext }] } }) ∧
    (∀ (x : LoadCheck) (r : List LoadCheck) (hits : List (Nat × EccHit)), s.cmdq.checks = x :: r → x.eff = 0xFFFFFFFF#32 →
      MemoryIdle s → Correctable hits → crc32 (dramRead s x.region.1 x.region.2) = x.q.params.getD 4 0 →
      ∃ t, exec (.tableLoadCheckEnd hits) s = .next t ∧ t.cmdq = { s.cmdq with checks := r } ∧ t.dram = s.dram ∧
        t.tick = { s.tick with
          accNext := s.tick.accNext + 1,
          queue := s.tick.queue ++ [{ x.q with hdr := { x.q.hdr with sfn := f }, acc := s.tick.accNext }] }) ∧
    (∀ (p : ReplyPart) (seq : Word), (replyWords p seq)[2]? = some p.hdr.sfn)

/-- R55: a command that would make the timed queue hold more than 256 commands is rejected with status BUSY and not
queued, when it arrives or, for a TABLE_LOAD whose region is checked first, when that check ends. -/
def Obligations.FullQueueRejects : Prop :=
  ∀ s : State, 256 ≤ s.tick.queue.length →
    (∀ (p : Path) (ws : List Word) (f : Sfn), s.dev.phase = .ready → s.dev.power ≠ .off →
      packetFault (packetLen ws) (packetOp ws) (packetPars ws) = none →
      (packetOp ws ≠ 0x22 ∨ packetLen ws ≠ 5) → resolveFrame s (packetEff ws) = some f →
      exec (.packetArrival p ws) s = .next (replyReject (packetHdr p ws) (BitVec.ofNat 8 (packetOp ws)).toNat stBusy s) ∧
      (replyReject (packetHdr p ws) (BitVec.ofNat 8 (packetOp ws)).toNat stBusy s).tick.queue = s.tick.queue) ∧
    (∀ (x : LoadCheck) (r : List LoadCheck) (f : Sfn) (hits : List (Nat × EccHit)), s.cmdq.checks = x :: r →
      resolveFrame s x.eff = some f → MemoryIdle s → Correctable hits →
      crc32 (dramRead s x.region.1 x.region.2) = x.q.params.getD 4 0 →
      ∃ t, exec (.tableLoadCheckEnd hits) s = .next t ∧ t.tick.queue = s.tick.queue ∧
        t.cmdq = (replyReject x.q.hdr x.q.opcode.toNat stBusy { s with cmdq := { s.cmdq with checks := r } }).cmdq)

/-- R310: with ENABLE set and nothing in the way entry HEAD is fetched, in two reads where the maximum read request is
128 bytes and in one otherwise; a fetch that completes advances HEAD and brings its packet to the checks of R305, where
one for the next tick enters the timed queue and one that names no command is rejected; one that fails clears ENABLE,
sets FETCH_ERR and discards the parts not yet posted. R310, R311: outside a function-level reset a TAIL write that
leaves at most SIZE entries is taken, a CONS write up to PROD is taken, and any other sets TAIL_BAD or CONS_BAD and
changes nothing else. R312: ENABLE set with good ring settings starts both rings at zero, and with bad ones sets
CFG_BAD; ENABLE cleared discards the fetch in progress and every part not yet posted, each counted as lost. -/
def Obligations.CaravanRings : Prop :=
  ((∀ s : State, s.dev.phase = .ready → s.cmdq.enable = true → canIssue s = true → s.cmdq.tail ≠ s.cmdq.head →
     s.cmdq.held.length < 64 → s.cmdq.fetching = false →
     let a := s.cmdq.ringBase.toNat + 256 * (s.cmdq.head.toNat % s.cmdq.ringSize.toNat)
     exec .caravanFetch s = .next { s with
       cmdq := { s.cmdq with fetching := true },
       out := (if s.host.mrrs = 0 then [.hostRead (a + 128) 128, .hostRead a 128] else [.hostRead a 256]) ++ s.out }) ∧
   (∀ (ws : List Word) (s : State), s.cmdq.fetching = true → s.dev.phase = .ready → s.dev.power ≠ .off →
     (packetLen ws ≤ 62 → opcodeRow (packetOp ws) = none →
       exec (.caravanFetchDone true ws) s = .next (replyReject (packetHdr .caravan ws) (packetOp ws) stBadOpcode
         { s with cmdq := { s.cmdq with fetching := false, head := s.cmdq.head + 1 } })) ∧
     (packetFault (packetLen ws) (packetOp ws) (packetPars ws) = none → (packetOp ws ≠ 0x22 ∨ packetLen ws ≠ 5) →
       packetEff ws = 0xFFFFFFFF#32 → s.tick.queue.length < 256 →
       ∃ t, exec (.caravanFetchDone true ws) s = .next t ∧
         t.cmdq = { s.cmdq with fetching := false, head := s.cmdq.head + 1 } ∧
         t.tick.queue = s.tick.queue ++ [{
           hdr := { packetHdr .caravan ws with sfn := sfnAdd s.tick.sfn (if pastCutoff s then 2 else 1) },
           opcode := BitVec.ofNat 8 (packetOp ws), params := packetPars ws, acc := s.tick.accNext }])) ∧
   (∀ (ws : List Word) (s : State), s.cmdq.fetching = true →
     ∃ t, exec (.caravanFetchDone false ws) s = .next t ∧ t.cmdq.enable = false ∧ t.cmdq.fetchErr = true ∧
       t.cmdq.held = [] ∧ t.cmdq.behind = [] ∧ t.cmdq.head = s.cmdq.head ∧ t.dram = s.dram)) ∧
  (∀ (v : Word) (s : State), s.host.flr = false →
     ((v - s.cmdq.head).toNat ≤ s.cmdq.ringSize.toNat →
       exec (.cmdqTailWrite v) s = .next { s with cmdq := { s.cmdq with tail := v } }) ∧
     (s.cmdq.ringSize.toNat < (v - s.cmdq.head).toNat →
       exec (.cmdqTailWrite v) s = .next { s with cmdq := { s.cmdq with tailBad := true } }) ∧
     ((v - s.cmdq.rplCons).toNat ≤ (s.cmdq.rplProd - s.cmdq.rplCons).toNat →
       exec (.cmdqRplConsWrite v) s = .next { s with cmdq := { s.cmdq with rplCons := v } }) ∧
     ((s.cmdq.rplProd - s.cmdq.rplCons).toNat < (v - s.cmdq.rplCons).toNat →
       exec (.cmdqRplConsWrite v) s = .next { s with cmdq := { s.cmdq with consBad := true } })) ∧
  ((∀ s : State, s.cmdq.enable = false → caravanGood s.cmdq = true →
     exec .enableSet s = .next { s with cmdq := { s.cmdq with
       enable := true, head := 0, tail := 0, rplProd := 0, rplCons := 0, sinceIrq := 0 } }) ∧
   (∀ s : State, s.cmdq.enable = false → caravanGood s.cmdq = false →
     exec .enableSet s = .next { s with cmdq := { s.cmdq with cfgBad := true } }) ∧
   (∀ s : State, let n := s.cmdq.held.length + s.cmdq.behind.length
     exec .enableClear s = .next { s with cmdq := { s.cmdq with
       enable := false, fetching := false, held := [], behind := [], lostCnt := satAdd s.cmdq.lostCnt n,
       rplLost := s.cmdq.rplLost || decide (0 < n) } }))

/-- R313: GO on an idle mailbox makes it BUSY, clears DONE and brings its 64 words as a packet, here one of a NOP for
the next tick; GO while BUSY is ignored and sets MBOX_BUSY; NEXT shows the next part of the reply, sets DONE, and of the
last part clears BUSY, and with no further part it does nothing. R308, R313: the one part of a reply on the management
mailbox is shown with its words, sets DONE and clears BUSY, and nothing else changes. -/
def Obligations.MailboxesServe : Prop :=
  ((∀ (m : Bool) (s : State), s.dev.phase = .ready → s.dev.power ≠ .off → (mboxOf s m).busy = false →
     s.tick.queue.length < 256 → packetOp (mboxOf s m).cmd.toList = 0 → packetLen (mboxOf s m).cmd.toList = 0 →
     packetEff (mboxOf s m).cmd.toList = 0xFFFFFFFF#32 →
     ∃ t, exec (.mboxGo m) s = .next t ∧ (mboxOf t m).busy = true ∧ (mboxOf t m).done = false ∧
       t.tick.queue = s.tick.queue ++ [{ hdr := { packetHdr (mboxPath m) (mboxOf s m).cmd.toList with
         sfn := sfnAdd s.tick.sfn (if pastCutoff s then 2 else 1) }, opcode := 0, params := [], acc := s.tick.accNext }]) ∧
   (∀ (m : Bool) (s : State), (mboxOf s m).busy = true →
     exec (.mboxGo m) s = .next { s with cmdq := { s.cmdq with mboxBusy := true } }) ∧
   (∀ (m : Bool) (s : State), (mboxOf s m).parts = [] → exec (.mboxNext m) s = .next s) ∧
   (∀ (m : Bool) (s : State) (p : ReplyPart) (r : List ReplyPart), (mboxOf s m).parts = p :: r →
     ∃ t, exec (.mboxNext m) s = .next t ∧ (mboxOf t m).parts = r ∧ (mboxOf t m).done = true ∧
       (mboxOf t m).busy = ((mboxOf s m).busy && !p.last) ∧
       (mboxOf t m).rpl = Vector.ofFn fun i : Fin 64 => (replyWords p 0).getD i.val 0)) ∧
  (∀ (tag : BitVec 16) (sfn : Sfn) (op : Nat) (st : BitVec 16) (ws : List Word) (s : State),
     s.cmdq.spt.parts = [] → (st = stOk ∨ st = stTruncated) →
     let h : Hdr := { path := .mgmt, tag, sfn }
     let p : ReplyPart := { hdr := h, opcode := BitVec.ofNat 8 op, status := st, part := 0, last := true, words := ws }
     reply h op st ws s = { s with cmdq := { s.cmdq with spt := { s.cmdq.spt with
       rpl := Vector.ofFn fun i : Fin 64 => (replyWords p 0).getD i.val 0, done := true, busy := false, parts := [] } } })

/-- R311: with room in the reply ring the oldest held part is posted: it leaves the held parts, the next one that waits
takes the place it leaves, PROD goes on by one, and HEAD, TAIL, CONS, the timed queue and DRAM stay. R300: a pending
vector that nothing blocks is sent and its pending bit clears; a blocked one stays pending. -/
def Obligations.RepliesAndVectorsSent : Prop :=
  (∀ (s : State) (p : ReplyPart) (r : List ReplyPart), s.cmdq.held = p :: r → replyRoom s = true →
     ∃ t, exec .replyPost s = .next t ∧ t.cmdq.held = (r ++ s.cmdq.behind).take 64 ∧
       t.cmdq.behind = (r ++ s.cmdq.behind).drop 64 ∧ t.cmdq.rplProd = s.cmdq.rplProd + 1 ∧
       t.cmdq.head = s.cmdq.head ∧ t.cmdq.tail = s.cmdq.tail ∧ t.cmdq.rplCons = s.cmdq.rplCons ∧
       t.tick = s.tick ∧ t.dram = s.dram) ∧
  ((∀ (v : Fin 512) (s : State), s.host.pba.getLsbD v.val = true → msixBlocked v.val s = false →
     exec (.msiXMessage v) s =
       .next (emitMsix v.val { s with host := { s.host with pba := clrBit s.host.pba v.val } })) ∧
   (∀ (v : Fin 512) (s : State), msixBlocked v.val s = true → exec (.msiXMessage v) s = .next s))

/-! ### Commands that answer at their tick, configuration sets, START, STOP and replay -/

/-- R314, R316: outside OFF, NOP, SET_TIME, READ_MAP within the map and CFG_STATUS are counted, have their effect at
the tick, and reply OK; SET_TIME makes DEV_TIME its value and changes nothing else. R315: READ_REGS of words within
its block returns them and WRITE_REGS of words within its block writes them, in ascending address; the reply counts
the words. -/
def Obligations.ImmediateCommandsReply : Prop :=
  (∀ (h : Hdr) (s : State), s.dev.power ≠ .off →
     exec (.nop h) s = .next (reply h 0x00 stOk [] (counted s)) ∧
     (∀ v : BitVec 64, exec (.setTime h v) s =
       .next (reply h 0x04 stOk [] { counted s with clock := { s.clock with devTime := v } })) ∧
     (∀ ofs n : Word, n.toNat ≤ (mapBytes - ofs.toNat) / 4 → exec (.readMap h ofs n) s =
       .next (reply h 0x03 stOk
         (n :: (List.range n.toNat).map fun i => mapWord (ofs.toNat + 4 * i)) (counted s))) ∧
     exec (.cfgStatus h) s = .next (reply h 0x13 stOk
       [fields [(s.cfg.hasActive.toNat, 0), (s.cfg.committed.toNat, 1), (s.cfg.locked.toNat, 2)], s.cfg.activeCrc,
         if s.cfg.committed then s.cfg.committedCrc else 0, s.cfg.activeSfn, word s.cfg.lastReason.toNat] (counted s))) ∧
  (∀ (h : Hdr) (a : Word) (s : State), s.dev.power ≠ .off →
     (∀ n : Word, n.toNat ≤ wordsLeft a.toNat → exec (.readRegs h a n) s =
       .next (reply h 0x01 stOk (n :: (readWords n.toNat a.toNat (counted s)).1) (readWords n.toNat a.toNat (counted s)).2)) ∧
     (∀ vs : List Word, vs.length ≤ wordsLeft a.toNat → exec (.writeRegs h a vs) s =
       .next (reply h 0x02 stOk [word vs.length] (writeWords a.toNat vs (counted s)))))

/-- R59: a SWAP_CONFIG that is not refused leaves the old set in the shadow bank, locks it, and starts the count of the
new set's ticks. While it is locked a write through the shadow window is dropped and sets SHADOW_DROP, and WRITE_CFG
and COMMIT_SHADOW return BUSY with no other effect. The lock ends with the second tick of the new set, and not before.
-/
def Obligations.ShadowLocked : Prop :=
  ((∀ (h : Hdr) (s : State), s.dev.power ≠ .off → s.cfg.commit = none → swapRefused s = false →
     ∃ t, exec (.swapConfig h) s = .next t ∧ t.cfg.shadow = s.cfg.active ∧ t.cfg.locked = true ∧ t.cfg.n = 0) ∧
   (∀ (h : Hdr) (ofs v bytes crc : Word) (vs : List Word) (s : State), s.cfg.locked = true → s.dev.power ≠ .off →
     ofs.toNat < 0x800000 →
     (s.host.flr = false →
       exec (.shadowWindowWrite ofs v 0xF) s = .next { s with tick := { s.tick with shadowDrop := true } }) ∧
     exec (.writeCfg h ofs vs) s = .next (reply h 0x10 stBusy [] (counted s)) ∧
     exec (.commitShadow h bytes crc) s = .next (reply h 0x11 stBusy [] (counted s)))) ∧
  (∀ s : State,
     (2 ≤ s.cfg.n → exec .shadowLockEnd s = .next { s with cfg := { s.cfg with locked := false } }) ∧
     (s.cfg.n < 2 → exec .shadowLockEnd s = .next s))

/-- R333: with the shadow bank unlocked WRITE_CFG and the shadow window write their words into it, little-endian at
their offset; the set is no longer committed, a commit whose checks run is spoiled, and the active bank keeps every
byte. -/
def Obligations.ShadowWritten : Prop :=
  ∀ (h : Hdr) (ofs v : Word) (vs : List Word) (s : State), s.cfg.locked = false → s.dev.power ≠ .off →
    ofs.toNat < 0x800000 →
    (∃ t, exec (.writeCfg h ofs vs) s = .next t ∧
      t.cfg = { s.cfg with shadow := writeCells zeroByte s.cfg.shadow ofs.toNat (wordsBytes vs), committed := false,
                           commit := s.cfg.commit.map fun x => { x with changed := true } } ∧
      t.dram = s.dram ∧ t.tick = s.tick ∧ t.tiles = s.tiles) ∧
    (s.host.flr = false → exec (.shadowWindowWrite ofs v 0xF) s = .next { s with cfg := { s.cfg with
      shadow := writeCells zeroByte s.cfg.shadow (ofs.toNat - ofs.toNat % 4) (leBytes 4 v.toNat), committed := false,
      commit := s.cfg.commit.map fun x => { x with changed := true } } })

/-- R334: COMMIT_SHADOW with the bank unlocked and no commit under way notes the command, BYTES, CRC, the generation of
the active set, the training state and the link rate of its tick, and sends no reply yet; with a commit under way it
returns BUSY. R334 to R338: the end of the checks clears the commit, shows the reason and sends the reply that
`commitResult` of this model gives, OK for reason 0 and REFUSED for another; with reason 0 the set is committed with
its CRC, its length and its generation, and with another it is not. The reason is 0x1A where the bank was written
during the checks; else 0x01 where the memory was untrained at the command; else 0x02 where a parity error was found;
else 0x03 where the CRC of the bank is not the one sent. No bank is written. -/
def Obligations.CommitChecked : Prop :=
  (∀ (h : Hdr) (bytes crc : Word) (s : State), s.cfg.locked = false → s.dev.power ≠ .off →
     (s.cfg.commit = none →
       exec (.commitShadow h bytes crc) s = .next { counted s with cfg := { s.cfg with commit := some {
         hdr := h, bytes := bytes.toNat, crc := crc, against := s.cfg.generation, changed := false,
         trained := s.memc.trained, mts := s.memc.mts.toNat, rate := linkRate s } } }) ∧
     (∀ c, s.cfg.commit = some c → exec (.commitShadow h bytes crc) s = .next (reply h 0x11 stBusy [] (counted s)))) ∧
  (∀ (p : Option (BitVec 17)) (s : State) (c : Commit), s.cfg.commit = some c →
     let r := commitResult s c p
     let rt := BitVec.ofNat 64 r.rt
     let al := BitVec.ofNat 64 r.all
     ∃ t, exec (.commitChecksEnd p) s = .next t ∧ t.dram = s.dram ∧ t.tiles = s.tiles ∧ t.tick = s.tick ∧
       t.cmdq = (reply c.hdr 0x11 (if r.reason = 0 then stOk else stRefused)
         [word r.reason, r.detail, lo32 rt, hi32 rt, lo32 al, hi32 al] s).cmdq ∧
       t.cfg = { s.cfg with
         commit := none, lastReason := BitVec.ofNat 8 r.reason, committed := decide (r.reason = 0),
         committedCrc := if r.reason = 0 then c.crc else s.cfg.committedCrc,
         committedBytes := if r.reason = 0 then c.bytes else s.cfg.committedBytes,
         committedAgainst := if r.reason = 0 then c.against else s.cfg.committedAgainst } ∧
       (c.changed = true → r.reason = 0x1A) ∧
       (c.changed = false → c.trained = false → r.reason = 0x01) ∧
       (c.changed = false → c.trained = true → p.isSome = true → r.reason = 0x02) ∧
       (c.changed = false → c.trained = true → p = none → crc32 (readCells zeroByte s.cfg.shadow 0 c.bytes) ≠ c.crc →
         r.reason = 0x03))

/-- R58, R339: SWAP_CONFIG of a committed set that was checked against the present one, and that keeps the hold record
where that is pending or frozen, makes the shadow bank the active bank and the active bank the shadow, locks it, shows
the CRC and the SFN of the set, and locks the masks of the address mapping. With a commit under way it returns BUSY, and
with a set not committed or checked against another it returns REFUSED; neither changes a bank, a tile or DRAM. -/
def Obligations.SwapExchangesBanks : Prop :=
  (∀ (h : Hdr) (s : State), s.dev.power ≠ .off → s.cfg.commit = none → s.cfg.committed = true →
    s.cfg.committedAgainst = s.cfg.generation →
    ((s.hold.state = .pending ∨ s.hold.state = .frozen) → ∀ b, activeSet s = some b → keepsHold b s.cfg.shadow = true) →
    ∃ t, exec (.swapConfig h) s = .next t ∧ t.cfg.active = s.cfg.shadow ∧ t.cfg.shadow = s.cfg.active ∧
      t.cfg.hasActive = true ∧ t.cfg.locked = true ∧ t.cfg.committed = false ∧ t.cfg.activeSfn = s.tick.sfn ∧
      t.cfg.activeCrc = s.cfg.committedCrc ∧ t.memc.mapLock = true) ∧
  (∀ (h : Hdr) (s : State) (c : Commit), s.dev.power ≠ .off → s.cfg.commit = some c →
    ∃ t, exec (.swapConfig h) s = .next t ∧ t.cfg = s.cfg ∧ t.tiles = s.tiles ∧ t.dram = s.dram ∧
      t.cmdq = (reply h 0x12 stBusy [] (counted s)).cmdq) ∧
  (∀ (h : Hdr) (s : State), s.dev.power ≠ .off → s.cfg.commit = none →
    (s.cfg.committed = false ∨ s.cfg.committedAgainst ≠ s.cfg.generation) →
    ∃ t, exec (.swapConfig h) s = .next t ∧ t.cfg = s.cfg ∧ t.tiles = s.tiles ∧ t.dram = s.dram ∧
      t.cmdq = (reply h 0x12 stRefused [] (counted s)).cmdq)

/-- R60, R78: START with an active set makes the device IMAGING from its tick, and every READY port IMAGING; the set
stays. R60, R79: STOP while imaging ends imaging at its tick and starts the count of the ticks to PARKED, and makes
every IMAGING port READY; the set stays. -/
def Obligations.ImagingStartsAndStops : Prop :=
  (∀ (h : Hdr) (s : State), s.cfg.hasActive = true → s.tick.imaging = false →
     (s.dev.power = .parked ∨ s.dev.power = .imaging) →
     ∃ t, exec (.start h) s = .next t ∧ t.tick.imaging = true ∧ t.dev.power = .imaging ∧ t.cfg = s.cfg ∧
       ∀ k : Fin 64, (tileOf s k.val).port.state = .ready → (tileOf t k.val).port.state = .imaging) ∧
  (∀ (h : Hdr) (s : State), s.dev.power = .imaging → s.tick.imaging = true →
     ∃ t, exec (.stop h) s = .next t ∧ t.tick.imaging = false ∧ t.tick.stopping = some 0 ∧ t.cfg = s.cfg ∧
       ∀ k : Fin 64, (tileOf s k.val).port.state = .imaging → (tileOf t k.val).port.state = .ready)

/-- R432, R317: START, TABLE_LOAD, TABLE_SAVE and REPLAY return REFUSED in LOW, and START returns NOT_READY with no
active set, all with no other effect. -/
def Obligations.RefusedCommands : Prop :=
  (∀ (h : Hdr) (w : Word) (a b c : BitVec 64) (crc : Option Word) (n : Word) (f : Bool) (s : State), s.dev.power = .low →
    exec (.tableLoad h w a crc) s = .next (reply h 0x22 stRefused [] (counted s)) ∧
    exec (.tableSave h w a f) s = .next (reply h 0x23 stRefused [] (counted s)) ∧
    exec (.replay h a b c n f) s = .next (reply h 0x24 stRefused [] (counted s)) ∧
    (s.tick.imaging = false → exec (.start h) s = .next (reply h 0x20 stRefused [] (counted s)))) ∧
  (∀ (h : Hdr) (s : State), s.dev.power = .parked → s.cfg.hasActive = false → s.tick.imaging = false →
    exec (.start h) s = .next (reply h 0x20 stNotReady [] (counted s)))

/-- R68, R69, R320: REPLAY of regions within the installed capacity, while imaging under a set with the replay charge and
with no memory request waiting, starts the replay at its first recorded frame and sets TICK_REPLAY_OFS to the present
SFN less the first recorded one; no coil stays in PULLIN or HOLD. R69, R320: a replay that does not loop ends at the
tick after its last recorded frame: live input resumes and the REPLAY command replies with the frames played, the first
recorded SFN and the side records with a bad MAGIC; before its last frame, and while it loops, it goes on. -/
def Obligations.ReplayRuns : Prop :=
  (∀ (h : Hdr) (raw stride side : BitVec 64) (n : Word) (loop : Bool) (s : State) (b : Bank),
     s.dev.power = .imaging → s.tick.imaging = true → s.replay = none → activeSet s = some b → Bank.replayCharge b = true →
     s.memc.reqs = [] →
     raw.toNat + (n.toNat - 1) * stride.toNat + 203423744 ≤ capacity s → side.toNat + 4096 * n.toNat ≤ capacity s →
     let rec0 := dramRead s side.toNat 4096
     ∃ t, exec (.replay h raw stride side n loop) s = .next t ∧ t.tick.replaying = true ∧
       t.tick.replayOfs = word (sfnDiff s.tick.sfn (word (sideU32 rec0 4))) ∧
       t.replay = some {
         hdr := h, rawBase := raw.toNat, rawStride := stride.toNat, sideBase := side.toNat, n := n.toNat, loop := loop,
         at_ := 0, played := 1, badMagic := (!sideGood rec0).toNat, firstSfn := word (sideU32 rec0 4), side := rec0 } ∧
       t.cmdq.execCnt = satInc s.cmdq.execCnt ∧ t.dram = s.dram ∧ t.tiles = s.tiles ∧
       ∀ i : Fin 64, (coilOf t i.val).state ≠ .pullin ∧ (coilOf t i.val).state ≠ .hold) ∧
  (∀ (s : State) (r : ReplaySrc), s.replay = some r →
     (r.n ≤ r.at_ + 1 → r.loop = false →
       exec .replayEnd s = .next (reply r.hdr 0x24 stOk [word r.played, r.firstSfn, word r.badMagic]
         { s with replay := none, tick := { s.tick with replaying := false } })) ∧
     ((r.at_ + 1 < r.n ∨ r.loop = true) → exec .replayEnd s = .next s))

/-! ### Tables, the hold buffer, training and diagnosis -/

/-- R61, R146, R318: a TABLE_LOAD of a table at a region that the checks accept replies OK with its CRC word and the
former base, and the region is the table from its frame on, which of a G table makes that frame fresh. R318: the oldest
check in progress ends, with its CRC matching, by taking its command into the timed queue, and without, by rejecting it
with BAD_PARAM. R146, R319: a TABLE_SAVE of a tile's CB or temporal table moves the table's write base to the
destination, and copies nothing; of its O, G or D table it copies the table as it stands. The save is kept with its
command until it ends: a copy, or a lane's save whose tile has finished its frame without an overrun, with status OK, the
CRC where one is asked for, and the base of the saved copy; a lane's save whose tile has overrun with status REFUSED, the
former region and word 3 set. -/
def Obligations.TablesLoadedAndSaved : Prop :=
  ((∀ (h : Hdr) (w : Word) (base : BitVec 64) (crc : Option Word) (s : State) (b : Bank),
     (s.dev.power = .parked ∨ s.dev.power = .imaging) → activeSet s = some b → noTable b w = false →
     tableBarred s b w true = false →
     badRegion s ((regionsInUse s).filter fun r => !ownRegion w r) base.toNat (saveBytes b w) = false →
     exec (.tableLoad h w base crc) s = .next (reply h 0x22 stOk
       [crc.getD 0, lo32 (tableBase s b w), hi32 (tableBase s b w)] (takeTable w base (counted s))) ∧
     (twKind w = 2 → takeTable w base (counted s) =
       modLane (twTile w) (fun l => { l with g := base, freshNext := true }) (counted s))) ∧
   (∀ (s : State) (x : LoadCheck) (r : List LoadCheck) (hits : List (Nat × EccHit)), s.cmdq.checks = x :: r →
     MemoryIdle s → Correctable hits →
     (crc32 (dramRead s x.region.1 x.region.2) ≠ x.q.params.getD 4 0 →
       ∃ t, exec (.tableLoadCheckEnd hits) s = .next t ∧ t.tick = s.tick ∧
         t.cmdq = (replyReject x.q.hdr 0x22 stBadParam { s with cmdq := { s.cmdq with checks := r } }).cmdq) ∧
     (∀ f, crc32 (dramRead s x.region.1 x.region.2) = x.q.params.getD 4 0 → resolveFrame s x.eff = some f →
       s.tick.queue.length < 256 →
       ∃ t, exec (.tableLoadCheckEnd hits) s = .next t ∧ t.cmdq = { s.cmdq with checks := r } ∧
         t.tick.queue = s.tick.queue ++ [{ x.q with hdr := { x.q.hdr with sfn := f }, acc := s.tick.accNext }]))) ∧
  ((∀ (h : Hdr) (w : Word) (dest : BitVec 64) (crc : Bool) (s : State) (b : Bank),
     (s.dev.power = .parked ∨ s.dev.power = .imaging) → activeSet s = some b → noTable b w = false →
     tableBarred s b w false = false → badRegion s (regionsInUse s) dest.toNat (saveBytes b w) = false →
     ((twKind w = 0 ∨ twKind w = 4) → ∃ t, exec (.tableSave h w dest crc) s = .next t ∧ t.dram = s.dram ∧
       t.cmdq = (counted s).cmdq ∧ t.tiles = (redirect w dest s).tiles ∧
       t.cfg = { s.cfg with saves := s.cfg.saves ++ [{
         hdr := h, at_ := s.tick.sfn, table := w, base := tableBase s b w, dest, bytes := saveBytes b w, copy := false, crc }] }) ∧
     ((twKind w = 1 ∨ twKind w = 2 ∨ twKind w = 3) → ∃ t, exec (.tableSave h w dest crc) s = .next t ∧ t.tiles = s.tiles ∧
       t.dram = (dramWrite dest.toNat (dramRead s (tableBase s b w).toNat (saveBytes b w)) s).dram ∧
       t.cfg = { s.cfg with saves := s.cfg.saves ++ [{
         hdr := h, at_ := s.tick.sfn, table := w, base := tableBase s b w, dest, bytes := saveBytes b w, copy := true, crc }] })) ∧
   (∀ (s : State) (w : Word) (p : Save) (hits : List (Nat × EccHit)), s.cfg.saves.find? (fun x => x.table = w) = some p →
     MemoryIdle s → s.err.freezeNext ≠ 1 → Correctable hits →
     let work := (tileOf s (twTile w)).lane.work
     ((p.copy = true ∨ (twKind w ≠ 5 ∧ work.mode = .read ∧ work.done = true ∧ work.overrun = false ∧
         s.tick.crossLanes.getLsbD (twTile w) = false)) →
       ∃ t, exec (.tableSaveCopyEnd w hits) s = .next t ∧ t.dram = s.dram ∧ t.tiles = s.tiles ∧
         t.cfg = { s.cfg with saves := s.cfg.saves.erase p } ∧
         t.cmdq = (reply p.hdr 0x23 stOk (saveWords s p) s).cmdq) ∧
     (p.copy = false → twKind w ≠ 5 → work.done = true → work.overrun = true →
       ∃ t, exec (.tableSaveCopyEnd w hits) s = .next t ∧ t.dram = s.dram ∧ t.cfg.saves = s.cfg.saves.erase p ∧
         t.cmdq = (reply p.hdr 0x23 stRefused [0, lo32 p.base, hi32 p.base, 1] s).cmdq)))

/-- R239, R240: HOLD_FREEZE of a recording buffer makes it PENDING with E the tick's SFN and the POST frames given, or
those of the set for 0xFFFFFFFF, and waits; from E + 2 on HOLD_FROZEN makes it FROZEN with every retained frame to be
sent and no command waiting, and before E + 2 does nothing; HOLD_RELEASE of a frozen one that nothing delivers, or with
FORCE, records again. The retained frames and DRAM stay. -/
def Obligations.HoldRecordFrozen : Prop :=
  (∀ (h : Hdr) (post : Word) (s : State) (b : Bank), (s.dev.power = .parked ∨ s.dev.power = .imaging) →
    activeSet s = some b → s.hold.state = .recording →
    ∃ t, exec (.holdFreeze h post) s = .next t ∧ t.dram = s.dram ∧ t.hold = { s.hold with
      state := .pending, waiting := s.hold.waiting ++ [h],
      endSfn := sfnAdd s.tick.sfn (if post = 0xFFFFFFFF#32 then Bank.holdPost b else post.toNat) }) ∧
  (∀ s : State, s.hold.state = .pending → sfnBefore s.tick.sfn (sfnAdd s.hold.endSfn 2) = false →
    ∃ t, exec .holdFrozen s = .next t ∧ t.hold.state = .frozen ∧ t.hold.waiting = [] ∧
      t.hold.toSend = s.hold.retained.length ∧ t.hold.retained = s.hold.retained ∧ t.dram = s.dram) ∧
  (∀ s : State, s.hold.state = .pending → sfnBefore s.tick.sfn (sfnAdd s.hold.endSfn 2) = true →
    exec .holdFrozen s = .next s) ∧
  (∀ (h : Hdr) (force : Bool) (s : State), (s.dev.power = .parked ∨ s.dev.power = .imaging) → s.hold.state = .frozen →
    (s.hold.delivering = false ∨ force = true) →
    ∃ t, exec (.holdRelease h force) s = .next t ∧ t.dram = s.dram ∧ t.hold = { s.hold with
      state := .recording, delivering := false, toSend := 0, piecesSent := 0, part := 0, skipNow := true })

/-- R275: MEM_TRAIN FULL in PARKED with no set starts: the named channels are untrained and busy, all content of DRAM
becomes undefined, and the run is noted with its rate and no reply; INCR of trained channels that run nothing is noted
and makes them busy, and INCR_PERIODIC replies OK at once and sets the rotation's mask and period. R270, R275, R478: the
end of a full training gives each named channel the verdict of its last attempt, in which it passed if every lane of it
did; a channel that passed is trained and runs nothing; the controller keeps the rate of that attempt; all content of
DRAM is undefined, and the command is answered with the results. R442: the end of the training of startup goes on to the
calibration of housekeeping. -/
def Obligations.FullTrainingRuns : Prop :=
  (∀ (h : Hdr) (mask : BitVec 8) (eye : BitVec 7) (mts per : Word) (s : State), s.dev.power = .parked →
     mask ≠ 0 → chBusy s mask = false →
     (s.cfg.hasActive = false → s.hold.state = .none → s.hold.waiting = [] →
       ∃ t, exec (.memTrain h 0 mask eye mts per) s = .next t ∧
         t.memc.train = s.memc.train ++ [{
           hdr := h, full := true, mask, eyeMin := if eye = 0 then 16 else eye.toNat, left := mask,
           rate := if mask = 0xFF ∧ mts ≠ 0 then mts.toNat else s.memc.rate.toNat, steps := decide (mask = 0xFF) }] ∧
         t.memc.trained = false ∧ t.dram = { cells := [], epoch := s.dram.epoch + 1 } ∧ t.cmdq = (counted s).cmdq ∧
         ∀ n : Fin 8, mask.getLsbD n.val = true → (chOf t n.val).trained = false ∧ (chOf t n.val).busy = true) ∧
     (chUntrained s mask = false →
       ∃ t, exec (.memTrain h 1 mask eye mts per) s = .next t ∧ t.dram = s.dram ∧ t.cmdq = (counted s).cmdq ∧
         (∃ r : TrainRun, r.hdr = h ∧ r.full = false ∧ r.mask = mask ∧ r.left = mask ∧
           r.eyeMin = (if eye = 0 then 16 else eye.toNat) ∧ t.memc.train = s.memc.train ++ [r]) ∧
         ∀ n : Fin 8, mask.getLsbD n.val = true → (chOf t n.val).busy = true) ∧
     (chUntrained s mask = false → s.cfg.hasActive = false →
       ∃ t, exec (.memTrain h 2 mask eye mts per) s = .next t ∧ t.dram = s.dram ∧
         t.cmdq = (reply h 0x40 stOk [] (counted s)).cmdq ∧
         t.memc.perMask = (if per ≠ 0 then mask else 0) ∧ t.memc.perPeriod = per.toNat)) ∧
  (∀ (a b : List ChannelResult) (l : List (List ChannelResult)) (s : State),
     (∀ r : TrainRun, s.dev.phase = .ready → s.memc.train.find? (fun x => x.full) = some r →
       let x := runAttempts r.mask r.eyeMin r.rate (if r.steps then (lowerRates r.rate).take 4 else []) (a :: b :: l)
       ∃ t, exec (.memTrainEnd a b l) s = .next t ∧ t.memc.train = s.memc.train.erase r ∧
         t.memc.rate = BitVec.ofNat 16 x.1 ∧ t.dram = { cells := [], epoch := s.dram.epoch + 1 } ∧
         t.cmdq = (reply r.hdr 0x40 stOk (trainWords t r.mask x.2.1) s).cmdq ∧
         ∀ n : Fin 8, r.mask.getLsbD n.val = true →
           let c := x.2.2.getD n.val ChannelResult.none
           (chOf t n.val).trained = chPasses c ∧ (chOf t n.val).busy = false ∧
           (chOf t n.val).verdict = (if !chPasses c then 2 else if chNarrow r.eyeMin c then 1 else 0)) ∧
     (s.dev.phase = .train → ∃ t, exec (.memTrainEnd a b l) s = .next t ∧ t.dev.phase = .hkcal ∧
       t.dram = { cells := [], epoch := s.dram.epoch + 1 } ∧ t.hk.calRequested = true))

/-- R276, R277: MEM_DIAG on trained channels that run nothing, within the installed capacity, is noted and makes them
busy. The end of a run in which no line failed and no word was corrected replies with the lines accessed over its passes
and nothing else counted, and its channels run nothing; a FILL leaves the seed in every line of its range whose channel
is named, and a READ_ONLY leaves DRAM as it is. -/
def Obligations.DiagnosisRuns : Prop :=
  (∀ (h : Hdr) (mode pat : BitVec 2) (inv : Bool) (passes mask : BitVec 8) (start len : BitVec 64) (seed : Word)
    (s : State), s.dev.power = .parked → chUntrained s mask = false → chBusy s mask = false →
    start.toNat + len.toNat ≤ capacity s →
    ∃ t, exec (.memDiag h mode pat inv passes mask start len seed) s = .next t ∧ t.dram = s.dram ∧
      t.memc.diag = s.memc.diag ++ [{
        hdr := h, mode, pattern := pat, invertAlt := inv, passes := if mode = 2 then 1 else passes.toNat, mask, start := start.toNat, length := len.toNat, seed }] ∧
      ∀ n : Fin 8, mask.getLsbD n.val = true → (chOf t n.val).busy = true) ∧
  (∀ (s : State) (r : DiagRun) (l : List DiagRun), s.memc.diag = r :: l →
    ∃ t, exec (.memDiagEnd [] []) s = .next t ∧ t.memc.diag = l ∧
      t.cmdq = (reply r.hdr 0x41 stOk
        [word (clampNat (r.passes * (diagLines s r).length) 0xFFFFFFFF), 0, 0, 0, 0xFFFFFFFF, 0xFFFFFFFF, 0] s).cmdq ∧
      (r.mode = 1 → t.dram = s.dram) ∧
      (r.mode = 2 → t.dram = (forEach (diagLines s r)
        (fun d s => dramPut d ((List.range 16).flatMap fun _ => leBytes 4 r.seed.toNat) s) s).dram) ∧
      ∀ n : Fin 8, r.mask.getLsbD n.val = true → (chOf t n.val).busy = false)

/-- R263, R278, R422: MEM_RESUME MODE 1 after a freeze of the memory controller, with every channel trained, nothing
running and no index entry waiting, ends the freeze with every credit full, and the device is PARKED with its set kept.
R260, R261: the first command or address parity error of a channel is counted, freezes the controller with its cause,
channel and SFN captured, drops the requests that wait, and brings FROZEN at the next tick; a later one is only counted.
-/
def Obligations.MemoryFreezesAndResumes : Prop :=
  (∀ (h : Hdr) (s : State), s.dev.power = .frozen → s.memc.frozen = true → s.err.frozenCause = 1 →
     (∀ n : Fin 8, (chOf s n.val).trained = true) → s.memc.train = [] → s.memc.diag = [] → s.hold.indexDue = [] →
     ∃ t, exec (.memResume h true) s = .next t ∧ t.memc.frozen = false ∧ t.dev.power = .parked ∧
       t.err.frozenCause = 0 ∧ t.cfg = s.cfg ∧ t.dram = s.dram ∧
       ∀ (b : Bank) (p : Fin 12), activeSet s = some b → t.memc.ports[p].credit = (regBurst b p.val * 1000 : Nat)) ∧
  (∀ (ch : Fin 8) (s : State),
     (s.memc.frozen = false → ∃ t, exec (.dramCaparError ch) s = .next t ∧
       (chOf t ch.val).capar = satInc (chOf s ch.val).capar ∧ t.memc.frozen = true ∧ t.memc.frzCause = 2 ∧
       t.memc.frzChannel = BitVec.ofNat 3 ch.val ∧ t.memc.frzSfn = s.tick.sfn ∧ t.memc.reqs = [] ∧
       (s.err.freezeNext = 0 → t.err.freezeNext = 1)) ∧
     (s.memc.frozen = true → exec (.dramCaparError ch) s = .next { s with
       memch := vmod s.memch ch.val (fun c => { c with capar := satInc c.capar }),
       memc := { s.memc with frzCnt := satInc s.memc.frzCnt } }))

/-- R272, R275: in PARKED the sweep of the channel that the oldest INCR names next starts. R272, R273: a sweep's end ends
it at its SFN; where the run of every lane holds its old centre the delays move to the middles of the runs, and where
one does not LOST is set and the delays stay. -/
def Obligations.ChannelSwept : Prop :=
  (∀ (ch : Fin 8) (s : State), s.dev.power = .parked → s.memc.sweeping = none → incrNext s = some ch.val →
    exec (.incrSweepStart ch) s = .next { s with memc := { s.memc with
      sweeping := some ch, sweepPeriodic := false, sweptWindow := true, perSince := 0 } }) ∧
  (∀ (ch : Fin 8) (rd wr : List LaneSweep) (s : State), s.memc.sweeping = some ch →
    ∃ t, exec (.incrSweepEnd ch rd wr) s = .next t ∧ t.memc.sweeping = none ∧ t.dram = s.dram ∧
      (chOf t ch.val).trnSfn = s.tick.sfn ∧
      ((∀ x ∈ rd ++ wr, holdsCentre x = true) → (chOf t ch.val).lost = false ∧
        (chOf t ch.val).rdDelay = recentred rd (chOf s ch.val).rdDelay ∧
        (chOf t ch.val).wrDelay = recentred wr (chOf s ch.val).wrDelay) ∧
      ((∃ x ∈ rd ++ wr, holdsCentre x = false) → (chOf t ch.val).lost = true ∧
        (chOf t ch.val).rdDelay = (chOf s ch.val).rdDelay ∧ (chOf t ch.val).wrDelay = (chOf s ch.val).wrDelay))

/-! ### The memory controller -/

/-- R245, R247, R256: a request that arrives alone at a port that is served and has credit is issued, and no word it
reads is uncorrectable: a read changes no byte, a write stores exactly its enabled bytes, and 64 B of credit, twice that
for a write of part of a word, are deducted unless the port has no limit. R260: an uncorrectable word that it reads
freezes the controller with cause 1 and the line's address. -/
def Obligations.AccessIssued : Prop :=
  ∀ (r : MemReq) (hits : List EccHit) (s : State), 64 * r.line < capacity s → s.memc.reqs = [] →
    portServed s r.port.val = true → hasCredit s r.port.val (kindOf r.data).cost = true →
    ((∀ h ∈ hits, h.correctable = true) →
      ∃ t, exec (.memAccessIssue [r] hits) s = .next t ∧ t.memc.reqs = [] ∧ t.cfg = s.cfg ∧ t.tiles = s.tiles ∧
        t.dram = { s.dram with cells := match r.data with
          | none => s.dram.cells
          | some d => writeEnabled (dramDflt s) s.dram.cells (64 * r.line) d } ∧
        t.memc.ports[r.port].credit = (if unlimited s r.port.val then s.memc.ports[r.port].credit
          else s.memc.ports[r.port].credit - (match r.data with
            | some d => if partialWord d then 128000 else 64000
            | none => 64000))) ∧
    ((∃ h ∈ hits, h.correctable = false) → r.data = none → s.memc.frozen = false →
      ∃ t, exec (.memAccessIssue [r] hits) s = .next t ∧ t.memc.frozen = true ∧ t.memc.frzCause = 1 ∧
        t.memc.frzAddr = BitVec.ofNat 64 (64 * r.line))

/-- R249, R250: outside a function-level reset a mask write while MAP_LOCK is clear takes a mask that has its home bit
and no other home bit; one that changes the mask leaves all content of DRAM undefined, and one that does not changes
nothing. A bad one sets HASH_BAD, one under MAP_LOCK sets MAP_DROP, and neither changes a mask. -/
def Obligations.HashMasks : Prop :=
  ∀ (i : Fin 9) (v : Word) (s : State), s.host.flr = false →
    let m := BitVec.ofNat 30 v.toNat
    (s.memc.mapLock = false → maskGood s i.val m = true → s.memc.hash[i] ≠ m →
      exec (.memcHashWrite i v) s = .next { s with
        memc := { s.memc with hash := vset s.memc.hash i.val m },
        dram := { cells := [], epoch := s.dram.epoch + 1 } }) ∧
    (s.memc.mapLock = false → maskGood s i.val m = true → s.memc.hash[i] = m → exec (.memcHashWrite i v) s = .next s) ∧
    (s.memc.mapLock = false → maskGood s i.val m = false →
      exec (.memcHashWrite i v) s = .next { s with memc := { s.memc with hashBad := true } }) ∧
    (s.memc.mapLock = true → exec (.memcHashWrite i v) s = .next { s with memc := { s.memc with mapDrop := true } })

/-- R286: with the controller serving, HOSTIN without a limit on its credit and no request waiting, a write through BAR2
within the capacity stores its enabled bytes and no other byte, and a read returns the bytes that lie there; an access
above the capacity is counted as a miss and changes no byte, and one of a frozen controller sets FROZEN_ACCESS, changes
no byte, and of a read returns all ones. -/
def Obligations.Bar2Window : Prop :=
  (∀ (d : Nat) (w : List (Option Byte)) (s : State), s.host.flr = false → s.host.mse = true → s.host.linkUp = true →
    s.dev.power ≠ .low → MemoryIdle s → portServed s 9 = true → unlimited s 9 = true → d + w.length ≤ capacity s →
    d < capacity s → Memory.wf (dramDflt s) s.dram.cells = true →
    ∃ t, exec (.bar2Access d (some w) w.length []) s = .next t ∧ t.dram.epoch = s.dram.epoch ∧ t.cfg = s.cfg ∧
      ∀ a, readCell (dramDflt t) t.dram.cells a =
        ((if d ≤ a then w.getD (a - d) none else none).getD (readCell (dramDflt s) s.dram.cells a))) ∧
  (∀ (d n : Nat) (s : State), s.host.flr = false → s.host.mse = true → s.host.linkUp = true →
    s.dev.power ≠ .low → MemoryIdle s → portServed s 9 = true → unlimited s 9 = true → s.memc.hostReads = [] →
    d < capacity s → d + n ≤ capacity s →
    ∃ t, exec (.bar2Access d none n []) s = .next t ∧ t.dram = s.dram ∧
      t.out.head? = some (.readData (readCells (dramDflt s) s.dram.cells d n))) ∧
  (∀ (d : Nat) (w : List (Option Byte)) (s : State), s.host.flr = false → s.host.mse = true → s.host.linkUp = true →
    capacity s ≤ d →
    ∃ t, exec (.bar2Access d (some w) w.length []) s = .next t ∧ t.dram = s.dram ∧
      t.host.bar2Miss = true ∧ t.host.missBar2 = satInc s.host.missBar2) ∧
  (∀ (d n : Nat) (s : State), s.host.flr = false → s.host.mse = true → s.host.linkUp = true → s.memc.trained = true →
    s.dev.power ≠ .low → s.memc.frozen = true → d < capacity s →
    exec (.bar2Access d none n []) s = .next { s with
      memc := { s.memc with frozenAccess := true }, out := .readData (List.replicate n 0xFF) :: s.out })

/-! ### Calibration commands, the keeping store, Skewaost, errors, LOW and RESET_BLOCK -/

/-- R125, R168, R367: SHUTTER_CAL on imaging tiles without a shutter fault asks for each that is idle and waits for
all, beside the SHUTTER_CALs that wait already; DAC_LINCAL on an imaging tile waits for the taps named; HK_SELFCAL waits
for the conversions under way; BLEND_SET of 1 to 64 gives the named tiles that K, and one whose Traverse begins at this
tick uses it. None touches DRAM, and SHUTTER_CAL and BLEND_SET leave the lanes as they are. -/
def Obligations.CalibrationCommands : Prop :=
  ∀ (h : Hdr) (mask : BitVec 64) (s : State), (s.dev.power = .parked ∨ s.dev.power = .imaging) → s.cfg.hasActive = true →
    ((∀ n : Fin 64, mask.getLsbD n.val = true → tileImaging s n.val = true ∧ shutterFault s n.val = 0) →
      ∃ t, exec (.shutterCal h mask) s = .next t ∧ t.cmdq = (counted s).cmdq ∧ t.dram = s.dram ∧
        (∃ r ∈ t.calReqs, r.hdr = h ∧ r.awaited = mask ∧ r.records = []) ∧ (∀ r ∈ s.calReqs, r ∈ t.calReqs) ∧
        t.calReqs.length = s.calReqs.length + 1 ∧
        ∀ n : Fin 64, (tileOf t n.val).lane = (tileOf s n.val).lane ∧
          (mask.getLsbD n.val = true → (tileOf t n.val).cal = { (tileOf s n.val).cal with
            requested := (tileOf s n.val).cal.requested || decide ((tileOf s n.val).cal.phase = .idle) })) ∧
    (∀ (n : Fin 64) (a b : Bool), tileImaging s n.val = true → exec (.dacLincal h n a b) s = .next { counted s with
      lincals := s.lincals ++ [{ hdr := h, tile := n.val, namedA := a, namedB := b, resA := none, resB := none }] }) ∧
    (s.hk.calibrating = false → s.hk.calRequested = false → exec (.hkSelfcal h) s = .next { counted s with
      hk := { s.hk with calRequested := true, calReply := s.hk.calReply ++ [h] } }) ∧
    (∀ k : Word, 1 ≤ k.toNat → k.toNat ≤ 64 → ∃ t, exec (.blendSet h mask k) s = .next t ∧ t.dram = s.dram ∧
      t.cmdq = (reply h 0x34 stOk [] (counted s)).cmdq ∧
      ∀ n : Fin 64, let c := (tileOf s n.val).cal
        (tileOf t n.val).lane = (tileOf s n.val).lane ∧ (tileOf t n.val).cal = (if mask.getLsbD n.val
        then { c with k := BitVec.ofNat 7 k.toNat, kUsed := if c.phase = .traverse ∧ c.index = 0 then k.toNat else c.kUsed }
        else c))

/-- R177, R186: SHUTTER_MOVE on ready or imaging tiles that no calibration holds, enabled and without fault, issues
its request to each named coil after those already issued, and the move waits for all of them; no coil moves yet. -/
def Obligations.ShutterMoveIssued : Prop :=
  ∀ (h : Hdr) (mask : BitVec 64) (close : Bool) (s : State), (s.dev.power = .parked ∨ s.dev.power = .imaging) →
    s.cfg.hasActive = true →
    (∀ n : Fin 64, mask.getLsbD n.val = true →
      ((tileOf s n.val).port.state = .ready ∨ (tileOf s n.val).port.state = .imaging) ∧
      (tileOf s n.val).cal.phase = .idle ∧ shutterFault s n.val = 0 ∧ coilEn s n.val = true) →
    ∃ t, exec (.shutterMove h mask close) s = .next t ∧ t.cmdq = (counted s).cmdq ∧ t.tiles = s.tiles ∧
      t.shut.nextMove = s.shut.nextMove + 1 ∧
      t.shut.moves = s.shut.moves ++ [{
        id := s.shut.nextMove, hdr := h, mask, close, waiting := mask, results := [] }] ∧
      ∀ n : Fin 64, (coilOf t n.val).requests = (coilOf s n.val).requests ++
        (if mask.getLsbD n.val then [{ close, move := some s.shut.nextMove }] else []) ∧
        (coilOf t n.val).state = (coilOf s n.val).state

/-- R323, R391, R401, R402, R405: with nothing queued and no bad check cells a KEEP_READ is answered at once with the
bytes read, and with the ring index built a KEEP_RING_READ with the slot of the age asked for, its newest first;
KEEP_WRITE, KEEP_RING_APPEND and KEEP_PROTECT take their place in the queue, and KEEP_SCRUB begins. The array stays as it
is. -/
def Obligations.KeepCommandsTaken : Prop :=
  ∀ (h : Hdr) (s : State), s.dev.power ≠ .off → s.keep.queue = [] → s.keep.current = none → s.keep.badGroups = [] →
    (∀ a n : Word, exec (.keepRead h a n) s = .next (reply h 0x50 stOk
      (fields [(n.toNat, 0), (0, 16), (0, 24)] :: bytesWords (keepBytes s a.toNat n.toNat)) (counted s))) ∧
    (∀ (a n : Word) (ws : List Word), exec (.keepWrite h a n ws) s = .next { counted s with
      keep := { s.keep with queue := [.write h a.toNat ((wordsBytes ws).take n.toNat)] } }) ∧
    (∀ (r : BitVec 8) (ws : List Word), exec (.keepRingAppend h r ws) s = .next { counted s with
      keep := { s.keep with queue := [.append h r.toNat (wordsBytes ws)] } }) ∧
    (∀ bp : BitVec 2, exec (.keepProtect h bp) s = .next { counted s with
      keep := { s.keep with queue := [.protect h bp] } }) ∧
    exec (.keepScrub h) s = .next { counted s with keep := { s.keep with
      queue := [.scrub h], scrubbing := true,
      current := some { pages := [], now := none, seq := 0, slot := 0, corrected := 0, uncorrectable := 0 } } } ∧
    (∀ (r : BitVec 8) (age : Word) (p : Nat × Nat), s.keep.ready = true →
      ((validSlots (indexRing r.toNat (counted s)) r.toNat).mergeSort fun p q => q.1 ≤ p.1)[age.toNat]? = some p →
      let b := keepBytes s (slotAddr r.toNat p.2) (ringSlotBytes r.toNat)
      exec (.keepRingRead h r age) s = .next (reply h 0x53 stOk (word p.1 :: word p.2 :: bytesWords
        ((b.drop 24).take (4 * (min (leNat ((b.drop 10).take 2)) (ringPayload r.toNat) / 4))))
        (indexRing r.toNat (counted s))))

/-- R393 to R396: a page write starts with VKEEP at 2.900 V or above on an unprotected address: the page with the new
bytes merged is held and the array is not yet written; its end puts the page into the array, counts it, and answers
the command. A write the device holds for VKEEP starts at a retry with enough of it. R398, R408: settlement with a
marked journal page whose CRC is good writes that page to its target, with a bad one leaves the target and has the
error raised later, and without a marker discards; the index makes the store READY; the counter append queues rings 64
to 68. Only the first of these writes the array. -/
def Obligations.KeepPagesWritten : Prop :=
  ((∀ (h : Hdr) (a : Nat) (d : List Byte) (v : BitVec 16) (s : State), s.keep.queue = [.write h a d] →
     s.keep.current = none → s.keep.retryWait = false → s.keep.badGroups = [] → 2900 ≤ v.toNat → a < 524288 →
     (∀ i < d.length, a + i < protectedFrom s.keep.bp) →
     ∃ t, exec (.keepPageWriteStart v) s = .next t ∧ t.cmdq = s.cmdq ∧ t.keep = { s.keep with
       vkeepMv := v, vkeepOk := true, current := some {
         pages := [], now := some (a / 128, mergePage (keepBytes s (128 * (a / 128)) 128)
           ((d.zipIdx).map fun x => (a % 128 + x.2, x.1))),
         seq := 0, slot := 0, corrected := 0, uncorrectable := 0 } }) ∧
   (∀ (h : Hdr) (a : Nat) (d : List Byte) (s : State) (b : KeepBusy) (p : Nat × List Byte),
     s.keep.queue = [.write h a d] → s.keep.current = some b → b.now = some p → b.pages = [] → p.1 ≠ statusPage →
     ∃ t, exec .keepPageWriteEnd s = .next t ∧ t.cmdq = (reply h 0x51 stOk [] s).cmdq ∧ t.dram = s.dram ∧
       t.keep.array = writeCells erasedByte s.keep.array (128 * p.1) p.2 ∧
       t.keep.writeCnt = satInc s.keep.writeCnt ∧ t.keep.queue = [] ∧ t.keep.current = none) ∧
   (∀ (r : Nat) (pl : List Byte) (v : BitVec 16) (s : State), r < 80 → s.keep.queue = [.own r pl] → s.keep.current = none →
     s.keep.retryWait = true → s.keep.ready = true → s.keep.bp = 0 → s.keep.badGroups = [] → 2900 ≤ v.toNat →
     ∃ t, exec (.keepVkeepRetry v) s = .next t ∧ t.keep.retryWait = false ∧ t.keep.vkeepMv = v ∧
       t.keep.array = s.keep.array ∧ ∃ b, t.keep.current = some b ∧ b.now.isSome = true) ∧
   (∀ (h : Hdr) (s : State) (b : KeepBusy), s.keep.queue = [.scrub h] → s.keep.current = some b → s.keep.scrubbing = true →
     b.pages = [] → b.now = none →
     ∃ t, exec .keepScrubEnd s = .next t ∧
       t.cmdq = (reply h 0x55 stOk [131072, word b.corrected, word b.uncorrectable] s).cmdq ∧
       t.keep = { s.keep with queue := [], current := none, scrubbing := false, retryWait := false })) ∧
  ((∀ s : State, s.keep.settled = false → s.keep.jMarker = true → s.keep.jGood = true → s.keep.jStatus = false →
     ∃ t, exec .keepSettlement s = .next t ∧ t.keep.settled = true ∧ t.keep.action = 1 ∧ t.keep.page = s.keep.jPage ∧
       t.keep.jMarker = false ∧ t.keep.array = writeCells erasedByte s.keep.array (128 * s.keep.jPage.toNat) s.keep.jData ∧
       t.cmdq = s.cmdq) ∧
   (∀ s : State, s.keep.settled = false → s.keep.jMarker = true → s.keep.jGood = false →
     ∃ t, exec .keepSettlement s = .next t ∧ t.keep.action = 3 ∧ t.keep.badDue = true ∧ t.keep.array = s.keep.array) ∧
   (∀ s : State, s.keep.settled = false → s.keep.jMarker = false → s.keep.jWritten = true →
     ∃ t, exec .keepSettlement s = .next t ∧ t.keep.action = 2 ∧ t.keep.array = s.keep.array ∧
       t.keep.discards = satInc s.keep.discards) ∧
   (∀ s : State, s.keep.settled = true → s.keep.ready = false →
     ∃ t, exec .keepRingIndexBuilt s = .next t ∧ t.keep.ready = true ∧ t.keep.array = s.keep.array) ∧
   (∀ s : State, s.dev.power ≠ .off → s.keep.queue = [] → exec .counterAppendTimer s = .next { s with keep := { s.keep with
     appendAge := 0,
     queue := [.own 64 (coilPayload s 0), .own 65 (coilPayload s 1), .own 66 (coilPayload s 2), .own 67 (coilPayload s 3),
       .own 68 (devicePayload s)] } }))

/-- R353, R358, R360, R361: SYNC_JOIN of a root makes it a follower in HOLDOVER with cause 1, and of a follower the
contrary makes it a ROOT at once. SYNC_STATUS replies with the twelve registers; SYNC_ASSIGN_ID without
TREE gives the device its ID from the next tick on and counts one device. R360: an ID_SET without TREE whose CRC checks
is taken for the next tick and answered with COUNT 1, and one received while the device assigns is answered with COUNT 0;
the last port's ID_DONE, or its timeout, ends an assignment: the command is answered with the count, TRUNCATED after a
timeout. -/
def Obligations.SyncCommandsRun : Prop :=
  (∀ (h : Hdr) (s : State), s.dev.power ≠ .off →
     (s.sync.follow = false → ∃ t, exec (.syncJoin h true) s = .next t ∧ t.sync.follow = true ∧
       t.sync.state = .holdover ∧ t.sync.cause = 1 ∧ t.sync.holdover = satInc s.sync.holdover ∧ t.tick = s.tick) ∧
     (s.sync.follow = true → ∃ t, exec (.syncJoin h false) s = .next t ∧ t.sync.follow = false ∧ t.sync.state = .root ∧
       t.sync.trim = 0 ∧ t.sync.depth = 0 ∧ t.sync.d = s.sync.d ∧ t.tick = s.tick) ∧
     exec (.syncStatus h) s = .next (reply h 0x61 stOk ((List.range 12).map (syncReg s)) (counted s)) ∧
     (∀ id, s.sync.assign = none → exec (.syncAssignId h id false) s = .next (reply h 0x62 stOk [1]
       { counted s with sync := { s.sync with idNext := some id } }))) ∧
  ((∀ (id : BitVec 12) (s : State), s.sync.assign = none →
     exec (.idSet (.crc (crc16 (idPayload id false))) id false) s = .next { s with
       sync := { s.sync with idNext := some id }, out := .sync 0 (syncMsg 6 (leBytes 2 1 ++ leBytes 1 0)) :: s.out }) ∧
   (∀ (id : BitVec 12) (tree : Bool) (s : State) (a : Assign), s.sync.assign = some a →
     exec (.idSet (.crc (crc16 (idPayload id tree))) id tree) s =
       .next { s with out := .sync 0 (syncMsg 6 (leBytes 2 0 ++ leBytes 1 0)) :: s.out }) ∧
   (∀ (s : State) (a : Assign) (h : Hdr) (p : Fin 4) (n : BitVec 16), s.sync.assign = some a → a.hdr = some h →
     a.port = some p.val → (∀ q, p.val < q → q < 4 → synDown s q = false) →
     exec (.idDone p n false) s = .next (reply h 0x62 (if a.truncated then stTruncated else stOk)
       [word (a.count + n.toNat)] { s with sync := { s.sync with assign := none } }) ∧
     exec .assignTimeout s = .next (reply h 0x62 stTruncated [word a.count]
       { s with sync := { s.sync with assign := none, assignTimeout := true } })))

/-- R347, R350, R355: a receiver's lock shows as its port's bit and its loss clears it; the loss of SYU in LOCKED brings
HOLDOVER with cause 2 at the next tick; a follower's request carries the next sequence number, a request received is
answered on its port with its own, and a response to the last request whose CRC checks gives a measurement, half the
round trip less the turn, rounded. R348, R362: a message whose CRC does not check is counted and has no other effect, and
one with invalid characters counts them. -/
def Obligations.SyncLine : Prop :=
  ∀ s : State,
    (∀ p : Fin 5, exec (.syncRxUp p) s = .next { s with sync := { s.sync with up := setBit s.sync.up p.val } }) ∧
    (∀ p : Fin 5, p.val ≠ 0 →
      exec (.syncRxDown p) s = .next { s with sync := { s.sync with up := clrBit s.sync.up p.val } }) ∧
    (s.sync.state = .locked → s.sync.enterNext = none → exec (.syncRxDown 0) s = .next { s with sync := { s.sync with
      up := clrBit s.sync.up 0, enterNext := some 2 } }) ∧
    (∀ t : Int, s.sync.follow = true → exec (.dlyReqSend t) s = .next { s with
      sync := { s.sync with reqSeq := s.sync.reqSeq + 1, reqTime := some t },
      out := .sync 0 (syncMsg 2 (leBytes 2 (s.sync.reqSeq + 1).toNat)) :: s.out }) ∧
    (∀ (p : Fin 4) (q : BitVec 16) (turn : Word), exec (.dlyReq p q turn) s = .next { s with
      out := .sync (p.val + 1) (syncMsg 3 (rspPayload q turn)) :: s.out }) ∧
    (∀ (t q : Int) (turn : Word), s.sync.follow = true → s.sync.reqTime = some q → s.sync.dValid = false →
      s.sync.meas.length < 7 → 0 ≤ rndShr (t - q - turn.toNat) 1 → rndShr (t - q - turn.toNat) 1 ≤ 80000 →
      exec (.dlyRsp t (.crc (crc16 (rspPayload s.sync.reqSeq turn))) s.sync.reqSeq turn) s = .next { s with sync := { s.sync with
        reqTime := none, meas := s.sync.meas ++ [(rndShr (t - q - turn.toNat) 1).toNat], rejects := 0 } }) ∧
    (∀ (t : Int) (c q : BitVec 16) (turn : Word), c ≠ crc16 (rspPayload q turn) →
      exec (.dlyRsp t (.crc c) q turn) s = .next { s with sync := { s.sync with crc := satInc s.sync.crc } }) ∧
    (∀ (t : Int) (n : Nat) (q : BitVec 16) (turn : Word),
      exec (.dlyRsp t (.badChars n) q turn) s = .next { s with sync := { s.sync with code := satAdd s.sync.code n } })

/-- R349, R351, R355: a TICK message whose CRC checks and that a LOCKED follower accepts places the next tick at its
arrival and LEAD less the delay, and takes the sender's depth and one; a tick with no message is counted as missed, and
the second in a row brings HOLDOVER; a root sends its own next SFN and period to every downstream port that is up and
enabled. -/
def Obligations.TickMessages : Prop :=
  (∀ (a : Int) (lead per : Word) (depth : Byte) (hold : Bool) (s : State), s.sync.follow = true → s.sync.adopt = none →
    s.sync.dValid = true → s.sync.state = .locked → depth.toNat < 8 → per = nextPeriod s →
    let c : Int := a + lead.toNat - s.sync.d.toNat
    let line : LineCheck := .crc (crc16 (tickPayload (sfnNext s.tick.sfn).toNat lead.toNat per.toNat depth.toNat hold))
    a + 16000 ≤ c → 10 * s.sync.tPrev + 9 * period8 s ≤ 10 * c → (c - ownTick s).natAbs ≤ 8000 →
    ∃ t, exec (.tickMessage a line (sfnNext s.tick.sfn) lead per depth hold) s = .next t ∧ t.sync.placed = some c ∧
      t.sync.depth = BitVec.ofNat 4 (depth.toNat + 1) ∧ t.sync.state = .locked ∧ t.sync.missedRun = 0 ∧
      t.tick = s.tick ∧ t.err = s.err) ∧
  (∀ s : State, s.sync.state = .locked → s.sync.placed = none →
    ∃ t, exec .missedTick s = .next t ∧ t.sync.miss = satInc s.sync.miss ∧ t.sync.missedRun = s.sync.missedRun + 1 ∧
      (s.sync.missedRun = 0 → t.sync.enterNext = s.sync.enterNext) ∧
      (1 ≤ s.sync.missedRun → s.sync.enterNext = none →
        t.sync.enterNext = some (if s.sync.freqLimit then 6 else 3))) ∧
  (∀ s : State, s.tick.running = true → s.sync.follow = false → s.sync.adopt = none → s.sync.state = .root →
    ∃ t, exec .tickMessageSend s = .next t ∧ t.sync = s.sync ∧ t.tick = s.tick ∧
      t.out = ((List.range 4).filter (synDown s)).reverse.map (fun n => Emit.sync (n + 1) (syncMsg 1
        (tickPayload (sfnNext s.tick.sfn).toNat 800000 (nextPeriod s).toNat 0 false))) ++ s.out)

/-- R415: ERR_ACK, and outside a function-level reset a write of 1 to VALID, clear the four words of each class named,
keep its lifetime total, and leave the other classes; ERR_ACK keeps the frozen cause and replies with the capture and
count words from before. -/
def Obligations.ErrorsAcknowledged : Prop :=
  (∀ (h : Hdr) (m : BitVec 3) (s : State), s.dev.power ≠ .off →
    ∃ t, exec (.errAck h m) s = .next t ∧
      t.cmdq = (reply h 0x70 stOk ((maskList m).flatMap fun c => [capWord (errOf s c), cntWord (errOf s c)])
        (counted s)).cmdq ∧ t.dram = s.dram ∧ t.err.frozenCause = s.err.frozenCause ∧
      ∀ c : Fin 3, errOf t c.val = (if m.getLsbD c.val then { ErrClass.reset with total := (errOf s c.val).total }
        else errOf s c.val)) ∧
  (∀ (c : Fin 3) (s : State), s.host.flr = false →
    ∃ t, exec (.errCapValidWrite c) s = .next t ∧ t = { s with err := t.err } ∧
    ∀ d : Fin 3, errOf t d.val = (if d = c then { ErrClass.reset with total := (errOf s c.val).total } else errOf s d.val))

/-- R430: POWER_STATE LOW in PARKED, with nothing busy and no memory request waiting, puts every channel into
self-refresh and the device into LOW at its tick; its reply waits, and is sent once every port is OFF. R431: POWER_STATE
PARKED in LOW ends self-refresh and LOW at its tick; its reply waits, and is sent once every quadrant has its clock
again. -/
def Obligations.LowEnteredAndLeft : Prop :=
  (∀ (h : Hdr) (s : State), s.dev.power = .parked → lowBusy s = false → s.memc.reqs = [] →
    ∃ t, exec (.powerState h true) s = .next t ∧ t.dev.power = .low ∧ t.dev.transition = some h ∧
      t.dev.lowCnt = satInc s.dev.lowCnt ∧ t.memc.selfRefresh = true ∧ t.dram = s.dram ∧ t.cfg = s.cfg) ∧
  (∀ (h : Hdr) (s : State), s.dev.power = .low → s.memc.selfRefresh = true → s.dev.transition = some h →
    (∀ n : Fin 64, (tileOf s n.val).port.state = .off ∧ (tileOf s n.val).port.bref = .off) →
    exec .lowReached s = .next (reply h 0x71 stOk [] { s with dev := { s.dev with transition := none } })) ∧
  (∀ (h : Hdr) (s : State), s.dev.power = .low →
    ∃ t, exec (.powerState h false) s = .next t ∧ t.dev.power = .parked ∧ t.dev.transition = some h ∧
      t.memc.selfRefresh = false ∧ t.dram = s.dram ∧ t.cfg = s.cfg) ∧
  (∀ (h : Hdr) (s : State), s.dev.power = .parked → s.dev.transition = some h →
    ∃ t, exec .lowExitDone s = .next t ∧ t.dev.transition = none ∧ t.dev.power = .parked ∧
      ∀ q : Fin 4, (quadOf s q.val).down = true → (quadOf t q.val).locked = true)

/-- R325: RESET_BLOCK on SPT and on an idle engine returns the block's registers to reset; on HOST with a frozen hold
buffer of the active set the record starts anew; on MEMC in PARKED no channel is trained and the masks are at their home
bits, unlocked; a type that does not accept it is REFUSED with no other effect. -/
def Obligations.BlocksReset : Prop :=
  ∀ (h : Hdr) (s : State), s.dev.power ≠ .off →
    exec (.resetBlock h 0x33 0) s = .next (reply h 0x72 stOk []
      { counted s with spt := { Spt.reset with selected := s.spt.selected } }) ∧
    (∀ e : Fin 96, (engOf s e.val).running = none → ∃ t, exec (.resetBlock h 0x41 (BitVec.ofNat 16 e.val)) s = .next t ∧
      t.dram = s.dram ∧ (engOf t e.val).abandonCnt = 0 ∧ (engOf t e.val).faultValid = false ∧
      (engOf t e.val).eccCorr = 0 ∧ ∀ d : Fin 96, d ≠ e → engOf t d.val = engOf s d.val) ∧
    (∀ b : Bank, activeSet s = some b → Bank.hasHold b = true →
      ∃ t, exec (.resetBlock h 0x11 0) s = .next t ∧ t.dram = s.dram ∧ t.cfg = s.cfg ∧ t.hold.state = .recording ∧
        t.hold.retained = [] ∧ t.hold.endSfn = 0 ∧ t.hold.delivering = false ∧ t.hold.incompleteCnt = 0) ∧
    (s.dev.power = .parked → ∃ t, exec (.resetBlock h 0x20 0) s = .next t ∧ t.memc.hash = hashReset ∧
      t.memc.mapLock = false ∧ t.memc.trained = false ∧ t.memc.frzCnt = 0 ∧
      ∀ n : Fin 8, (chOf t n.val).trained = false) ∧
    exec (.resetBlock h 0x12 0) s = .next (reply h 0x72 stRefused [] (counted s))


/-! ### Registers, the host link and the output streams -/

/-- R11, R13, R70, R285: outside a function-level reset a full-word write to TICK_STICKY clears the flags whose bit is
written 1 and no other; one with part of its bytes enabled and any access of an unimplemented offset are counted as
misses and change no register of TICK; a full read of an unimplemented offset returns zeros, and a read of TICK_SFN
with any bytes enabled returns those bytes and changes nothing; TICK_PARK_PERIOD takes a value from 10,000,000 to
1,000,000,000 and ignores another. -/
def Obligations.RegisterWrites : Prop :=
  ∀ s : State, s.dev.power ≠ .off → s.host.flr = false →
    (∀ v : Word, exec (.registerWrite 0x00013014 v 0xF) s = .next { s with tick := { s.tick with
      tableTouch := s.tick.tableTouch && !v.getLsbD 0, shadowDrop := s.tick.shadowDrop && !v.getLsbD 1,
      lateSeen := s.tick.lateSeen && !v.getLsbD 2, overrunSeen := s.tick.overrunSeen && !v.getLsbD 3 } }) ∧
    (∀ (v : Word) (be : BitVec 4), be ≠ 0xF → ∃ t, exec (.registerWrite 0x00013014 v be) s = .next t ∧
      t.tick = s.tick ∧ t.host.addrMiss = true ∧ t.host.missBar0 = satInc s.host.missBar0) ∧
    (∀ (a : Word) (w : Bool) (be : BitVec 4), bar0Implemented (wordAddr a) = false →
      ∃ t, exec (.bar0UnimplementedAccess a w be) s = .next t ∧ t.tick = s.tick ∧ t.cmdq = s.cmdq ∧ t.cfg = s.cfg ∧
        t.host.addrMiss = true ∧ t.host.missBar0 = satInc s.host.missBar0 ∧
        (s.host.addrMiss = false → t.host.missOfs = BitVec.ofNat 26 (wordAddr a) ∧ t.host.missWrite = w) ∧
        (w = false → be = 0xF → t.out.head? = some (.readData [0, 0, 0, 0]))) ∧
    (∀ be : BitVec 4, exec (.bar0UnimplementedAccess 0x00013004 false be) s = .next { s with
      out := .readData (((leBytes 4 s.tick.sfn.toNat).zipIdx.filter fun p => be.getLsbD p.2).map fun p => p.1) :: s.out }) ∧
    (∀ v : Word, exec (.tickParkPeriodWrite v) s = .next { s with tick := { s.tick with
      parkPeriod := if 10000000 ≤ v.toNat ∧ v.toNat ≤ 1000000000 then v else s.tick.parkPeriod } })

/-- R280, R283, R284, R286, R300: a write to configuration space that is ready, with no delivery under way, sets the
field it names and no other; a maximum payload code of 3 and a read request code above 5 are not taken, a BAR keeps the
address bits of its size, and bits of AER written 1 are cleared; before readiness and during a function-level reset
nothing is written. R289: bus mastering cleared under a delivery drops that frame. R282, R288, R300, R437: a link that
comes up shows its speed and width; a link down, a hot reset and a link disable take the link down, clear bus mastering,
the ring enable, the replies held and every pending vector, and leave one count of the event; a function-level reset
does the same with the link up and holds requests off until it completes. DRAM, the sets and the tick are not touched.
-/
def Obligations.LinkAndConfigurationSpace : Prop :=
  (∀ s : State,
     (∀ w : CfgSpaceWrite, (s.host.cfgReady = false ∨ s.host.flr = true) → exec (.configSpaceWrite w) s = .next s) ∧
     (s.host.cfgReady = true → s.host.linkUp = true → s.host.flr = false →
       (∀ m : Fin 32, (streamOf s m.val).delivery = none) →
       (∀ b, exec (.configSpaceWrite (.busMaster b)) s = .next { s with host := { s.host with bme := b } }) ∧
       (∀ b, exec (.configSpaceWrite (.memorySpace b)) s = .next { s with host := { s.host with mse := b } }) ∧
       (∀ b, exec (.configSpaceWrite (.msixEnable b)) s = .next { s with host := { s.host with msixEn := b } }) ∧
       (∀ b, exec (.configSpaceWrite (.functionMask b)) s = .next { s with host := { s.host with funcMask := b } }) ∧
       (∀ b, exec (.configSpaceWrite (.d3hot b)) s = .next { s with host := { s.host with d3hot := b } }) ∧
       (∀ b, exec (.configSpaceWrite (.relaxedOrdering b)) s = .next { s with host := { s.host with roEn := b } }) ∧
       (∀ c, exec (.configSpaceWrite (.maxPayload c)) s = .next { s with host := { s.host with
         mps := if c = 3 then s.host.mps else c } }) ∧
       (∀ c, exec (.configSpaceWrite (.maxReadRequest c)) s = .next { s with host := { s.host with
         mrrs := if 5 < c.toNat then s.host.mrrs else c } }) ∧
       (∀ g c, exec (.configSpaceWrite (.ecrc g c)) s = .next { s with host := { s.host with
         ecrcGen := g, ecrcCheck := c } }) ∧
       (∀ u c, exec (.configSpaceWrite (.aerStatus u c)) s = .next { s with host := { s.host with
         aerUncorr := s.host.aerUncorr &&& ~~~u, aerCorr := s.host.aerCorr &&& ~~~c } }) ∧
       (∀ a, exec (.configSpaceWrite (.bar0 a)) s = .next { s with host := { s.host with bar0 := a >>> 26 <<< 26 } }) ∧
       (∀ a, exec (.configSpaceWrite (.bar2 a)) s = .next { s with host := { s.host with bar2 := a >>> 36 <<< 36 } })) ∧
     (∀ m : Fin 32, s.host.cfgReady = true → s.host.linkUp = true → s.host.flr = false →
       (streamOf s m.val).delivery.isSome = true → (streamOpen s m.val).isSome = true →
       ∃ t, exec (.configSpaceWrite (.busMaster false)) s = .next t ∧ t.host.bme = false ∧
         (streamOf t m.val).delivery = none ∧ (streamOf t m.val).dropCnt = satInc (streamOf s m.val).dropCnt ∧
         (streamOf t m.val).prod = (streamOf s m.val).prod ∧ t.dram = s.dram)) ∧
  (∀ s : State,
     (∀ sp w, linkMode sp w = true → s.dev.released = true → s.host.linkUp = false → s.host.wasDown = false →
       exec (.linkUp sp w) s = .next { s with host := { s.host with linkUp := true, speed := sp, width := w } }) ∧
     (∀ c : Instr, c = .linkDown ∨ c = .hotReset ∨ c = .linkDisable →
       (s.host.linkUp = false → exec c s = .next s) ∧
       (s.host.linkUp = true → ∃ t, exec c s = .next t ∧ t.host.linkUp = false ∧ t.host.wasDown = true ∧
         t.host.bme = false ∧ t.host.pba = 0 ∧ t.host.linkDownSeen = true ∧ t.host.linkDownCnt = 1 ∧
         t.cmdq.enable = false ∧ t.cmdq.held = [] ∧ t.dram = s.dram ∧ t.cfg = s.cfg ∧ t.tick = s.tick)) ∧
     (s.host.linkUp = true → s.host.cfgReady = true → s.host.flr = false →
       ∃ t, exec .functionLevelReset s = .next t ∧ t.host.linkUp = true ∧ t.host.flr = true ∧ t.host.bme = false ∧
         t.host.pba = 0 ∧ t.cmdq.enable = false ∧ t.cmdq.held = [] ∧ t.dram = s.dram ∧ t.cfg = s.cfg ∧ t.tick = s.tick) ∧
     exec .flrComplete s = .next { s with host := { s.host with flr := false } } ∧
     (s.dev.released = true → exec .endpointReady s = .next { s with host := { s.host with cfgReady := true } }))

/-- R282: a change to another of the link's speeds and widths while it is up is shown, counted and flagged, and raises
one ADVISORY error with the present HOST_STATUS word; with the link down it does nothing. -/
def Obligations.LinkChangeCounted : Prop :=
  ∀ (sp : BitVec 3) (w : BitVec 5) (s : State),
    (s.host.linkUp = false → exec (.linkChange sp w) s = .next s) ∧
    (s.host.linkUp = true → linkMode sp w = true →
      let s' := { s with host := { s.host with
        speed := sp, width := w, linkChangeSeen := true, linkChangeCnt := satInc s.host.linkChangeCnt } }
      exec (.linkChange sp w) s = .next (raiseErr (mkErr 2 0x2B 0xFF (bits (hostStatus s'.host).toNat 8 1)
        (hostStatus s'.host)) s'))

/-- R297, R303: outside a function-level reset CONS takes a value that is not past PROD, and CONS_CUR, once its high half
is written, one at or below W; any other sets CONS_BAD and leaves the register. R297, R298: the delivery of a stream of
frame k−2 whose turn has come starts when its largest extent fits, and places that extent at W, and that of an EVENT
stream places none yet; without room, or while the device may not issue requests, the frame is dropped and counted, and
nothing is placed. R296, R299, R301: with the memory idle and no uncorrectable word read, a delivery of frame k−2 that
ends posts one entry: PROD goes on by one, DROP starts from 0, and the stream has no delivery; an EVENT delivery whose
emitters have ended posts in the same way and places its extent; the oldest retained hold frame's next part, when it
fits and its time has come, posts one entry and goes on through the record. None writes DRAM. "Past PROD" is judged in
the half range of 2^32, the model's choice (DEDUCED, log entry 151). -/
def Obligations.StreamsDeliver : Prop :=
  (∀ (m : Fin 32) (v : Word) (s : State), s.host.flr = false →
     let x := streamOf s m.val
     ((x.prod - v).toNat < 2 ^ 31 → exec (.hostStrConsWrite m v) s = .next { s with
       host := { s.host with streams := vmod s.host.streams m.val fun x => { x with cons := v } } }) ∧
     (2 ^ 31 ≤ (x.prod - v).toNat →
       exec (.hostStrConsWrite m v) s = .next { s with host := { s.host with consBad := true } }) ∧
     exec (.hostStrConsCurWrite m false v) s = .next { s with
       host := { s.host with streams := vmod s.host.streams m.val fun x => { x with consCurLo := v } } } ∧
     ((pair64 x.consCurLo v).toNat ≤ x.w.toNat → exec (.hostStrConsCurWrite m true v) s = .next { s with
       host := { s.host with streams := vmod s.host.streams m.val fun x =>
         { x with consCur := pair64 (streamOf s m.val).consCurLo v } } }) ∧
     (x.w.toNat < (pair64 x.consCurLo v).toNat →
       exec (.hostStrConsCurWrite m true v) s = .next { s with host := { s.host with consBad := true } })) ∧
  (∀ (m : Fin 32) (s : State) (b : Bank) (age : Nat) (f : Sfn), streamOpen s m.val = some (b, age, f) →
     (streamOf s m.val).delivery = none → (age = 1 ∨ lowerDone s m.val = true) →
     (canIssue s = true → streamFits s b m.val (fMax b m.val) = true → age ≠ 1 →
       exec (.deliveryStart m) s = .next { s with host := { s.host with streams := vmod s.host.streams m.val fun x => { x with
         delivery := some { sfn := f, start := (streamOf s m.val).w.toNat, len := fMax b m.val },
         w := x.w + BitVec.ofNat 64 (fMax b m.val) } } }) ∧
     (canIssue s = true → streamFits s b m.val (fMax b m.val) = true → age = 1 →
       exec (.deliveryStart m) s = .next { s with host := { s.host with streams := vmod s.host.streams m.val fun x => { x with
         delivery := some { sfn := f, start := (streamOf s m.val).w.toNat, len := 0 } } } }) ∧
     (canIssue s = false ∨ streamFits s b m.val (fMax b m.val) = false →
       exec (.deliveryStart m) s = .next { s with host := { s.host with
         dropSeen := true, streams := vmod s.host.streams m.val fun x => { x with
           dropSince := x.dropSince + 1, dropCnt := satInc x.dropCnt, doneNow := true } } })) ∧
  ((∀ (m : Fin 32) (s : State) (b : Bank) (age : Nat) (f : Sfn) (d : Delivery) (hits : List (Nat × EccHit)),
     streamOpen s m.val = some (b, age, f) → (streamOf s m.val).delivery = some d → canIssue s = true →
     memServes s = true → MemoryIdle s → Correctable hits → (age = 1 → emittersEnded s b = true) →
     ∃ t, exec (.deliveryEnd m hits) s = .next t ∧ (streamOf t m.val).prod = (streamOf s m.val).prod + 1 ∧
       (streamOf t m.val).dropSince = 0 ∧ (streamOf t m.val).delivery = none ∧
       (streamOf t m.val).w = (if age = 1 then (streamOf s m.val).w
         + BitVec.ofNat 64 (pad128 (128 + (eventPayload s b m.val).length)) else (streamOf s m.val).w) ∧
       (streamOf t m.val).doneNow = true ∧ t.dram = s.dram ∧ t.tick = s.tick) ∧
   (∀ (s : State) (b : Bank) (m : Fin 32) (f : HoldFrame) (hits : List (Nat × EccHit)), activeSet s = some b →
     holdStream b = some m.val → s.hold.retained[s.hold.retained.length - s.hold.toSend]? = some f →
     s.hold.delivering = true → s.hold.waitNow = false →
     (∀ j < 32, match streamOpen s j with | some (_, age, _) => age = 1 | none => True) → s.dev.power = .parked →
     memServes s = true → MemoryIdle s → Correctable hits →
     s.clock.now - s.clock.lastTick + 100000 ≤ s.tick.period.toNat → canIssue s = true →
     let rest := (framePieces s b f.no).drop s.hold.piecesSent
     let head := if s.hold.part = 0 then indexEntry f else []
     let n := partPieces (Bank.strParam b m.val) head.length rest
     let len := pad128 (128 + (head ++ (rest.take n).flatMap fun p => holdRead s b p.1 p.2).length)
     s.hold.sentNow + len ≤ Bank.strParam b m.val → streamFits s b m.val len = true →
     ∃ t, exec (.holdPart hits) s = .next t ∧ (streamOf t m.val).prod = (streamOf s m.val).prod + 1 ∧
       (streamOf t m.val).w = (streamOf s m.val).w + BitVec.ofNat 64 len ∧ t.hold.sentNow = s.hold.sentNow + len ∧
       t.hold.toSend = (if rest.length ≤ n then s.hold.toSend - 1 else s.hold.toSend) ∧
       t.hold.retained = s.hold.retained ∧ t.dram = s.dram))

/-! ### Supplies, resets, startup and the serial ports -/

/-- R23, R100, R475: a PLL that loses lock marks the frame being read of each of the quadrant's tiles, and one that
locks serves the quadrant again; a crossing of a lane that reads marks that tile OVERRUN; the supply and temperature
measurements show their values, and whether each supply lies within its limits. -/
def Obligations.QuadrantEvents : Prop :=
  (∀ (q : Fin 4) (s : State), ∃ t, exec (.pllUnlock q) s = .next t ∧ (quadOf t q.val).locked = false ∧
    t.dram = s.dram ∧ t.err = s.err ∧ ∀ i : Fin 64, i.val / 16 = q.val → (tileOf s i.val).lane.work.mode ≠ .idle →
      (tileOf s i.val).lane.work.row < 776 → (tileOf s i.val).lane.work.done = false →
      (tileOf t i.val).port.causeNow = setBit (tileOf s i.val).port.causeNow 0 ∧
      (tileOf t i.val).port.losSticky = setBit (tileOf s i.val).port.losSticky 0) ∧
  (∀ (q : Fin 4) (s : State), ∃ t, exec (.pllLock q) s = .next t ∧ (quadOf t q.val).locked = true ∧
    (quadOf t q.val).down = false ∧ t.dram = s.dram ∧ t.err = s.err) ∧
  (∀ (i : Fin 64) (s : State), (tileOf s i.val).lane.work.mode = .read → (tileOf s i.val).lane.work.done = false →
    ∃ t, exec (.crossing (.lane i)) s = .next t ∧ t.dram = s.dram ∧
      t.tick = { s.tick with crossLanes := s.tick.crossLanes ||| setBit 0 i.val }) ∧
  (∀ (mv : Vector (BitVec 16) 4) (s : State), s.dev.released = true → ∃ t, exec (.vddaMeasure mv) s = .next t ∧
    t.tick = s.tick ∧ ∀ q : Fin 4, (quadOf t q.val).mv = mv[q] ∧ (quadOf t q.val).supplyOk = some (vddaOk mv[q])) ∧
  (∀ (v : Vector Word 4) (s : State), s.dev.released = true → ∃ t, exec (.qtempMeasure v) s = .next t ∧
    t.tick = s.tick ∧ ∀ q : Fin 4, (quadOf t q.val).temp = v[q])

/-- R288, R399, R429, R435, R436, R443: PERST, RESET_N, a brownout and a supply loss bring the device to OFF with no
set and no content of DRAM defined, and note their cause; the keeping array stays, and the commands that wait outside.
A supply loss after the journal's marker keeps the page of the write in the journal. -/
def Obligations.FundamentalResets : Prop :=
  (∀ (c : Instr) (i : Nat) (s : State),
    (c = .perstAssert ∧ i = 3 ∨ c = .resetNAssert ∧ i = 2 ∨ c = .brownout ∧ i = 1) →
    ∃ t, exec c s = .next t ∧ t.dev.power = .off ∧ t.dev.phase = .rom ∧ t.dev.released = false ∧
      t.dev.pend = setBit s.dev.pend i ∧ t.dram = { cells := [], epoch := s.dram.epoch + 1 } ∧
      t.cfg = State.reset.cfg ∧ t.tick = State.reset.tick ∧ t.keep.array = s.keep.array ∧ t.keep.bp = s.keep.bp ∧
      t.keep.queue = [] ∧ t.pending = s.pending) ∧
  (∀ s : State, ∃ t, exec (.supplyLoss .none) s = .next t ∧ t.dev.power = .off ∧ t.dev.pend = 1 ∧ t.dev.coreOk = false ∧
    t.cfg = State.reset.cfg ∧ t.dram = { cells := [], epoch := s.dram.epoch + 1 } ∧ t.keep.array = s.keep.array ∧
    t.keep.settled = s.keep.settled ∧ t.pending = s.pending) ∧
  (∀ (s : State) (b : KeepBusy) (p : Nat × List Byte), s.keep.current = some b → b.now = some p → p.1 ≠ statusPage →
    ∃ t, exec (.supplyLoss .marked) s = .next t ∧ t.keep.settled = false ∧ t.keep.jMarker = true ∧ t.keep.jGood = true ∧
      t.keep.jData = p.2 ∧ t.keep.array = s.keep.array)

/-- R437, R438, R440 to R442: the release after settlement samples BOOTSEL and starts from flash or waits for the
host; outside a function-level reset a full word reaches the load window while the device waits, and is dropped
otherwise; GO starts the check; an image that passes starts the firmware with SFN 0, PARKED and training; one that
fails with BOOTSEL 0 shows its cause and waits for the host. -/
def Obligations.StartupRuns : Prop :=
  (∀ (bs : BitVec 2) (s : State), s.dev.released = false → s.keep.settled = true → s.keep.current = none →
    ∃ t, exec (.resetRelease bs) s = .next t ∧ t.dev.released = true ∧ t.dev.bootsel = bs ∧ t.dev.pend = 0 ∧
      t.dev.phase = (if bs.getLsbD 0 then .hostWait else .flash) ∧ t.dev.perstCause = s.dev.pend.getLsbD 3 ∧
      t.dev.porCause = s.dev.pend.getLsbD 0 ∧ t.dev.power = s.dev.power) ∧
  (∀ (ofs v : Word) (s : State),
    (s.dev.phase = .hostWait →
      (s.host.flr = false → exec (.firmwareWindowWrite ofs v) s = .next { s with dev := { s.dev with
        fwWindow := writeCells zeroByte s.dev.fwWindow (ofs.toNat % 16777216 / 4 * 4) (leBytes 4 v.toNat) } }) ∧
      exec .fwGo s = .next { s with dev := { s.dev with phase := .verify } }) ∧
    (s.dev.phase ≠ .hostWait →
      (s.host.flr = false → exec (.firmwareWindowWrite ofs v) s = .next { s with dev := { s.dev with fwDrop := true } }) ∧
      exec .fwGo s = .next { s with dev := { s.dev with fwDrop := true } })) ∧
  (∀ (l : List Byte) (k g : Bool) (s : State), s.dev.released = true → s.dev.phase = .flash →
    (bootFault l k g = 0 → ∃ t, exec (.firmwareCheckEnd l k g) s = .next t ∧ t.dev.power = .parked ∧
      t.dev.phase = .train ∧ t.dev.fromHost = false ∧ t.tick.running = true ∧ t.tick.sfn = 0 ∧ t.clock = Clock.reset) ∧
    (bootFault l k g ≠ 0 → s.dev.bootsel = 0 → ∃ t, exec (.firmwareCheckEnd l k g) s = .next t ∧
      t.dev.phase = .hostWait ∧ t.dev.failCause = BitVec.ofNat 3 (bootFault l k g) ∧ t.dev.power = s.dev.power ∧
      t.tick = s.tick))

/-- R380 to R383, R388: GO on a released select with a word to send asserts it and sends the first word; a word that
ends is received and counted, and the transfer goes on or, with no word left and no hold, releases the select; POP
drops the oldest word received, TXDATA adds one of at most 16 words; ABORT at a boundary ends the transfer. R386,
R387: a WRITE frame of an aligned address writes its whole words in turn and counts a partial one; a READ frame fills
the buffer and sets DONE; a FETCH frame sends the status word and the buffer; a frame with a bad command or none is
counted and does nothing else. -/
def Obligations.SerialPortsRun : Prop :=
  (∀ s : State, s.dev.power ≠ .off →
     (∀ (sel : BitVec 4) (hold : Bool) (n : BitVec 16) (w : Word) (r : List Word), s.spc.asserted = false →
       s.spc.tx = w :: r → s.spc.rx.length < 16 →
       exec (.spcGo sel hold n) s = .next { s with
         spc := { s.spc with busy := true, asserted := true, sel := sel, hold := hold, left := n.toNat + 1,
                             aborting := false, tx := r, stalled := false },
         out := .spcWord (word (maskBits (spcBits s sel.toNat) w.toNat)) :: s.out }) ∧
     (∀ rx : Word, s.spc.asserted = true → s.spc.left = 1 → s.spc.stalled = false → s.spc.resetting = false →
       s.spc.aborting = false → s.spc.hold = false →
       ∃ t, exec (.spcWordEnd rx) s = .next t ∧ t.spc.asserted = false ∧ t.spc.busy = false ∧
         t.spc.rx = s.spc.rx ++ [word (maskBits (spcBits s s.spc.sel.toNat) rx.toNat)] ∧
         t.spc.doneCnt = satInc s.spc.doneCnt ∧ t.out = .spcRelease s.spc.sel.toNat :: s.out) ∧
     (∀ (w : Word) (r : List Word), s.spc.asserted = true → 0 < s.spc.left → s.spc.stalled = true → s.spc.tx = w :: r →
       s.spc.rx.length < 16 → exec .spcResume s = .next { s with
         spc := { s.spc with tx := r, stalled := false },
         out := .spcWord (word (maskBits (spcBits s s.spc.sel.toNat) w.toNat)) :: s.out }) ∧
     (s.spc.asserted = true → s.spc.stalled = true → ∃ t, exec .spcAbort s = .next t ∧ t.spc.asserted = false ∧
       t.spc.busy = false ∧ t.spc.tx = s.spc.tx.drop s.spc.left ∧ t.spc.rx = s.spc.rx ∧
       t.spc.abortedCnt = satAdd s.spc.abortedCnt s.spc.left) ∧
     exec .spcPop s = .next { s with spc := { s.spc with rx := s.spc.rx.tail } } ∧
     (∀ v : Word, s.host.flr = false → exec (.spcTxdataWrite v) s = .next { s with spc := if s.spc.tx.length < 16
       then { s.spc with tx := s.spc.tx ++ [v] } else { s.spc with txDrop := true } })) ∧
  (∀ s : State, s.dev.released = true →
     (∀ (cmd : Word) (ws : List Word), sptAddr cmd % 4 = 0 →
       let u := writeWords (sptAddr cmd) (ws.take (sptCount cmd)) s
       exec (.sptWrite cmd ws false) s = .next u ∧
       (ws.length < sptCount cmd →
         exec (.sptWrite cmd ws true) s = .next { u with spt := { u.spt with framing := satInc u.spt.framing } })) ∧
     (∀ (cmd : Word), sptAddr cmd % 4 = 0 → ∃ t, exec (.sptRead cmd) s = .next t ∧ t.spt.done = true ∧
       t.spt.buffer = (sptReadWords (sptCount cmd) (sptAddr cmd) s).1 ∧ t.spt.words = BitVec.ofNat 5 (sptCount cmd) ∧
       t.tick = s.tick ∧ t.cfg = s.cfg ∧ t.dram = s.dram) ∧
     (∀ (cmd : Word), sptAddr cmd % 4 = 0 → s.spt.done = true → exec (.sptFetch cmd) s = .next { s with
       out := .sptWords (sptStatus s.spt :: (List.range (sptCount cmd)).map fun i => s.spt.buffer.getD i 0) :: s.out }) ∧
     exec (.sptBadFrame none) s = .next { s with spt := { s.spt with framing := satInc s.spt.framing } } ∧
     (∀ (cmd : Word), sptAddr cmd % 4 ≠ 0 → exec (.sptBadFrame (some cmd)) s = .next { s with
       spt := { s.spt with badcmd := satInc s.spt.badcmd } }))


/-! ### Tile ports, lanes, calibration, coils, engines, housekeeping -/

/-- R80, R81, R83: the end of the BREF ramp starts the pixel clock unless the quadrant is powered down; the end of the
preparation time makes a prepared port READY, or IMAGING with CB from the pixel DACs while the device images, and the
timeout of one not prepared makes it FAULT with cause 6; the ramp down ends with BREF off. DRAM stays. R97, R100, R101: an
overcurrent of the counter bias on a live port, or a fault of BREF held at its code, stands as cause 4 or 5 from the
frame in progress on and asks for FAULT at the next tick; UNMASK asks to take effect at the next tick. -/
def Obligations.PortsPrepareAndFault : Prop :=
  (∀ (i : Fin 64) (s : State),
     ((tileOf s i.val).port.state = .prepare → (tileOf s i.val).port.bref = .rampUp →
       ∃ t, exec (.brefRampEnd i) s = .next t ∧ (tileOf t i.val).port.bref = .atCode ∧ t.dram = s.dram ∧
         (tileOf t i.val).port.pclk = ((tileOf s i.val).port.pclk || !(quadOf s (i.val / 16)).down) ∧
         ∀ j : Fin 64, j ≠ i → tileOf t j.val = tileOf s j.val) ∧
     ((tileOf s i.val).port.bref = .rampDown → ∃ t, exec (.brefRampDownEnd i) s = .next t ∧
       (tileOf t i.val).port = { (tileOf s i.val).port with bref := .off } ∧ t.dram = s.dram) ∧
     (prepareDue s i.val = true → ∃ t, exec (.prepareEnd i) s = .next t ∧ t.dram = s.dram ∧
       (tileOf t i.val).port.state = (if s.tick.imaging then .imaging else .ready) ∧
       (s.tick.imaging = true → (tileOf t i.val).port.cb = .pixel ∧ (tileOf t i.val).port.repreparing = false)) ∧
     (prepLate s i.val = true → ∃ t, exec (.prepTimeout i) s = .next t ∧ t.dram = s.dram ∧
       (tileOf t i.val).port.state = .fault ∧ (tileOf t i.val).port.bref = .off ∧ (tileOf t i.val).port.pclk = false ∧
       (tileOf t i.val).port.causeStand = setBit (tileOf s i.val).port.causeStand 6)) ∧
  (∀ (i : Fin 64) (s : State),
     (portLive (tileOf s i.val).port = true → ∃ t, exec (.cbOvc i) s = .next t ∧ t.dram = s.dram ∧
       (tileOf t i.val).port = { (tileOf s i.val).port with
         causeNow := setBit (tileOf s i.val).port.causeNow 4, causeStand := setBit (tileOf s i.val).port.causeStand 4,
         losSticky := setBit (tileOf s i.val).port.losSticky 4, faultNext := true }) ∧
     (portLive (tileOf s i.val).port = true → (tileOf s i.val).port.bref = .atCode →
       ∃ t, exec (.brefFault i) s = .next t ∧ t.dram = s.dram ∧
         (tileOf t i.val).port = { (tileOf s i.val).port with
           causeNow := setBit (tileOf s i.val).port.causeNow 5, causeStand := setBit (tileOf s i.val).port.causeStand 5,
           losSticky := setBit (tileOf s i.val).port.losSticky 5, faultNext := true }) ∧
     (portLive (tileOf s i.val).port = false → exec (.cbOvc i) s = .next s ∧ exec (.brefFault i) s = .next s) ∧
     (∃ t, exec (.unmask i) s = .next t ∧ t.dram = s.dram ∧
       (tileOf t i.val).port = { (tileOf s i.val).port with unmaskNext := true }))

/-- R90, R91, R94: a host read of a READY or IMAGING port is pending, and one of a port that is off or in fault ends at
once without success; on an idle READY port with no retry due it sends the read command; an answer whose CRC checks ends
it with its data, and one that does not is kept for a retry while the set allows retries, in IMAGING for a later window,
and ends it without success after that. R81: in PREPARE, 64 pixel clocks after the clock's start, the next entry of the
list is written, and a line that is low sends nothing. -/
def Obligations.HostReadRuns : Prop :=
  (∀ (i : Fin 64) (s : State),
    (∀ a : BitVec 6, (tileOf s i.val).port.hostPending = false →
      (((tileOf s i.val).port.state = .off ∨ (tileOf s i.val).port.state = .fault) →
        ∃ t, exec (.tcfgHostGo i a) s = .next t ∧ (tileOf t i.val).port = { (tileOf s i.val).port with
          hostAddr := a, hostDone := true, hostOk := false }) ∧
      (((tileOf s i.val).port.state = .ready ∨ (tileOf s i.val).port.state = .imaging) →
        ∃ t, exec (.tcfgHostGo i a) s = .next t ∧ (tileOf t i.val).port = { (tileOf s i.val).port with
          hostAddr := a, hostReq := a, hostPending := true, hostDone := false, hostOk := false })) ∧
    ((tileOf s i.val).port.state = .ready → (tileOf s i.val).port.trans = none →
      (tileOf s i.val).port.retryDue = [] → (tileOf s i.val).port.hostPending = true →
      ∃ t, exec (.tcfgTransactionStart i false) s = .next t ∧
        (tileOf t i.val).port.trans = some { kind := .host, retries := 0, lineFault := false, unjudged := false } ∧
        t.out = .tcfg i.val (tcfgCommand 1 (tileOf s i.val).port.hostReq.toNat 0) :: s.out) ∧
    (∀ (ans : BitVec 24) (n : Nat), (tileOf s i.val).port.trans = some {
        kind := .host, retries := n, lineFault := false, unjudged := false } →
      (∀ d, readAnswer ans = some d → ∃ t, exec (.tcfgTransactionEnd i ans) s = .next t ∧
        (tileOf t i.val).port = { (tileOf s i.val).port with
          trans := none, hostPending := false, hostDone := true, hostOk := true, hostData := BitVec.ofNat 16 d }) ∧
      (readAnswer ans = none → n < tcfgRetries s i.val → ∃ t, exec (.tcfgTransactionEnd i ans) s = .next t ∧
        ((tileOf s i.val).port.state ≠ .imaging → (tileOf t i.val).port = { (tileOf s i.val).port with
          trans := none, retryDue := (tileOf s i.val).port.retryDue ++
            [{ kind := .host, retries := n + 1, lineFault := false, unjudged := false }] }) ∧
        ((tileOf s i.val).port.state = .imaging → (tileOf t i.val).port = { (tileOf s i.val).port with
          trans := none, retryLater := (tileOf s i.val).port.retryLater ++
            [{ kind := .host, retries := n + 1, lineFault := false, unjudged := false }] })) ∧
      (readAnswer ans = none → tcfgRetries s i.val ≤ n → (tileOf s i.val).port.hostPending = true →
        ∃ t, exec (.tcfgTransactionEnd i ans) s = .next t ∧ (tileOf t i.val).port = { (tileOf s i.val).port with
          trans := none, failCnt := satInc (tileOf s i.val).port.failCnt, hostPending := false, hostDone := true,
          hostOk := false }))) ∧
  (∀ (i : Fin 64) (low : Bool) (s : State), (tileOf s i.val).port.state = .prepare → (tileOf s i.val).port.trans = none →
    (tileOf s i.val).port.pclk = true → (tileOf s i.val).port.prepDone = false → (tileOf s i.val).port.faultNext = false →
    (tileOf s i.val).port.clkAt + pixelClocks s 64 ≤ s.clock.now → (tileOf s i.val).port.retryDue = [] →
    (tileOf s i.val).port.entry < nTcfg s i.val → (tileOf s i.val).port.verify = false →
    ∃ t, exec (.tcfgTransactionStart i low) s = .next t ∧ (tileOf t i.val).port.trans = some {
        kind := .listWrite (tileOf s i.val).port.entry, retries := 0, lineFault := low, unjudged := false } ∧
      t.out = (if low then s.out
        else .tcfg i.val (tcfgWord s i.val (.listWrite (tileOf s i.val).port.entry)) :: s.out))

/-- R75, R130, R145, R149: with the memory idle and no uncorrectable word read, a row that the lane reads takes it to the
next row, a row of a placeholder frame writes 0xFFFF in every pixel of its slot's row, and after its last row the frame
ends once; a row that finds the row buffer full stops a lane that reads and marks the frame OVERRUN; at its deadline a
frame ends OVERRUN. No row touches a set. R120, R121, R126: the blanking work of a READY port with its pixel clock holds
the factors of both taps for the next tick, an injection within its limits giving OFS and GAIN and one outside them a
rejection; it is done once a period, and W, the factors in force and DRAM stay. -/
def Obligations.LanesAndBlankingRun : Prop :=
  (∀ (i : Fin 64) (s : State) (b : Bank) (hits : List (Nat × EccHit)), activeSet s = some b →
     (tileOf s i.val).lane.work.done = false → MemoryIdle s → Correctable hits →
     (∀ (ca cb : List (BitVec 16)) (ra rb : BitVec 16) (ts full : Bool) (late : List Nat),
       (tileOf s i.val).port.state = .fault → (tileOf s i.val).lane.work.mode = .placeholder →
       (tileOf s i.val).lane.work.stopped = false → (tileOf s i.val).lane.work.row < 776 →
       ∃ t, exec (.laneRow i ca cb ra rb ts late full hits) s = .next t ∧ t.cfg = s.cfg ∧ t.tick = s.tick ∧
         t.dram = (writeRow (corrAddr b (s.cfg.n % Bank.nCorr b) i.val (tileOf s i.val).lane.work.row) 2
           (List.replicate 1024 0xFFFF) s).dram ∧
         (tileOf t i.val).lane.work.row = (tileOf s i.val).lane.work.row + 1) ∧
     (∀ (ca cb : List (BitVec 16)) (ra rb : BitVec 16) (ts : Bool) (late : List Nat),
       (tileOf s i.val).lane.work.mode = .read → (tileOf s i.val).lane.work.stopped = false →
       (tileOf s i.val).lane.work.row < 776 →
       (∃ t, exec (.laneRow i ca cb ra rb ts late false hits) s = .next t ∧ t.cfg = s.cfg ∧ t.tick = s.tick ∧
         (tileOf t i.val).lane.work.row = (tileOf s i.val).lane.work.row + 1) ∧
       (∃ t, exec (.laneRow i ca cb ra rb ts late true hits) s = .next t ∧ t.dram = s.dram ∧ t.cfg = s.cfg ∧
         (tileOf t i.val).lane.work.stopped = true ∧ (tileOf t i.val).lane.work.overrun = true ∧
         (tileOf t i.val).lane.tblLate = satInc (tileOf s i.val).lane.tblLate)) ∧
     ((tileOf s i.val).lane.work.mode ≠ .idle → (tileOf s i.val).lane.work.stopped = false →
       776 ≤ (tileOf s i.val).lane.work.row →
       ∃ t, exec (.laneFrameEnd i hits) s = .next t ∧ t.cfg = s.cfg ∧ t.tick = s.tick ∧
         (tileOf t i.val).lane.work.done = true ∧ (tileOf t i.val).cal.frameDone = true ∧
         (tileOf t i.val).lane.status = statusByte s i.val (endCauses s i.val).1
           ((tileOf s i.val).lane.work.overrun || s.tick.crossLanes.getLsbD i.val)) ∧
     ((tileOf s i.val).lane.work.mode ≠ .idle →
       ∃ t, exec (.laneDeadline i) s = .next t ∧ t.cfg = s.cfg ∧ t.tick = s.tick ∧
         (tileOf t i.val).lane.work.done = true ∧ (tileOf t i.val).lane.work.overrun = true ∧
         (tileOf t i.val).lane.status.getLsbD 6 = true ∧ (tileOf t i.val).lane.status.getLsbD 0 = false)) ∧
  (∀ (i : Fin 64) (la ha lb hb th : List (BitVec 16)) (s : State), (tileOf s i.val).port.state = .ready →
     (tileOf s i.val).port.pclk = true → (tileOf s i.val).rdo.blankDone = false →
     ∃ t, exec (.blankingWorkEnd i la ha lb hb th []) s = .next t ∧ t.dram = s.dram ∧ t.cfg = s.cfg ∧
       (tileOf t i.val).rdo.blankDone = true ∧
       (∀ b : Bool, (tapOf (tileOf t i.val) b).w = (tapOf (tileOf s i.val) b).w ∧
         (tapOf (tileOf t i.val) b).ofs = (tapOf (tileOf s i.val) b).ofs ∧
         (tapOf (tileOf t i.val) b).gain = (tapOf (tileOf s i.val) b).gain) ∧
       (∀ (b : Bool) (o g : Int), injection (if b then lb else la) (if b then hb else ha) = some (o, g) →
         (tapOf (tileOf t i.val) b).injOk = true ∧
         (tapOf (tileOf t i.val) b).held = some (BitVec.ofInt 32 o, BitVec.ofInt 32 g)) ∧
       (∀ b : Bool, injection (if b then lb else la) (if b then hb else ha) = none →
         (tapOf (tileOf t i.val) b).injOk = false ∧
         (tapOf (tileOf t i.val) b).held = (tapOf (tileOf s i.val) b).held))

/-- R166, R167: an idle imaging tile whose period has come is due; the hold-off's end lets the other triggers apply; a
requested or due tile that may start enters CLOSE with this frame as its first and asks its coil to close. R157 to R165:
the end of the accumulation enters COMPUTE and asks the coil to open, or with too many poisoned pixels abandons the
calibration with cause 6; the end of COMPUTE enters OPEN; the end of the traverse completes the calibration, the O region
and the target exchanging roles; a close or an open that the image does not confirm abandons it, and so does the end of an
OPEN phase that follows an abandonment, the O region staying. -/
def Obligations.CalibrationRuns : Prop :=
  (∀ (i : Fin 64) (s : State),
     (duePeriod s i.val = true → (tileOf s i.val).port.state = .imaging → (tileOf s i.val).cal.phase = .idle →
       ∃ t, exec (.calDue i) s = .next t ∧ t.dram = s.dram ∧ t.shut = s.shut ∧ (tileOf t i.val).cal.due = true) ∧
     (∃ t, exec (.abandonHoldoffEnd i) s = .next t ∧ t.dram = s.dram ∧ t.shut = s.shut ∧
       (heldOff s i.val = false → (tileOf t i.val).cal.holdoff = false)) ∧
     ((tileOf s i.val).cal.requested = true ∨ ((tileOf s i.val).cal.due = true ∧ calEn s i.val = true) →
       calCanStart s i.val = true →
       ∃ t, exec (.calStart i) s = .next t ∧ t.dram = s.dram ∧ (tileOf t i.val).cal.phase = .close ∧
         (tileOf t i.val).cal.index = 0 ∧ (tileOf t i.val).cal.firstHeld = s.tick.sfn ∧
         (tileOf t i.val).cal.slot = freeSlot s ∧
         (coilOf t i.val).requests = (coilOf s i.val).requests ++ [{ close := true, move := none }])) ∧
  (∀ (i : Fin 64) (s : State),
     (calMove s i.val = .compute → ∃ t, exec (.accumEnd i) s = .next t ∧ (tileOf t i.val).cal.phase = .compute ∧
       (tileOf t i.val).lane.o = (tileOf s i.val).lane.o ∧
       (coilOf t i.val).requests = (coilOf s i.val).requests ++ [{ close := false, move := none }]) ∧
     (calMove s i.val = .abandon 6 → ∃ t, exec (.accumEnd i) s = .next t ∧ (tileOf t i.val).cal.phase = .open ∧
       (tileOf t i.val).cal.abandoning = true ∧ (tileOf t i.val).cal.causeNext = 6 ∧
       (tileOf t i.val).lane.o = (tileOf s i.val).lane.o) ∧
     (calMove s i.val = .open → ∃ t, exec (.computeEnd i) s = .next t ∧ (tileOf t i.val).cal.phase = .open ∧
       (tileOf t i.val).cal.index = 0 ∧ (tileOf t i.val).lane.o = (tileOf s i.val).lane.o) ∧
     (calMove s i.val = .finish → ∃ t, exec (.traverseEnd i) s = .next t ∧ (tileOf t i.val).cal.phase = .idle ∧
       (tileOf t i.val).lane.o = (tileOf s i.val).cal.target ∧ (tileOf t i.val).cal.target = (tileOf s i.val).lane.o ∧
       (tileOf t i.val).cal.doneCnt = satInc (tileOf s i.val).cal.doneCnt ∧ t.keep.array = s.keep.array) ∧
     (calMove s i.val = .abandon 1 → ∃ t, exec (.closeUnconfirmed i) s = .next t ∧
       (tileOf t i.val).cal.phase = .open ∧ (tileOf t i.val).cal.abandoning = true ∧
       (tileOf t i.val).cal.causeNext = 1 ∧ (tileOf t i.val).lane.o = (tileOf s i.val).lane.o) ∧
     (calMove s i.val = .openUnconfirmed → ∃ t, exec (.openUnconfirmed i) s = .next t ∧
       (tileOf t i.val).cal.phase = .idle ∧ (tileOf t i.val).cal.lastCause = 2 ∧
       (tileOf t i.val).lane.o = (tileOf s i.val).lane.o ∧
       (tileOf t i.val).cal.abandCnt = satInc (tileOf s i.val).cal.abandCnt) ∧
     (calMove s i.val = .idleAfter true → ∃ t, exec (.openUnconfirmed i) s = .next t ∧
       (tileOf t i.val).cal.phase = .idle ∧ (tileOf t i.val).cal.lastCause = (tileOf s i.val).cal.causeNext ∧
       (tileOf t i.val).lane.o = (tileOf s i.val).lane.o))

/-- R177 to R183, R185: a WAIT coil that may start enters PULLIN; a moved or suspended one whose time is over enters
HOLD; one whose codes never reached the threshold, or that did not move and has no retry left, latches its fault, and its
release begins at the next instant of the grid; one that did not move and has a retry left is released at once; a release
ends in OPEN, GAP, WAIT or FAULT; a gap ends in WAIT; and a cleared fault is marked to go at the next tick. R174, R177:
each instant of the grid is counted, shows the sense code of every group, and, from 1 µs after the tick on, leaves no
request of a coil untaken. Tiles and DRAM stay. -/
def Obligations.CoilsRun : Prop :=
  (∀ (i : Fin 64) (s : State),
     (mayStart s i.val = true → ∃ t, exec (.pullinStart i) s = .next t ∧ (coilOf t i.val).state = .pullin ∧
       t.shut.lastPullin = some s.shut.sample ∧ t.tiles = s.tiles ∧ t.dram = s.dram) ∧
     ((coilOf s i.val).state = .pullin → (coilOf s i.val).moved = true ∨ (coilOf s i.val).suspended = true →
       2 * pullinUs s (i.val / 4) < (coilOf s i.val).n →
       ∃ t, exec (.pullinEnd i) s = .next t ∧ (coilOf t i.val).state = .hold ∧ (coilOf t i.val).newResult = true ∧
         t.tiles = s.tiles ∧ t.dram = s.dram) ∧
     ((coilOf s i.val).state = .pullin → (coilOf s i.val).suspended = false → (coilOf s i.val).opened = false →
       (coilOf s i.val).releaseAfter = false → 2 * openUs s (i.val / 4) < (coilOf s i.val).n → (coilOf s i.val).fault = 0 →
       ∃ t, exec (.openCoil i) s = .next t ∧ (coilOf t i.val).releaseAfter = true ∧ (coilOf t i.val).fault = 4 ∧
         (coilOf t i.val).faultCnt = satInc (coilOf s i.val).faultCnt ∧ t.tiles = s.tiles ∧ t.dram = s.dram) ∧
     ((coilOf s i.val).state = .pullin → (coilOf s i.val).suspended = false → (coilOf s i.val).moved = false →
       (coilOf s i.val).releaseAfter = false →
       min (2 * dipEndUs s (i.val / 4) + 1) (2 * pullinUs s (i.val / 4)) < (coilOf s i.val).n →
       ((coilOf s i.val).retry.toNat < shutRetries s (i.val / 4) → ∃ t, exec (.noMove i) s = .next t ∧
         (coilOf t i.val).state = .release ∧ (coilOf t i.val).retryAfter = true ∧ (coilOf t i.val).result = 2 ∧
         (coilOf t i.val).retry = satInc (coilOf s i.val).retry ∧ (coilOf t i.val).fault = (coilOf s i.val).fault ∧
         t.tiles = s.tiles ∧ t.dram = s.dram) ∧
       (shutRetries s (i.val / 4) ≤ (coilOf s i.val).retry.toNat → (coilOf s i.val).fault = 0 →
         ∃ t, exec (.noMove i) s = .next t ∧ (coilOf t i.val).releaseAfter = true ∧ (coilOf t i.val).fault = 1 ∧
           (coilOf t i.val).faultCnt = satInc (coilOf s i.val).faultCnt ∧ t.tiles = s.tiles ∧ t.dram = s.dram)) ∧
     ((coilOf s i.val).state = .release → 2 * releaseUs s (i.val / 4) ≤ (coilOf s i.val).n →
       ∃ t, exec (.releaseEnd i) s = .next t ∧ t.tiles = s.tiles ∧ t.dram = s.dram ∧
         (coilOf t i.val).state = (if (coilOf s i.val).fault ≠ 0 then .fault else if (coilOf s i.val).retryAfter then .gap
           else if (coilOf s i.val).closeAgain then .wait else .open)) ∧
     ((coilOf s i.val).state = .gap → 2 * retryGapUs s (i.val / 4) ≤ (coilOf s i.val).n →
       ∃ t, exec (.gapEnd i) s = .next t ∧ (coilOf t i.val).state = .wait ∧ t.tiles = s.tiles ∧ t.dram = s.dram) ∧
     (∀ (m : Word), ∃ t, exec (.shutFaultClr (decide (32 ≤ i.val)) m) s = .next t ∧ t.tiles = s.tiles ∧ t.dram = s.dram ∧
       (coilOf t i.val).clearNext = ((coilOf s i.val).clearNext || m.getLsbD (i.val % 32)) ∧
       (coilOf t i.val).fault = (coilOf s i.val).fault)) ∧
  (∀ (codes : List (BitVec 12)) (s : State), ∃ t, exec (.senseSample codes) s = .next t ∧ t.tiles = s.tiles ∧
     t.dram = s.dram ∧ t.shut.sample = s.shut.sample + 1 ∧
     (∀ g : Fin 16, (groupOf t g.val).raw = codes.getD g.val 0) ∧
     (∀ i : Fin 64, (coilOf s i.val).releaseAfter = true → (coilOf s i.val).faultAfter = false →
       (coilOf s i.val).state = .pullin → (coilOf t i.val).state = .release) ∧
     (s.clock.lastTick + 1000 ≤ s.clock.now → ∀ i : Fin 64, (coilOf t i.val).requests = []))

/-- R42, R194, R213: a slot whose barrier is complete starts on its idle engine at the first pass that runs an operator;
its end, once every operator has ended, finishes it. R214: at the stop point every slot not ended is abandoned, and its
engine is stopped. R215: an uncorrectable error of local memory and an error of a LOAD's or STORE's access fault the running
slot, with the memory idle. R191, R194: an operator that neither loads nor stores and finds no error computes into local
memory alone; a LOAD fills local memory and a STORE writes DRAM, with the memory serving and idle and no uncorrectable
word read; the engine goes on to the operator after it in its pass, to the next pass that runs one, or has ended its
operators. -/
def Obligations.EnginesRun : Prop :=
  ((∀ (e : Fin 96) (s : State) (b : Bank) (i : Nat), engineSet s = some b → nextSlot s b e.val = some i →
     s.eng.active = true → (engOf s e.val).running = none → (engOf s e.val).stopped = false →
     barrierDone s b (Bank.slotWait b i) = true →
     ∃ t, exec (.slotStart e) s = .next t ∧ t.dram = s.dram ∧ t.eng = s.eng ∧ (engOf t e.val).running = some i ∧
       (engOf t e.val).slotReg = BitVec.ofNat 12 i ∧
       match passFrom b i 0 with
       | some (p, j) => (engOf t e.val).pass = p ∧ (engOf t e.val).op = j ∧ (engOf t e.val).opsEnded = false
       | none => (engOf t e.val).opsEnded = true) ∧
   (∀ (e : Fin 96) (s : State) (b : Bank) (i : Nat), engineSet s = some b → (engOf s e.val).running = some i →
     (engOf s e.val).opsEnded = true →
     ∃ t, exec (.slotEnd e) s = .next t ∧ t.eng.fates = s.eng.fates ++ [(i, .finished)] ∧ t.dram = s.dram ∧
       (engOf t e.val).running = none ∧ (engOf t e.val).finishNow = s.clock.now - s.clock.lastTick) ∧
   (∀ (e : Fin 96) (s : State) (b : Bank) (i : Nat) (check : LmemCheck) (hits : List (Nat × EccHit)),
     engineSet s = some b → (engOf s e.val).running = some i → (engOf s e.val).opsEnded = false →
     slotEnded s i = false → Bank.slotEng b i = e.val → MemoryIdle s →
     (check = .uncorrectable ∨ (check = .dmaError ∧
       ((opCtx s b e.val i).o.isLoad = true ∨ (opCtx s b e.val i).o.isStore = true))) →
     ∃ t, exec (.operatorEnd e check hits) s = .next t ∧ t.dram = s.dram ∧ (engOf t e.val).running = none ∧
       slotEnded t i = true ∧ (engOf t e.val).faultSeen = true ∧
       (engOf t e.val).eccUncorr = (if check = .uncorrectable then satInc (engOf s e.val).eccUncorr
         else (engOf s e.val).eccUncorr) ∧
       ((engOf s e.val).faultValid = false → (engOf t e.val).faultSlot = BitVec.ofNat 12 i ∧
         (engOf t e.val).faultCause = if check = .uncorrectable then 1 else 2)) ∧
   (∀ (s : State) (b : Bank), engineSet s = some b → s.eng.active = true →
     ∃ t, exec .engineStopPoint s = .next t ∧ t.dram = s.dram ∧
       (∀ (e : Fin 96) (i : Nat), i ∈ Bank.engSlots b e.val → slotEnded t i = true ∧
         (slotEnded s i = false → (engOf t e.val).stopped = true)))) ∧
  (∀ (e : Fin 96) (s : State) (b : Bank) (i : Nat) (hits : List (Nat × EccHit)), engineSet s = some b →
     (engOf s e.val).running = some i → (engOf s e.val).opsEnded = false →
     let x := opCtx s b e.val i
     (x.o.isLoad = true ∨ x.o.isStore = true → MemoryIdle s ∧ memServes s = true ∧ Correctable hits) →
     ∃ t, exec (.operatorEnd e .clean hits) s = .next t ∧
       (x.o.isLoad = true → t.dram = s.dram ∧ (engOf t e.val).lmem = (loadOp s x (engOf s e.val)).lmem) ∧
       (x.o.isLoad = false → x.o.isStore = true → t.dram = (storeOp x s).dram ∧
         (engOf t e.val).lmem = (engOf s e.val).lmem) ∧
       (x.o.isLoad = false → x.o.isStore = false → t.dram = s.dram ∧ t.hold = s.hold ∧
         (engOf t e.val).lmem = (compute x (engOf s e.val)).lmem) ∧
       match (passOps b i x.passNo).filter fun j => x.i < j with
       | j :: _ => (engOf t e.val).op = j ∧ (engOf t e.val).pass = (engOf s e.val).pass ∧ (engOf t e.val).opsEnded = false
       | [] => match passFrom b i (x.passNo + 1) with
         | some (p, j) => (engOf t e.val).pass = p ∧ (engOf t e.val).op = j ∧ (engOf t e.val).opsEnded = false
         | none => (engOf t e.val).opsEnded = true)

/-- R365, R372 to R374: an entry's delay ends in its conversion; the conversions of a reading entry write the value of
R365 to its slot and the converter goes on to its next entry, or is done with the table; an injected entry writes its slot
and leaves the list; the pass of a triggered table ends when both converters are done, and is counted; a software trigger
starts a pass of an idle table. R366, R367: SELFCAL asks for a calibration, which starts once the injected conversions have
ended; it gives each converter whose sums are accepted its offset and gain, and one whose sums are not keeps the former.
R425: a parity error of the active bank raises a FATAL error with the place of the 64 bytes, stands until the set is
replaced, and asks for FROZEN with cause 2 at the next tick. The bank keeps its bytes. -/
def Obligations.HousekeepingRuns : Prop :=
  (∀ (c : Bool) (s : State),
     (hkActive s c = true → (hkConvOf s c).phase = .delay →
       ∃ t, exec (.hkEntryDelayEnd c) s = .next t ∧ (hkConvOf t c).phase = .convert ∧ t.hk.slots = s.hk.slots) ∧
     (∀ codes : List (BitVec 14), hkConverting s c = true → (hkConvOf s c).phase = .convert →
       let e := hkTableEntry s (hkConvOf s c).entry
       e.ow = 0 → e.dest < 64 → s.hk.openMask.getLsbD e.input = false →
       ∃ t, exec (.hkEntryEnd c codes) s = .next t ∧ t.tick = s.tick ∧
         t.hk.slots = vset s.hk.slots e.dest (hkEntryValue s e ((hkConvOf s c).sum +
           ((codes.take (e.n - (hkConvOf s c).taken)).map fun x => x.toNat).sum), s.tick.sfn) ∧
         match (List.range (hkNEnt s)).find? fun j =>
           decide ((hkConvOf s c).entry + 1 ≤ j) && decide ((hkTableEntry s j).conv = c.toNat) with
         | some j => (hkConvOf t c).entry = j ∧ (hkConvOf t c).taken = 0
         | none => (hkConvOf t c).doneTable = true) ∧
     (∀ (codes : List (BitVec 14)) (i : Nat) (r : List Nat), s.hk.calibrating = false → (hkConvOf s c).inject = i :: r →
       (hkInjEntry s i).dest < 64 → s.hk.openMask.getLsbD (hkInjEntry s i).input = false →
       ∃ t, exec (.hkInjectedEnd c codes) s = .next t ∧ (hkConvOf t c).inject = r ∧
         t.hk.slots = vset s.hk.slots (hkInjEntry s i).dest (hkEntryValue s (hkInjEntry s i)
           ((codes.take (hkInjEntry s i).n).map fun x => x.toNat).sum, s.tick.sfn)) ∧
     (s.hk.passRunning = true → s.hk.c0.doneTable = true → s.hk.c1.doneTable = true → s.hk.calibrating = false →
       hkPassMode s = true → s.hk.pending = false →
       exec .hkPassEnd s = .next { s with hk := { s.hk with passCnt := satInc s.hk.passCnt, passRunning := false } }) ∧
     (hkOn s = true → hkPassMode s = true → (hkTrigSrc s = 2 ∨ hkTrigSrc s = 3) → s.hk.trigNow = false →
       s.hk.restartNext = false → s.hk.passRunning = false → s.hk.calibrating = false →
       ∃ t, exec .trig s = .next t ∧ t.hk.passRunning = true ∧ t.hk.slots = s.hk.slots)) ∧
  ((∀ s : State, s.dev.power ≠ .off → s.hk.calibrating = false → s.hk.calRequested = false →
     exec .selfcal s = .next { s with hk := { s.hk with calRequested := true } }) ∧
   (∀ s : State, s.hk.calRequested = true → s.hk.c0.inject = [] → s.hk.c1.inject = [] →
     exec .hkSelfcalStart s = .next { s with hk := { s.hk with calRequested := false, calibrating := true } }) ∧
   (∀ (sl0 sh0 sl1 sh1 : Nat) (s : State) (o g : Int), s.hk.calibrating = true → hkFactors sl0 sh0 = some (o, g) →
     hkFactors sl1 sh1 = none →
     ∃ t, exec (.hkSelfcalEnd sl0 sh0 sl1 sh1) s = .next t ∧ t.hk.calibrating = false ∧ t.hk.calReply = [] ∧
       t.hk.c0.ofs = BitVec.ofInt 16 o ∧ t.hk.c0.gain = BitVec.ofInt 16 g ∧ t.hk.c0.calOk = true ∧
       t.hk.c1.ofs = s.hk.c1.ofs ∧ t.hk.c1.gain = s.hk.c1.gain ∧ t.hk.c1.calOk = false ∧ t.hk.calRejSeen = true)) ∧
  (∀ (x : BitVec 17) (s : State), s.cfg.hasActive = true → (s.dev.power = .parked ∨ s.dev.power = .imaging) →
     ∃ t, exec (.cfgParityError x) s = .next t ∧ t.cfg = { s.cfg with parityBad := true } ∧ t.dram = s.dram ∧
       (s.err.freezeNext = 0 → t.err.freezeNext = 2) ∧
       (s.err.batch = none → (errOf s 0).valid = false → (errOf t 0).valid = true ∧ (errOf t 0).code = 0x02 ∧
         (errOf t 0).info = word x.toNat ∧ (errOf t 0).count = 1 ∧ (errOf t 0).sfn = s.tick.sfn))
end

