-- ==== Sys2Proof/Laws/State.lean ====
section
/-! SUPPORT. One lemma per field of the state and per named update of it, true by rfl: no later proof unfolds a record
update. -/
namespace Sys2Proof.Laws

open Sys2Proof.Machine


@[simp] theorem modTile_pending (t : Nat) (f : Tile → Tile) (s : State) : (modTile t f s).pending = s.pending := rfl
@[simp] theorem modTile_out (t : Nat) (f : Tile → Tile) (s : State) : (modTile t f s).out = s.out := rfl
@[simp] theorem modTile_free (t : Nat) (f : Tile → Tile) (s : State) : (modTile t f s).free = s.free := rfl
@[simp] theorem modTile_board (t : Nat) (f : Tile → Tile) (s : State) : (modTile t f s).board = s.board := rfl
@[simp] theorem modTile_clock (t : Nat) (f : Tile → Tile) (s : State) : (modTile t f s).clock = s.clock := rfl
@[simp] theorem modTile_dev (t : Nat) (f : Tile → Tile) (s : State) : (modTile t f s).dev = s.dev := rfl
@[simp] theorem modTile_err (t : Nat) (f : Tile → Tile) (s : State) : (modTile t f s).err = s.err := rfl
@[simp] theorem modTile_tick (t : Nat) (f : Tile → Tile) (s : State) : (modTile t f s).tick = s.tick := rfl
@[simp] theorem modTile_replay (t : Nat) (f : Tile → Tile) (s : State) : (modTile t f s).replay = s.replay := rfl
@[simp] theorem modTile_sides (t : Nat) (f : Tile → Tile) (s : State) : (modTile t f s).sides = s.sides := rfl
@[simp] theorem modTile_cmdq (t : Nat) (f : Tile → Tile) (s : State) : (modTile t f s).cmdq = s.cmdq := rfl
@[simp] theorem modTile_host (t : Nat) (f : Tile → Tile) (s : State) : (modTile t f s).host = s.host := rfl
@[simp] theorem modTile_hold (t : Nat) (f : Tile → Tile) (s : State) : (modTile t f s).hold = s.hold := rfl
@[simp] theorem modTile_memc (t : Nat) (f : Tile → Tile) (s : State) : (modTile t f s).memc = s.memc := rfl
@[simp] theorem modTile_memch (t : Nat) (f : Tile → Tile) (s : State) : (modTile t f s).memch = s.memch := rfl
@[simp] theorem modTile_dram (t : Nat) (f : Tile → Tile) (s : State) : (modTile t f s).dram = s.dram := rfl
@[simp] theorem modTile_cfg (t : Nat) (f : Tile → Tile) (s : State) : (modTile t f s).cfg = s.cfg := rfl
@[simp] theorem modTile_tiles (t : Nat) (f : Tile → Tile) (s : State) : (modTile t f s).tiles = vmod s.tiles t f := rfl
@[simp] theorem modTile_quads (t : Nat) (f : Tile → Tile) (s : State) : (modTile t f s).quads = s.quads := rfl
@[simp] theorem modTile_lincals (t : Nat) (f : Tile → Tile) (s : State) : (modTile t f s).lincals = s.lincals := rfl
@[simp] theorem modTile_calReqs (t : Nat) (f : Tile → Tile) (s : State) : (modTile t f s).calReqs = s.calReqs := rfl
@[simp] theorem modTile_shut (t : Nat) (f : Tile → Tile) (s : State) : (modTile t f s).shut = s.shut := rfl
@[simp] theorem modTile_engs (t : Nat) (f : Tile → Tile) (s : State) : (modTile t f s).engs = s.engs := rfl
@[simp] theorem modTile_eng (t : Nat) (f : Tile → Tile) (s : State) : (modTile t f s).eng = s.eng := rfl
@[simp] theorem modTile_hk (t : Nat) (f : Tile → Tile) (s : State) : (modTile t f s).hk = s.hk := rfl
@[simp] theorem modTile_spc (t : Nat) (f : Tile → Tile) (s : State) : (modTile t f s).spc = s.spc := rfl
@[simp] theorem modTile_spt (t : Nat) (f : Tile → Tile) (s : State) : (modTile t f s).spt = s.spt := rfl
@[simp] theorem modTile_keep (t : Nat) (f : Tile → Tile) (s : State) : (modTile t f s).keep = s.keep := rfl
@[simp] theorem modTile_sync (t : Nat) (f : Tile → Tile) (s : State) : (modTile t f s).sync = s.sync := rfl

@[simp] theorem modPort_pending (t : Nat) (f : Port → Port) (s : State) : (modPort t f s).pending = s.pending := rfl
@[simp] theorem modPort_out (t : Nat) (f : Port → Port) (s : State) : (modPort t f s).out = s.out := rfl
@[simp] theorem modPort_free (t : Nat) (f : Port → Port) (s : State) : (modPort t f s).free = s.free := rfl
@[simp] theorem modPort_board (t : Nat) (f : Port → Port) (s : State) : (modPort t f s).board = s.board := rfl
@[simp] theorem modPort_clock (t : Nat) (f : Port → Port) (s : State) : (modPort t f s).clock = s.clock := rfl
@[simp] theorem modPort_dev (t : Nat) (f : Port → Port) (s : State) : (modPort t f s).dev = s.dev := rfl
@[simp] theorem modPort_err (t : Nat) (f : Port → Port) (s : State) : (modPort t f s).err = s.err := rfl
@[simp] theorem modPort_tick (t : Nat) (f : Port → Port) (s : State) : (modPort t f s).tick = s.tick := rfl
@[simp] theorem modPort_replay (t : Nat) (f : Port → Port) (s : State) : (modPort t f s).replay = s.replay := rfl
@[simp] theorem modPort_sides (t : Nat) (f : Port → Port) (s : State) : (modPort t f s).sides = s.sides := rfl
@[simp] theorem modPort_cmdq (t : Nat) (f : Port → Port) (s : State) : (modPort t f s).cmdq = s.cmdq := rfl
@[simp] theorem modPort_host (t : Nat) (f : Port → Port) (s : State) : (modPort t f s).host = s.host := rfl
@[simp] theorem modPort_hold (t : Nat) (f : Port → Port) (s : State) : (modPort t f s).hold = s.hold := rfl
@[simp] theorem modPort_memc (t : Nat) (f : Port → Port) (s : State) : (modPort t f s).memc = s.memc := rfl
@[simp] theorem modPort_memch (t : Nat) (f : Port → Port) (s : State) : (modPort t f s).memch = s.memch := rfl
@[simp] theorem modPort_dram (t : Nat) (f : Port → Port) (s : State) : (modPort t f s).dram = s.dram := rfl
@[simp] theorem modPort_cfg (t : Nat) (f : Port → Port) (s : State) : (modPort t f s).cfg = s.cfg := rfl
@[simp] theorem modPort_tiles (t : Nat) (f : Port → Port) (s : State) : (modPort t f s).tiles = vmod s.tiles t fun x => { x with port := f x.port } := rfl
@[simp] theorem modPort_quads (t : Nat) (f : Port → Port) (s : State) : (modPort t f s).quads = s.quads := rfl
@[simp] theorem modPort_lincals (t : Nat) (f : Port → Port) (s : State) : (modPort t f s).lincals = s.lincals := rfl
@[simp] theorem modPort_calReqs (t : Nat) (f : Port → Port) (s : State) : (modPort t f s).calReqs = s.calReqs := rfl
@[simp] theorem modPort_shut (t : Nat) (f : Port → Port) (s : State) : (modPort t f s).shut = s.shut := rfl
@[simp] theorem modPort_engs (t : Nat) (f : Port → Port) (s : State) : (modPort t f s).engs = s.engs := rfl
@[simp] theorem modPort_eng (t : Nat) (f : Port → Port) (s : State) : (modPort t f s).eng = s.eng := rfl
@[simp] theorem modPort_hk (t : Nat) (f : Port → Port) (s : State) : (modPort t f s).hk = s.hk := rfl
@[simp] theorem modPort_spc (t : Nat) (f : Port → Port) (s : State) : (modPort t f s).spc = s.spc := rfl
@[simp] theorem modPort_spt (t : Nat) (f : Port → Port) (s : State) : (modPort t f s).spt = s.spt := rfl
@[simp] theorem modPort_keep (t : Nat) (f : Port → Port) (s : State) : (modPort t f s).keep = s.keep := rfl
@[simp] theorem modPort_sync (t : Nat) (f : Port → Port) (s : State) : (modPort t f s).sync = s.sync := rfl

@[simp] theorem modLane_pending (t : Nat) (f : Lane → Lane) (s : State) : (modLane t f s).pending = s.pending := rfl
@[simp] theorem modLane_out (t : Nat) (f : Lane → Lane) (s : State) : (modLane t f s).out = s.out := rfl
@[simp] theorem modLane_free (t : Nat) (f : Lane → Lane) (s : State) : (modLane t f s).free = s.free := rfl
@[simp] theorem modLane_board (t : Nat) (f : Lane → Lane) (s : State) : (modLane t f s).board = s.board := rfl
@[simp] theorem modLane_clock (t : Nat) (f : Lane → Lane) (s : State) : (modLane t f s).clock = s.clock := rfl
@[simp] theorem modLane_dev (t : Nat) (f : Lane → Lane) (s : State) : (modLane t f s).dev = s.dev := rfl
@[simp] theorem modLane_err (t : Nat) (f : Lane → Lane) (s : State) : (modLane t f s).err = s.err := rfl
@[simp] theorem modLane_tick (t : Nat) (f : Lane → Lane) (s : State) : (modLane t f s).tick = s.tick := rfl
@[simp] theorem modLane_replay (t : Nat) (f : Lane → Lane) (s : State) : (modLane t f s).replay = s.replay := rfl
@[simp] theorem modLane_sides (t : Nat) (f : Lane → Lane) (s : State) : (modLane t f s).sides = s.sides := rfl
@[simp] theorem modLane_cmdq (t : Nat) (f : Lane → Lane) (s : State) : (modLane t f s).cmdq = s.cmdq := rfl
@[simp] theorem modLane_host (t : Nat) (f : Lane → Lane) (s : State) : (modLane t f s).host = s.host := rfl
@[simp] theorem modLane_hold (t : Nat) (f : Lane → Lane) (s : State) : (modLane t f s).hold = s.hold := rfl
@[simp] theorem modLane_memc (t : Nat) (f : Lane → Lane) (s : State) : (modLane t f s).memc = s.memc := rfl
@[simp] theorem modLane_memch (t : Nat) (f : Lane → Lane) (s : State) : (modLane t f s).memch = s.memch := rfl
@[simp] theorem modLane_dram (t : Nat) (f : Lane → Lane) (s : State) : (modLane t f s).dram = s.dram := rfl
@[simp] theorem modLane_cfg (t : Nat) (f : Lane → Lane) (s : State) : (modLane t f s).cfg = s.cfg := rfl
@[simp] theorem modLane_tiles (t : Nat) (f : Lane → Lane) (s : State) : (modLane t f s).tiles = vmod s.tiles t fun x => { x with lane := f x.lane } := rfl
@[simp] theorem modLane_quads (t : Nat) (f : Lane → Lane) (s : State) : (modLane t f s).quads = s.quads := rfl
@[simp] theorem modLane_lincals (t : Nat) (f : Lane → Lane) (s : State) : (modLane t f s).lincals = s.lincals := rfl
@[simp] theorem modLane_calReqs (t : Nat) (f : Lane → Lane) (s : State) : (modLane t f s).calReqs = s.calReqs := rfl
@[simp] theorem modLane_shut (t : Nat) (f : Lane → Lane) (s : State) : (modLane t f s).shut = s.shut := rfl
@[simp] theorem modLane_engs (t : Nat) (f : Lane → Lane) (s : State) : (modLane t f s).engs = s.engs := rfl
@[simp] theorem modLane_eng (t : Nat) (f : Lane → Lane) (s : State) : (modLane t f s).eng = s.eng := rfl
@[simp] theorem modLane_hk (t : Nat) (f : Lane → Lane) (s : State) : (modLane t f s).hk = s.hk := rfl
@[simp] theorem modLane_spc (t : Nat) (f : Lane → Lane) (s : State) : (modLane t f s).spc = s.spc := rfl
@[simp] theorem modLane_spt (t : Nat) (f : Lane → Lane) (s : State) : (modLane t f s).spt = s.spt := rfl
@[simp] theorem modLane_keep (t : Nat) (f : Lane → Lane) (s : State) : (modLane t f s).keep = s.keep := rfl
@[simp] theorem modLane_sync (t : Nat) (f : Lane → Lane) (s : State) : (modLane t f s).sync = s.sync := rfl

@[simp] theorem modRdo_pending (t : Nat) (f : Rdo → Rdo) (s : State) : (modRdo t f s).pending = s.pending := rfl
@[simp] theorem modRdo_out (t : Nat) (f : Rdo → Rdo) (s : State) : (modRdo t f s).out = s.out := rfl
@[simp] theorem modRdo_free (t : Nat) (f : Rdo → Rdo) (s : State) : (modRdo t f s).free = s.free := rfl
@[simp] theorem modRdo_board (t : Nat) (f : Rdo → Rdo) (s : State) : (modRdo t f s).board = s.board := rfl
@[simp] theorem modRdo_clock (t : Nat) (f : Rdo → Rdo) (s : State) : (modRdo t f s).clock = s.clock := rfl
@[simp] theorem modRdo_dev (t : Nat) (f : Rdo → Rdo) (s : State) : (modRdo t f s).dev = s.dev := rfl
@[simp] theorem modRdo_err (t : Nat) (f : Rdo → Rdo) (s : State) : (modRdo t f s).err = s.err := rfl
@[simp] theorem modRdo_tick (t : Nat) (f : Rdo → Rdo) (s : State) : (modRdo t f s).tick = s.tick := rfl
@[simp] theorem modRdo_replay (t : Nat) (f : Rdo → Rdo) (s : State) : (modRdo t f s).replay = s.replay := rfl
@[simp] theorem modRdo_sides (t : Nat) (f : Rdo → Rdo) (s : State) : (modRdo t f s).sides = s.sides := rfl
@[simp] theorem modRdo_cmdq (t : Nat) (f : Rdo → Rdo) (s : State) : (modRdo t f s).cmdq = s.cmdq := rfl
@[simp] theorem modRdo_host (t : Nat) (f : Rdo → Rdo) (s : State) : (modRdo t f s).host = s.host := rfl
@[simp] theorem modRdo_hold (t : Nat) (f : Rdo → Rdo) (s : State) : (modRdo t f s).hold = s.hold := rfl
@[simp] theorem modRdo_memc (t : Nat) (f : Rdo → Rdo) (s : State) : (modRdo t f s).memc = s.memc := rfl
@[simp] theorem modRdo_memch (t : Nat) (f : Rdo → Rdo) (s : State) : (modRdo t f s).memch = s.memch := rfl
@[simp] theorem modRdo_dram (t : Nat) (f : Rdo → Rdo) (s : State) : (modRdo t f s).dram = s.dram := rfl
@[simp] theorem modRdo_cfg (t : Nat) (f : Rdo → Rdo) (s : State) : (modRdo t f s).cfg = s.cfg := rfl
@[simp] theorem modRdo_tiles (t : Nat) (f : Rdo → Rdo) (s : State) : (modRdo t f s).tiles = vmod s.tiles t fun x => { x with rdo := f x.rdo } := rfl
@[simp] theorem modRdo_quads (t : Nat) (f : Rdo → Rdo) (s : State) : (modRdo t f s).quads = s.quads := rfl
@[simp] theorem modRdo_lincals (t : Nat) (f : Rdo → Rdo) (s : State) : (modRdo t f s).lincals = s.lincals := rfl
@[simp] theorem modRdo_calReqs (t : Nat) (f : Rdo → Rdo) (s : State) : (modRdo t f s).calReqs = s.calReqs := rfl
@[simp] theorem modRdo_shut (t : Nat) (f : Rdo → Rdo) (s : State) : (modRdo t f s).shut = s.shut := rfl
@[simp] theorem modRdo_engs (t : Nat) (f : Rdo → Rdo) (s : State) : (modRdo t f s).engs = s.engs := rfl
@[simp] theorem modRdo_eng (t : Nat) (f : Rdo → Rdo) (s : State) : (modRdo t f s).eng = s.eng := rfl
@[simp] theorem modRdo_hk (t : Nat) (f : Rdo → Rdo) (s : State) : (modRdo t f s).hk = s.hk := rfl
@[simp] theorem modRdo_spc (t : Nat) (f : Rdo → Rdo) (s : State) : (modRdo t f s).spc = s.spc := rfl
@[simp] theorem modRdo_spt (t : Nat) (f : Rdo → Rdo) (s : State) : (modRdo t f s).spt = s.spt := rfl
@[simp] theorem modRdo_keep (t : Nat) (f : Rdo → Rdo) (s : State) : (modRdo t f s).keep = s.keep := rfl
@[simp] theorem modRdo_sync (t : Nat) (f : Rdo → Rdo) (s : State) : (modRdo t f s).sync = s.sync := rfl

@[simp] theorem modCal_pending (t : Nat) (f : Cal → Cal) (s : State) : (modCal t f s).pending = s.pending := rfl
@[simp] theorem modCal_out (t : Nat) (f : Cal → Cal) (s : State) : (modCal t f s).out = s.out := rfl
@[simp] theorem modCal_free (t : Nat) (f : Cal → Cal) (s : State) : (modCal t f s).free = s.free := rfl
@[simp] theorem modCal_board (t : Nat) (f : Cal → Cal) (s : State) : (modCal t f s).board = s.board := rfl
@[simp] theorem modCal_clock (t : Nat) (f : Cal → Cal) (s : State) : (modCal t f s).clock = s.clock := rfl
@[simp] theorem modCal_dev (t : Nat) (f : Cal → Cal) (s : State) : (modCal t f s).dev = s.dev := rfl
@[simp] theorem modCal_err (t : Nat) (f : Cal → Cal) (s : State) : (modCal t f s).err = s.err := rfl
@[simp] theorem modCal_tick (t : Nat) (f : Cal → Cal) (s : State) : (modCal t f s).tick = s.tick := rfl
@[simp] theorem modCal_replay (t : Nat) (f : Cal → Cal) (s : State) : (modCal t f s).replay = s.replay := rfl
@[simp] theorem modCal_sides (t : Nat) (f : Cal → Cal) (s : State) : (modCal t f s).sides = s.sides := rfl
@[simp] theorem modCal_cmdq (t : Nat) (f : Cal → Cal) (s : State) : (modCal t f s).cmdq = s.cmdq := rfl
@[simp] theorem modCal_host (t : Nat) (f : Cal → Cal) (s : State) : (modCal t f s).host = s.host := rfl
@[simp] theorem modCal_hold (t : Nat) (f : Cal → Cal) (s : State) : (modCal t f s).hold = s.hold := rfl
@[simp] theorem modCal_memc (t : Nat) (f : Cal → Cal) (s : State) : (modCal t f s).memc = s.memc := rfl
@[simp] theorem modCal_memch (t : Nat) (f : Cal → Cal) (s : State) : (modCal t f s).memch = s.memch := rfl
@[simp] theorem modCal_dram (t : Nat) (f : Cal → Cal) (s : State) : (modCal t f s).dram = s.dram := rfl
@[simp] theorem modCal_cfg (t : Nat) (f : Cal → Cal) (s : State) : (modCal t f s).cfg = s.cfg := rfl
@[simp] theorem modCal_tiles (t : Nat) (f : Cal → Cal) (s : State) : (modCal t f s).tiles = vmod s.tiles t fun x => { x with cal := f x.cal } := rfl
@[simp] theorem modCal_quads (t : Nat) (f : Cal → Cal) (s : State) : (modCal t f s).quads = s.quads := rfl
@[simp] theorem modCal_lincals (t : Nat) (f : Cal → Cal) (s : State) : (modCal t f s).lincals = s.lincals := rfl
@[simp] theorem modCal_calReqs (t : Nat) (f : Cal → Cal) (s : State) : (modCal t f s).calReqs = s.calReqs := rfl
@[simp] theorem modCal_shut (t : Nat) (f : Cal → Cal) (s : State) : (modCal t f s).shut = s.shut := rfl
@[simp] theorem modCal_engs (t : Nat) (f : Cal → Cal) (s : State) : (modCal t f s).engs = s.engs := rfl
@[simp] theorem modCal_eng (t : Nat) (f : Cal → Cal) (s : State) : (modCal t f s).eng = s.eng := rfl
@[simp] theorem modCal_hk (t : Nat) (f : Cal → Cal) (s : State) : (modCal t f s).hk = s.hk := rfl
@[simp] theorem modCal_spc (t : Nat) (f : Cal → Cal) (s : State) : (modCal t f s).spc = s.spc := rfl
@[simp] theorem modCal_spt (t : Nat) (f : Cal → Cal) (s : State) : (modCal t f s).spt = s.spt := rfl
@[simp] theorem modCal_keep (t : Nat) (f : Cal → Cal) (s : State) : (modCal t f s).keep = s.keep := rfl
@[simp] theorem modCal_sync (t : Nat) (f : Cal → Cal) (s : State) : (modCal t f s).sync = s.sync := rfl

@[simp] theorem modEng_pending (e : Nat) (f : Eng → Eng) (s : State) : (modEng e f s).pending = s.pending := rfl
@[simp] theorem modEng_out (e : Nat) (f : Eng → Eng) (s : State) : (modEng e f s).out = s.out := rfl
@[simp] theorem modEng_free (e : Nat) (f : Eng → Eng) (s : State) : (modEng e f s).free = s.free := rfl
@[simp] theorem modEng_board (e : Nat) (f : Eng → Eng) (s : State) : (modEng e f s).board = s.board := rfl
@[simp] theorem modEng_clock (e : Nat) (f : Eng → Eng) (s : State) : (modEng e f s).clock = s.clock := rfl
@[simp] theorem modEng_dev (e : Nat) (f : Eng → Eng) (s : State) : (modEng e f s).dev = s.dev := rfl
@[simp] theorem modEng_err (e : Nat) (f : Eng → Eng) (s : State) : (modEng e f s).err = s.err := rfl
@[simp] theorem modEng_tick (e : Nat) (f : Eng → Eng) (s : State) : (modEng e f s).tick = s.tick := rfl
@[simp] theorem modEng_replay (e : Nat) (f : Eng → Eng) (s : State) : (modEng e f s).replay = s.replay := rfl
@[simp] theorem modEng_sides (e : Nat) (f : Eng → Eng) (s : State) : (modEng e f s).sides = s.sides := rfl
@[simp] theorem modEng_cmdq (e : Nat) (f : Eng → Eng) (s : State) : (modEng e f s).cmdq = s.cmdq := rfl
@[simp] theorem modEng_host (e : Nat) (f : Eng → Eng) (s : State) : (modEng e f s).host = s.host := rfl
@[simp] theorem modEng_hold (e : Nat) (f : Eng → Eng) (s : State) : (modEng e f s).hold = s.hold := rfl
@[simp] theorem modEng_memc (e : Nat) (f : Eng → Eng) (s : State) : (modEng e f s).memc = s.memc := rfl
@[simp] theorem modEng_memch (e : Nat) (f : Eng → Eng) (s : State) : (modEng e f s).memch = s.memch := rfl
@[simp] theorem modEng_dram (e : Nat) (f : Eng → Eng) (s : State) : (modEng e f s).dram = s.dram := rfl
@[simp] theorem modEng_cfg (e : Nat) (f : Eng → Eng) (s : State) : (modEng e f s).cfg = s.cfg := rfl
@[simp] theorem modEng_tiles (e : Nat) (f : Eng → Eng) (s : State) : (modEng e f s).tiles = s.tiles := rfl
@[simp] theorem modEng_quads (e : Nat) (f : Eng → Eng) (s : State) : (modEng e f s).quads = s.quads := rfl
@[simp] theorem modEng_lincals (e : Nat) (f : Eng → Eng) (s : State) : (modEng e f s).lincals = s.lincals := rfl
@[simp] theorem modEng_calReqs (e : Nat) (f : Eng → Eng) (s : State) : (modEng e f s).calReqs = s.calReqs := rfl
@[simp] theorem modEng_shut (e : Nat) (f : Eng → Eng) (s : State) : (modEng e f s).shut = s.shut := rfl
@[simp] theorem modEng_engs (e : Nat) (f : Eng → Eng) (s : State) : (modEng e f s).engs = vmod s.engs e f := rfl
@[simp] theorem modEng_eng (e : Nat) (f : Eng → Eng) (s : State) : (modEng e f s).eng = s.eng := rfl
@[simp] theorem modEng_hk (e : Nat) (f : Eng → Eng) (s : State) : (modEng e f s).hk = s.hk := rfl
@[simp] theorem modEng_spc (e : Nat) (f : Eng → Eng) (s : State) : (modEng e f s).spc = s.spc := rfl
@[simp] theorem modEng_spt (e : Nat) (f : Eng → Eng) (s : State) : (modEng e f s).spt = s.spt := rfl
@[simp] theorem modEng_keep (e : Nat) (f : Eng → Eng) (s : State) : (modEng e f s).keep = s.keep := rfl
@[simp] theorem modEng_sync (e : Nat) (f : Eng → Eng) (s : State) : (modEng e f s).sync = s.sync := rfl

@[simp] theorem modCh_pending (n : Nat) (f : Memch → Memch) (s : State) : (modCh n f s).pending = s.pending := rfl
@[simp] theorem modCh_out (n : Nat) (f : Memch → Memch) (s : State) : (modCh n f s).out = s.out := rfl
@[simp] theorem modCh_free (n : Nat) (f : Memch → Memch) (s : State) : (modCh n f s).free = s.free := rfl
@[simp] theorem modCh_board (n : Nat) (f : Memch → Memch) (s : State) : (modCh n f s).board = s.board := rfl
@[simp] theorem modCh_clock (n : Nat) (f : Memch → Memch) (s : State) : (modCh n f s).clock = s.clock := rfl
@[simp] theorem modCh_dev (n : Nat) (f : Memch → Memch) (s : State) : (modCh n f s).dev = s.dev := rfl
@[simp] theorem modCh_err (n : Nat) (f : Memch → Memch) (s : State) : (modCh n f s).err = s.err := rfl
@[simp] theorem modCh_tick (n : Nat) (f : Memch → Memch) (s : State) : (modCh n f s).tick = s.tick := rfl
@[simp] theorem modCh_replay (n : Nat) (f : Memch → Memch) (s : State) : (modCh n f s).replay = s.replay := rfl
@[simp] theorem modCh_sides (n : Nat) (f : Memch → Memch) (s : State) : (modCh n f s).sides = s.sides := rfl
@[simp] theorem modCh_cmdq (n : Nat) (f : Memch → Memch) (s : State) : (modCh n f s).cmdq = s.cmdq := rfl
@[simp] theorem modCh_host (n : Nat) (f : Memch → Memch) (s : State) : (modCh n f s).host = s.host := rfl
@[simp] theorem modCh_hold (n : Nat) (f : Memch → Memch) (s : State) : (modCh n f s).hold = s.hold := rfl
@[simp] theorem modCh_memc (n : Nat) (f : Memch → Memch) (s : State) : (modCh n f s).memc = s.memc := rfl
@[simp] theorem modCh_memch (n : Nat) (f : Memch → Memch) (s : State) : (modCh n f s).memch = vmod s.memch n f := rfl
@[simp] theorem modCh_dram (n : Nat) (f : Memch → Memch) (s : State) : (modCh n f s).dram = s.dram := rfl
@[simp] theorem modCh_cfg (n : Nat) (f : Memch → Memch) (s : State) : (modCh n f s).cfg = s.cfg := rfl
@[simp] theorem modCh_tiles (n : Nat) (f : Memch → Memch) (s : State) : (modCh n f s).tiles = s.tiles := rfl
@[simp] theorem modCh_quads (n : Nat) (f : Memch → Memch) (s : State) : (modCh n f s).quads = s.quads := rfl
@[simp] theorem modCh_lincals (n : Nat) (f : Memch → Memch) (s : State) : (modCh n f s).lincals = s.lincals := rfl
@[simp] theorem modCh_calReqs (n : Nat) (f : Memch → Memch) (s : State) : (modCh n f s).calReqs = s.calReqs := rfl
@[simp] theorem modCh_shut (n : Nat) (f : Memch → Memch) (s : State) : (modCh n f s).shut = s.shut := rfl
@[simp] theorem modCh_engs (n : Nat) (f : Memch → Memch) (s : State) : (modCh n f s).engs = s.engs := rfl
@[simp] theorem modCh_eng (n : Nat) (f : Memch → Memch) (s : State) : (modCh n f s).eng = s.eng := rfl
@[simp] theorem modCh_hk (n : Nat) (f : Memch → Memch) (s : State) : (modCh n f s).hk = s.hk := rfl
@[simp] theorem modCh_spc (n : Nat) (f : Memch → Memch) (s : State) : (modCh n f s).spc = s.spc := rfl
@[simp] theorem modCh_spt (n : Nat) (f : Memch → Memch) (s : State) : (modCh n f s).spt = s.spt := rfl
@[simp] theorem modCh_keep (n : Nat) (f : Memch → Memch) (s : State) : (modCh n f s).keep = s.keep := rfl
@[simp] theorem modCh_sync (n : Nat) (f : Memch → Memch) (s : State) : (modCh n f s).sync = s.sync := rfl

@[simp] theorem modStream_pending (m : Nat) (f : Stream → Stream) (s : State) : (modStream m f s).pending = s.pending := rfl
@[simp] theorem modStream_out (m : Nat) (f : Stream → Stream) (s : State) : (modStream m f s).out = s.out := rfl
@[simp] theorem modStream_free (m : Nat) (f : Stream → Stream) (s : State) : (modStream m f s).free = s.free := rfl
@[simp] theorem modStream_board (m : Nat) (f : Stream → Stream) (s : State) : (modStream m f s).board = s.board := rfl
@[simp] theorem modStream_clock (m : Nat) (f : Stream → Stream) (s : State) : (modStream m f s).clock = s.clock := rfl
@[simp] theorem modStream_dev (m : Nat) (f : Stream → Stream) (s : State) : (modStream m f s).dev = s.dev := rfl
@[simp] theorem modStream_err (m : Nat) (f : Stream → Stream) (s : State) : (modStream m f s).err = s.err := rfl
@[simp] theorem modStream_tick (m : Nat) (f : Stream → Stream) (s : State) : (modStream m f s).tick = s.tick := rfl
@[simp] theorem modStream_replay (m : Nat) (f : Stream → Stream) (s : State) : (modStream m f s).replay = s.replay := rfl
@[simp] theorem modStream_sides (m : Nat) (f : Stream → Stream) (s : State) : (modStream m f s).sides = s.sides := rfl
@[simp] theorem modStream_cmdq (m : Nat) (f : Stream → Stream) (s : State) : (modStream m f s).cmdq = s.cmdq := rfl
@[simp] theorem modStream_host (m : Nat) (f : Stream → Stream) (s : State) : (modStream m f s).host = { s.host with streams := vmod s.host.streams m f } := rfl
@[simp] theorem modStream_hold (m : Nat) (f : Stream → Stream) (s : State) : (modStream m f s).hold = s.hold := rfl
@[simp] theorem modStream_memc (m : Nat) (f : Stream → Stream) (s : State) : (modStream m f s).memc = s.memc := rfl
@[simp] theorem modStream_memch (m : Nat) (f : Stream → Stream) (s : State) : (modStream m f s).memch = s.memch := rfl
@[simp] theorem modStream_dram (m : Nat) (f : Stream → Stream) (s : State) : (modStream m f s).dram = s.dram := rfl
@[simp] theorem modStream_cfg (m : Nat) (f : Stream → Stream) (s : State) : (modStream m f s).cfg = s.cfg := rfl
@[simp] theorem modStream_tiles (m : Nat) (f : Stream → Stream) (s : State) : (modStream m f s).tiles = s.tiles := rfl
@[simp] theorem modStream_quads (m : Nat) (f : Stream → Stream) (s : State) : (modStream m f s).quads = s.quads := rfl
@[simp] theorem modStream_lincals (m : Nat) (f : Stream → Stream) (s : State) : (modStream m f s).lincals = s.lincals := rfl
@[simp] theorem modStream_calReqs (m : Nat) (f : Stream → Stream) (s : State) : (modStream m f s).calReqs = s.calReqs := rfl
@[simp] theorem modStream_shut (m : Nat) (f : Stream → Stream) (s : State) : (modStream m f s).shut = s.shut := rfl
@[simp] theorem modStream_engs (m : Nat) (f : Stream → Stream) (s : State) : (modStream m f s).engs = s.engs := rfl
@[simp] theorem modStream_eng (m : Nat) (f : Stream → Stream) (s : State) : (modStream m f s).eng = s.eng := rfl
@[simp] theorem modStream_hk (m : Nat) (f : Stream → Stream) (s : State) : (modStream m f s).hk = s.hk := rfl
@[simp] theorem modStream_spc (m : Nat) (f : Stream → Stream) (s : State) : (modStream m f s).spc = s.spc := rfl
@[simp] theorem modStream_spt (m : Nat) (f : Stream → Stream) (s : State) : (modStream m f s).spt = s.spt := rfl
@[simp] theorem modStream_keep (m : Nat) (f : Stream → Stream) (s : State) : (modStream m f s).keep = s.keep := rfl
@[simp] theorem modStream_sync (m : Nat) (f : Stream → Stream) (s : State) : (modStream m f s).sync = s.sync := rfl

@[simp] theorem modCoil_pending (t : Nat) (f : Coil → Coil) (s : State) : (modCoil t f s).pending = s.pending := rfl
@[simp] theorem modCoil_out (t : Nat) (f : Coil → Coil) (s : State) : (modCoil t f s).out = s.out := rfl
@[simp] theorem modCoil_free (t : Nat) (f : Coil → Coil) (s : State) : (modCoil t f s).free = s.free := rfl
@[simp] theorem modCoil_board (t : Nat) (f : Coil → Coil) (s : State) : (modCoil t f s).board = s.board := rfl
@[simp] theorem modCoil_clock (t : Nat) (f : Coil → Coil) (s : State) : (modCoil t f s).clock = s.clock := rfl
@[simp] theorem modCoil_dev (t : Nat) (f : Coil → Coil) (s : State) : (modCoil t f s).dev = s.dev := rfl
@[simp] theorem modCoil_err (t : Nat) (f : Coil → Coil) (s : State) : (modCoil t f s).err = s.err := rfl
@[simp] theorem modCoil_tick (t : Nat) (f : Coil → Coil) (s : State) : (modCoil t f s).tick = s.tick := rfl
@[simp] theorem modCoil_replay (t : Nat) (f : Coil → Coil) (s : State) : (modCoil t f s).replay = s.replay := rfl
@[simp] theorem modCoil_sides (t : Nat) (f : Coil → Coil) (s : State) : (modCoil t f s).sides = s.sides := rfl
@[simp] theorem modCoil_cmdq (t : Nat) (f : Coil → Coil) (s : State) : (modCoil t f s).cmdq = s.cmdq := rfl
@[simp] theorem modCoil_host (t : Nat) (f : Coil → Coil) (s : State) : (modCoil t f s).host = s.host := rfl
@[simp] theorem modCoil_hold (t : Nat) (f : Coil → Coil) (s : State) : (modCoil t f s).hold = s.hold := rfl
@[simp] theorem modCoil_memc (t : Nat) (f : Coil → Coil) (s : State) : (modCoil t f s).memc = s.memc := rfl
@[simp] theorem modCoil_memch (t : Nat) (f : Coil → Coil) (s : State) : (modCoil t f s).memch = s.memch := rfl
@[simp] theorem modCoil_dram (t : Nat) (f : Coil → Coil) (s : State) : (modCoil t f s).dram = s.dram := rfl
@[simp] theorem modCoil_cfg (t : Nat) (f : Coil → Coil) (s : State) : (modCoil t f s).cfg = s.cfg := rfl
@[simp] theorem modCoil_tiles (t : Nat) (f : Coil → Coil) (s : State) : (modCoil t f s).tiles = s.tiles := rfl
@[simp] theorem modCoil_quads (t : Nat) (f : Coil → Coil) (s : State) : (modCoil t f s).quads = s.quads := rfl
@[simp] theorem modCoil_lincals (t : Nat) (f : Coil → Coil) (s : State) : (modCoil t f s).lincals = s.lincals := rfl
@[simp] theorem modCoil_calReqs (t : Nat) (f : Coil → Coil) (s : State) : (modCoil t f s).calReqs = s.calReqs := rfl
@[simp] theorem modCoil_shut (t : Nat) (f : Coil → Coil) (s : State) : (modCoil t f s).shut = { s.shut with coils := vmod s.shut.coils t f } := rfl
@[simp] theorem modCoil_engs (t : Nat) (f : Coil → Coil) (s : State) : (modCoil t f s).engs = s.engs := rfl
@[simp] theorem modCoil_eng (t : Nat) (f : Coil → Coil) (s : State) : (modCoil t f s).eng = s.eng := rfl
@[simp] theorem modCoil_hk (t : Nat) (f : Coil → Coil) (s : State) : (modCoil t f s).hk = s.hk := rfl
@[simp] theorem modCoil_spc (t : Nat) (f : Coil → Coil) (s : State) : (modCoil t f s).spc = s.spc := rfl
@[simp] theorem modCoil_spt (t : Nat) (f : Coil → Coil) (s : State) : (modCoil t f s).spt = s.spt := rfl
@[simp] theorem modCoil_keep (t : Nat) (f : Coil → Coil) (s : State) : (modCoil t f s).keep = s.keep := rfl
@[simp] theorem modCoil_sync (t : Nat) (f : Coil → Coil) (s : State) : (modCoil t f s).sync = s.sync := rfl

@[simp] theorem modGroup_pending (g : Nat) (f : Group → Group) (s : State) : (modGroup g f s).pending = s.pending := rfl
@[simp] theorem modGroup_out (g : Nat) (f : Group → Group) (s : State) : (modGroup g f s).out = s.out := rfl
@[simp] theorem modGroup_free (g : Nat) (f : Group → Group) (s : State) : (modGroup g f s).free = s.free := rfl
@[simp] theorem modGroup_board (g : Nat) (f : Group → Group) (s : State) : (modGroup g f s).board = s.board := rfl
@[simp] theorem modGroup_clock (g : Nat) (f : Group → Group) (s : State) : (modGroup g f s).clock = s.clock := rfl
@[simp] theorem modGroup_dev (g : Nat) (f : Group → Group) (s : State) : (modGroup g f s).dev = s.dev := rfl
@[simp] theorem modGroup_err (g : Nat) (f : Group → Group) (s : State) : (modGroup g f s).err = s.err := rfl
@[simp] theorem modGroup_tick (g : Nat) (f : Group → Group) (s : State) : (modGroup g f s).tick = s.tick := rfl
@[simp] theorem modGroup_replay (g : Nat) (f : Group → Group) (s : State) : (modGroup g f s).replay = s.replay := rfl
@[simp] theorem modGroup_sides (g : Nat) (f : Group → Group) (s : State) : (modGroup g f s).sides = s.sides := rfl
@[simp] theorem modGroup_cmdq (g : Nat) (f : Group → Group) (s : State) : (modGroup g f s).cmdq = s.cmdq := rfl
@[simp] theorem modGroup_host (g : Nat) (f : Group → Group) (s : State) : (modGroup g f s).host = s.host := rfl
@[simp] theorem modGroup_hold (g : Nat) (f : Group → Group) (s : State) : (modGroup g f s).hold = s.hold := rfl
@[simp] theorem modGroup_memc (g : Nat) (f : Group → Group) (s : State) : (modGroup g f s).memc = s.memc := rfl
@[simp] theorem modGroup_memch (g : Nat) (f : Group → Group) (s : State) : (modGroup g f s).memch = s.memch := rfl
@[simp] theorem modGroup_dram (g : Nat) (f : Group → Group) (s : State) : (modGroup g f s).dram = s.dram := rfl
@[simp] theorem modGroup_cfg (g : Nat) (f : Group → Group) (s : State) : (modGroup g f s).cfg = s.cfg := rfl
@[simp] theorem modGroup_tiles (g : Nat) (f : Group → Group) (s : State) : (modGroup g f s).tiles = s.tiles := rfl
@[simp] theorem modGroup_quads (g : Nat) (f : Group → Group) (s : State) : (modGroup g f s).quads = s.quads := rfl
@[simp] theorem modGroup_lincals (g : Nat) (f : Group → Group) (s : State) : (modGroup g f s).lincals = s.lincals := rfl
@[simp] theorem modGroup_calReqs (g : Nat) (f : Group → Group) (s : State) : (modGroup g f s).calReqs = s.calReqs := rfl
@[simp] theorem modGroup_shut (g : Nat) (f : Group → Group) (s : State) : (modGroup g f s).shut = { s.shut with groups := vmod s.shut.groups g f } := rfl
@[simp] theorem modGroup_engs (g : Nat) (f : Group → Group) (s : State) : (modGroup g f s).engs = s.engs := rfl
@[simp] theorem modGroup_eng (g : Nat) (f : Group → Group) (s : State) : (modGroup g f s).eng = s.eng := rfl
@[simp] theorem modGroup_hk (g : Nat) (f : Group → Group) (s : State) : (modGroup g f s).hk = s.hk := rfl
@[simp] theorem modGroup_spc (g : Nat) (f : Group → Group) (s : State) : (modGroup g f s).spc = s.spc := rfl
@[simp] theorem modGroup_spt (g : Nat) (f : Group → Group) (s : State) : (modGroup g f s).spt = s.spt := rfl
@[simp] theorem modGroup_keep (g : Nat) (f : Group → Group) (s : State) : (modGroup g f s).keep = s.keep := rfl
@[simp] theorem modGroup_sync (g : Nat) (f : Group → Group) (s : State) : (modGroup g f s).sync = s.sync := rfl

@[simp] theorem modQuad_pending (q : Nat) (f : Quad → Quad) (s : State) : (modQuad q f s).pending = s.pending := rfl
@[simp] theorem modQuad_out (q : Nat) (f : Quad → Quad) (s : State) : (modQuad q f s).out = s.out := rfl
@[simp] theorem modQuad_free (q : Nat) (f : Quad → Quad) (s : State) : (modQuad q f s).free = s.free := rfl
@[simp] theorem modQuad_board (q : Nat) (f : Quad → Quad) (s : State) : (modQuad q f s).board = s.board := rfl
@[simp] theorem modQuad_clock (q : Nat) (f : Quad → Quad) (s : State) : (modQuad q f s).clock = s.clock := rfl
@[simp] theorem modQuad_dev (q : Nat) (f : Quad → Quad) (s : State) : (modQuad q f s).dev = s.dev := rfl
@[simp] theorem modQuad_err (q : Nat) (f : Quad → Quad) (s : State) : (modQuad q f s).err = s.err := rfl
@[simp] theorem modQuad_tick (q : Nat) (f : Quad → Quad) (s : State) : (modQuad q f s).tick = s.tick := rfl
@[simp] theorem modQuad_replay (q : Nat) (f : Quad → Quad) (s : State) : (modQuad q f s).replay = s.replay := rfl
@[simp] theorem modQuad_sides (q : Nat) (f : Quad → Quad) (s : State) : (modQuad q f s).sides = s.sides := rfl
@[simp] theorem modQuad_cmdq (q : Nat) (f : Quad → Quad) (s : State) : (modQuad q f s).cmdq = s.cmdq := rfl
@[simp] theorem modQuad_host (q : Nat) (f : Quad → Quad) (s : State) : (modQuad q f s).host = s.host := rfl
@[simp] theorem modQuad_hold (q : Nat) (f : Quad → Quad) (s : State) : (modQuad q f s).hold = s.hold := rfl
@[simp] theorem modQuad_memc (q : Nat) (f : Quad → Quad) (s : State) : (modQuad q f s).memc = s.memc := rfl
@[simp] theorem modQuad_memch (q : Nat) (f : Quad → Quad) (s : State) : (modQuad q f s).memch = s.memch := rfl
@[simp] theorem modQuad_dram (q : Nat) (f : Quad → Quad) (s : State) : (modQuad q f s).dram = s.dram := rfl
@[simp] theorem modQuad_cfg (q : Nat) (f : Quad → Quad) (s : State) : (modQuad q f s).cfg = s.cfg := rfl
@[simp] theorem modQuad_tiles (q : Nat) (f : Quad → Quad) (s : State) : (modQuad q f s).tiles = s.tiles := rfl
@[simp] theorem modQuad_quads (q : Nat) (f : Quad → Quad) (s : State) : (modQuad q f s).quads = vmod s.quads q f := rfl
@[simp] theorem modQuad_lincals (q : Nat) (f : Quad → Quad) (s : State) : (modQuad q f s).lincals = s.lincals := rfl
@[simp] theorem modQuad_calReqs (q : Nat) (f : Quad → Quad) (s : State) : (modQuad q f s).calReqs = s.calReqs := rfl
@[simp] theorem modQuad_shut (q : Nat) (f : Quad → Quad) (s : State) : (modQuad q f s).shut = s.shut := rfl
@[simp] theorem modQuad_engs (q : Nat) (f : Quad → Quad) (s : State) : (modQuad q f s).engs = s.engs := rfl
@[simp] theorem modQuad_eng (q : Nat) (f : Quad → Quad) (s : State) : (modQuad q f s).eng = s.eng := rfl
@[simp] theorem modQuad_hk (q : Nat) (f : Quad → Quad) (s : State) : (modQuad q f s).hk = s.hk := rfl
@[simp] theorem modQuad_spc (q : Nat) (f : Quad → Quad) (s : State) : (modQuad q f s).spc = s.spc := rfl
@[simp] theorem modQuad_spt (q : Nat) (f : Quad → Quad) (s : State) : (modQuad q f s).spt = s.spt := rfl
@[simp] theorem modQuad_keep (q : Nat) (f : Quad → Quad) (s : State) : (modQuad q f s).keep = s.keep := rfl
@[simp] theorem modQuad_sync (q : Nat) (f : Quad → Quad) (s : State) : (modQuad q f s).sync = s.sync := rfl

@[simp] theorem modErr_pending (c : Nat) (f : ErrClass → ErrClass) (s : State) : (modErr c f s).pending = s.pending := rfl
@[simp] theorem modErr_out (c : Nat) (f : ErrClass → ErrClass) (s : State) : (modErr c f s).out = s.out := rfl
@[simp] theorem modErr_free (c : Nat) (f : ErrClass → ErrClass) (s : State) : (modErr c f s).free = s.free := rfl
@[simp] theorem modErr_board (c : Nat) (f : ErrClass → ErrClass) (s : State) : (modErr c f s).board = s.board := rfl
@[simp] theorem modErr_clock (c : Nat) (f : ErrClass → ErrClass) (s : State) : (modErr c f s).clock = s.clock := rfl
@[simp] theorem modErr_dev (c : Nat) (f : ErrClass → ErrClass) (s : State) : (modErr c f s).dev = s.dev := rfl
@[simp] theorem modErr_err (c : Nat) (f : ErrClass → ErrClass) (s : State) : (modErr c f s).err = { s.err with cls := vmod s.err.cls c f } := rfl
@[simp] theorem modErr_tick (c : Nat) (f : ErrClass → ErrClass) (s : State) : (modErr c f s).tick = s.tick := rfl
@[simp] theorem modErr_replay (c : Nat) (f : ErrClass → ErrClass) (s : State) : (modErr c f s).replay = s.replay := rfl
@[simp] theorem modErr_sides (c : Nat) (f : ErrClass → ErrClass) (s : State) : (modErr c f s).sides = s.sides := rfl
@[simp] theorem modErr_cmdq (c : Nat) (f : ErrClass → ErrClass) (s : State) : (modErr c f s).cmdq = s.cmdq := rfl
@[simp] theorem modErr_host (c : Nat) (f : ErrClass → ErrClass) (s : State) : (modErr c f s).host = s.host := rfl
@[simp] theorem modErr_hold (c : Nat) (f : ErrClass → ErrClass) (s : State) : (modErr c f s).hold = s.hold := rfl
@[simp] theorem modErr_memc (c : Nat) (f : ErrClass → ErrClass) (s : State) : (modErr c f s).memc = s.memc := rfl
@[simp] theorem modErr_memch (c : Nat) (f : ErrClass → ErrClass) (s : State) : (modErr c f s).memch = s.memch := rfl
@[simp] theorem modErr_dram (c : Nat) (f : ErrClass → ErrClass) (s : State) : (modErr c f s).dram = s.dram := rfl
@[simp] theorem modErr_cfg (c : Nat) (f : ErrClass → ErrClass) (s : State) : (modErr c f s).cfg = s.cfg := rfl
@[simp] theorem modErr_tiles (c : Nat) (f : ErrClass → ErrClass) (s : State) : (modErr c f s).tiles = s.tiles := rfl
@[simp] theorem modErr_quads (c : Nat) (f : ErrClass → ErrClass) (s : State) : (modErr c f s).quads = s.quads := rfl
@[simp] theorem modErr_lincals (c : Nat) (f : ErrClass → ErrClass) (s : State) : (modErr c f s).lincals = s.lincals := rfl
@[simp] theorem modErr_calReqs (c : Nat) (f : ErrClass → ErrClass) (s : State) : (modErr c f s).calReqs = s.calReqs := rfl
@[simp] theorem modErr_shut (c : Nat) (f : ErrClass → ErrClass) (s : State) : (modErr c f s).shut = s.shut := rfl
@[simp] theorem modErr_engs (c : Nat) (f : ErrClass → ErrClass) (s : State) : (modErr c f s).engs = s.engs := rfl
@[simp] theorem modErr_eng (c : Nat) (f : ErrClass → ErrClass) (s : State) : (modErr c f s).eng = s.eng := rfl
@[simp] theorem modErr_hk (c : Nat) (f : ErrClass → ErrClass) (s : State) : (modErr c f s).hk = s.hk := rfl
@[simp] theorem modErr_spc (c : Nat) (f : ErrClass → ErrClass) (s : State) : (modErr c f s).spc = s.spc := rfl
@[simp] theorem modErr_spt (c : Nat) (f : ErrClass → ErrClass) (s : State) : (modErr c f s).spt = s.spt := rfl
@[simp] theorem modErr_keep (c : Nat) (f : ErrClass → ErrClass) (s : State) : (modErr c f s).keep = s.keep := rfl
@[simp] theorem modErr_sync (c : Nat) (f : ErrClass → ErrClass) (s : State) : (modErr c f s).sync = s.sync := rfl

@[simp] theorem modMemc_pending (f : Memc → Memc) (s : State) : (modMemc f s).pending = s.pending := rfl
@[simp] theorem modMemc_out (f : Memc → Memc) (s : State) : (modMemc f s).out = s.out := rfl
@[simp] theorem modMemc_free (f : Memc → Memc) (s : State) : (modMemc f s).free = s.free := rfl
@[simp] theorem modMemc_board (f : Memc → Memc) (s : State) : (modMemc f s).board = s.board := rfl
@[simp] theorem modMemc_clock (f : Memc → Memc) (s : State) : (modMemc f s).clock = s.clock := rfl
@[simp] theorem modMemc_dev (f : Memc → Memc) (s : State) : (modMemc f s).dev = s.dev := rfl
@[simp] theorem modMemc_err (f : Memc → Memc) (s : State) : (modMemc f s).err = s.err := rfl
@[simp] theorem modMemc_tick (f : Memc → Memc) (s : State) : (modMemc f s).tick = s.tick := rfl
@[simp] theorem modMemc_replay (f : Memc → Memc) (s : State) : (modMemc f s).replay = s.replay := rfl
@[simp] theorem modMemc_sides (f : Memc → Memc) (s : State) : (modMemc f s).sides = s.sides := rfl
@[simp] theorem modMemc_cmdq (f : Memc → Memc) (s : State) : (modMemc f s).cmdq = s.cmdq := rfl
@[simp] theorem modMemc_host (f : Memc → Memc) (s : State) : (modMemc f s).host = s.host := rfl
@[simp] theorem modMemc_hold (f : Memc → Memc) (s : State) : (modMemc f s).hold = s.hold := rfl
@[simp] theorem modMemc_memc (f : Memc → Memc) (s : State) : (modMemc f s).memc = f s.memc := rfl
@[simp] theorem modMemc_memch (f : Memc → Memc) (s : State) : (modMemc f s).memch = s.memch := rfl
@[simp] theorem modMemc_dram (f : Memc → Memc) (s : State) : (modMemc f s).dram = s.dram := rfl
@[simp] theorem modMemc_cfg (f : Memc → Memc) (s : State) : (modMemc f s).cfg = s.cfg := rfl
@[simp] theorem modMemc_tiles (f : Memc → Memc) (s : State) : (modMemc f s).tiles = s.tiles := rfl
@[simp] theorem modMemc_quads (f : Memc → Memc) (s : State) : (modMemc f s).quads = s.quads := rfl
@[simp] theorem modMemc_lincals (f : Memc → Memc) (s : State) : (modMemc f s).lincals = s.lincals := rfl
@[simp] theorem modMemc_calReqs (f : Memc → Memc) (s : State) : (modMemc f s).calReqs = s.calReqs := rfl
@[simp] theorem modMemc_shut (f : Memc → Memc) (s : State) : (modMemc f s).shut = s.shut := rfl
@[simp] theorem modMemc_engs (f : Memc → Memc) (s : State) : (modMemc f s).engs = s.engs := rfl
@[simp] theorem modMemc_eng (f : Memc → Memc) (s : State) : (modMemc f s).eng = s.eng := rfl
@[simp] theorem modMemc_hk (f : Memc → Memc) (s : State) : (modMemc f s).hk = s.hk := rfl
@[simp] theorem modMemc_spc (f : Memc → Memc) (s : State) : (modMemc f s).spc = s.spc := rfl
@[simp] theorem modMemc_spt (f : Memc → Memc) (s : State) : (modMemc f s).spt = s.spt := rfl
@[simp] theorem modMemc_keep (f : Memc → Memc) (s : State) : (modMemc f s).keep = s.keep := rfl
@[simp] theorem modMemc_sync (f : Memc → Memc) (s : State) : (modMemc f s).sync = s.sync := rfl

@[simp] theorem modHost_pending (f : HostPort → HostPort) (s : State) : (modHost f s).pending = s.pending := rfl
@[simp] theorem modHost_out (f : HostPort → HostPort) (s : State) : (modHost f s).out = s.out := rfl
@[simp] theorem modHost_free (f : HostPort → HostPort) (s : State) : (modHost f s).free = s.free := rfl
@[simp] theorem modHost_board (f : HostPort → HostPort) (s : State) : (modHost f s).board = s.board := rfl
@[simp] theorem modHost_clock (f : HostPort → HostPort) (s : State) : (modHost f s).clock = s.clock := rfl
@[simp] theorem modHost_dev (f : HostPort → HostPort) (s : State) : (modHost f s).dev = s.dev := rfl
@[simp] theorem modHost_err (f : HostPort → HostPort) (s : State) : (modHost f s).err = s.err := rfl
@[simp] theorem modHost_tick (f : HostPort → HostPort) (s : State) : (modHost f s).tick = s.tick := rfl
@[simp] theorem modHost_replay (f : HostPort → HostPort) (s : State) : (modHost f s).replay = s.replay := rfl
@[simp] theorem modHost_sides (f : HostPort → HostPort) (s : State) : (modHost f s).sides = s.sides := rfl
@[simp] theorem modHost_cmdq (f : HostPort → HostPort) (s : State) : (modHost f s).cmdq = s.cmdq := rfl
@[simp] theorem modHost_host (f : HostPort → HostPort) (s : State) : (modHost f s).host = f s.host := rfl
@[simp] theorem modHost_hold (f : HostPort → HostPort) (s : State) : (modHost f s).hold = s.hold := rfl
@[simp] theorem modHost_memc (f : HostPort → HostPort) (s : State) : (modHost f s).memc = s.memc := rfl
@[simp] theorem modHost_memch (f : HostPort → HostPort) (s : State) : (modHost f s).memch = s.memch := rfl
@[simp] theorem modHost_dram (f : HostPort → HostPort) (s : State) : (modHost f s).dram = s.dram := rfl
@[simp] theorem modHost_cfg (f : HostPort → HostPort) (s : State) : (modHost f s).cfg = s.cfg := rfl
@[simp] theorem modHost_tiles (f : HostPort → HostPort) (s : State) : (modHost f s).tiles = s.tiles := rfl
@[simp] theorem modHost_quads (f : HostPort → HostPort) (s : State) : (modHost f s).quads = s.quads := rfl
@[simp] theorem modHost_lincals (f : HostPort → HostPort) (s : State) : (modHost f s).lincals = s.lincals := rfl
@[simp] theorem modHost_calReqs (f : HostPort → HostPort) (s : State) : (modHost f s).calReqs = s.calReqs := rfl
@[simp] theorem modHost_shut (f : HostPort → HostPort) (s : State) : (modHost f s).shut = s.shut := rfl
@[simp] theorem modHost_engs (f : HostPort → HostPort) (s : State) : (modHost f s).engs = s.engs := rfl
@[simp] theorem modHost_eng (f : HostPort → HostPort) (s : State) : (modHost f s).eng = s.eng := rfl
@[simp] theorem modHost_hk (f : HostPort → HostPort) (s : State) : (modHost f s).hk = s.hk := rfl
@[simp] theorem modHost_spc (f : HostPort → HostPort) (s : State) : (modHost f s).spc = s.spc := rfl
@[simp] theorem modHost_spt (f : HostPort → HostPort) (s : State) : (modHost f s).spt = s.spt := rfl
@[simp] theorem modHost_keep (f : HostPort → HostPort) (s : State) : (modHost f s).keep = s.keep := rfl
@[simp] theorem modHost_sync (f : HostPort → HostPort) (s : State) : (modHost f s).sync = s.sync := rfl

@[simp] theorem modCmdq_pending (f : Cmdq → Cmdq) (s : State) : (modCmdq f s).pending = s.pending := rfl
@[simp] theorem modCmdq_out (f : Cmdq → Cmdq) (s : State) : (modCmdq f s).out = s.out := rfl
@[simp] theorem modCmdq_free (f : Cmdq → Cmdq) (s : State) : (modCmdq f s).free = s.free := rfl
@[simp] theorem modCmdq_board (f : Cmdq → Cmdq) (s : State) : (modCmdq f s).board = s.board := rfl
@[simp] theorem modCmdq_clock (f : Cmdq → Cmdq) (s : State) : (modCmdq f s).clock = s.clock := rfl
@[simp] theorem modCmdq_dev (f : Cmdq → Cmdq) (s : State) : (modCmdq f s).dev = s.dev := rfl
@[simp] theorem modCmdq_err (f : Cmdq → Cmdq) (s : State) : (modCmdq f s).err = s.err := rfl
@[simp] theorem modCmdq_tick (f : Cmdq → Cmdq) (s : State) : (modCmdq f s).tick = s.tick := rfl
@[simp] theorem modCmdq_replay (f : Cmdq → Cmdq) (s : State) : (modCmdq f s).replay = s.replay := rfl
@[simp] theorem modCmdq_sides (f : Cmdq → Cmdq) (s : State) : (modCmdq f s).sides = s.sides := rfl
@[simp] theorem modCmdq_cmdq (f : Cmdq → Cmdq) (s : State) : (modCmdq f s).cmdq = f s.cmdq := rfl
@[simp] theorem modCmdq_host (f : Cmdq → Cmdq) (s : State) : (modCmdq f s).host = s.host := rfl
@[simp] theorem modCmdq_hold (f : Cmdq → Cmdq) (s : State) : (modCmdq f s).hold = s.hold := rfl
@[simp] theorem modCmdq_memc (f : Cmdq → Cmdq) (s : State) : (modCmdq f s).memc = s.memc := rfl
@[simp] theorem modCmdq_memch (f : Cmdq → Cmdq) (s : State) : (modCmdq f s).memch = s.memch := rfl
@[simp] theorem modCmdq_dram (f : Cmdq → Cmdq) (s : State) : (modCmdq f s).dram = s.dram := rfl
@[simp] theorem modCmdq_cfg (f : Cmdq → Cmdq) (s : State) : (modCmdq f s).cfg = s.cfg := rfl
@[simp] theorem modCmdq_tiles (f : Cmdq → Cmdq) (s : State) : (modCmdq f s).tiles = s.tiles := rfl
@[simp] theorem modCmdq_quads (f : Cmdq → Cmdq) (s : State) : (modCmdq f s).quads = s.quads := rfl
@[simp] theorem modCmdq_lincals (f : Cmdq → Cmdq) (s : State) : (modCmdq f s).lincals = s.lincals := rfl
@[simp] theorem modCmdq_calReqs (f : Cmdq → Cmdq) (s : State) : (modCmdq f s).calReqs = s.calReqs := rfl
@[simp] theorem modCmdq_shut (f : Cmdq → Cmdq) (s : State) : (modCmdq f s).shut = s.shut := rfl
@[simp] theorem modCmdq_engs (f : Cmdq → Cmdq) (s : State) : (modCmdq f s).engs = s.engs := rfl
@[simp] theorem modCmdq_eng (f : Cmdq → Cmdq) (s : State) : (modCmdq f s).eng = s.eng := rfl
@[simp] theorem modCmdq_hk (f : Cmdq → Cmdq) (s : State) : (modCmdq f s).hk = s.hk := rfl
@[simp] theorem modCmdq_spc (f : Cmdq → Cmdq) (s : State) : (modCmdq f s).spc = s.spc := rfl
@[simp] theorem modCmdq_spt (f : Cmdq → Cmdq) (s : State) : (modCmdq f s).spt = s.spt := rfl
@[simp] theorem modCmdq_keep (f : Cmdq → Cmdq) (s : State) : (modCmdq f s).keep = s.keep := rfl
@[simp] theorem modCmdq_sync (f : Cmdq → Cmdq) (s : State) : (modCmdq f s).sync = s.sync := rfl

@[simp] theorem modTick_pending (f : TickBlk → TickBlk) (s : State) : (modTick f s).pending = s.pending := rfl
@[simp] theorem modTick_out (f : TickBlk → TickBlk) (s : State) : (modTick f s).out = s.out := rfl
@[simp] theorem modTick_free (f : TickBlk → TickBlk) (s : State) : (modTick f s).free = s.free := rfl
@[simp] theorem modTick_board (f : TickBlk → TickBlk) (s : State) : (modTick f s).board = s.board := rfl
@[simp] theorem modTick_clock (f : TickBlk → TickBlk) (s : State) : (modTick f s).clock = s.clock := rfl
@[simp] theorem modTick_dev (f : TickBlk → TickBlk) (s : State) : (modTick f s).dev = s.dev := rfl
@[simp] theorem modTick_err (f : TickBlk → TickBlk) (s : State) : (modTick f s).err = s.err := rfl
@[simp] theorem modTick_tick (f : TickBlk → TickBlk) (s : State) : (modTick f s).tick = f s.tick := rfl
@[simp] theorem modTick_replay (f : TickBlk → TickBlk) (s : State) : (modTick f s).replay = s.replay := rfl
@[simp] theorem modTick_sides (f : TickBlk → TickBlk) (s : State) : (modTick f s).sides = s.sides := rfl
@[simp] theorem modTick_cmdq (f : TickBlk → TickBlk) (s : State) : (modTick f s).cmdq = s.cmdq := rfl
@[simp] theorem modTick_host (f : TickBlk → TickBlk) (s : State) : (modTick f s).host = s.host := rfl
@[simp] theorem modTick_hold (f : TickBlk → TickBlk) (s : State) : (modTick f s).hold = s.hold := rfl
@[simp] theorem modTick_memc (f : TickBlk → TickBlk) (s : State) : (modTick f s).memc = s.memc := rfl
@[simp] theorem modTick_memch (f : TickBlk → TickBlk) (s : State) : (modTick f s).memch = s.memch := rfl
@[simp] theorem modTick_dram (f : TickBlk → TickBlk) (s : State) : (modTick f s).dram = s.dram := rfl
@[simp] theorem modTick_cfg (f : TickBlk → TickBlk) (s : State) : (modTick f s).cfg = s.cfg := rfl
@[simp] theorem modTick_tiles (f : TickBlk → TickBlk) (s : State) : (modTick f s).tiles = s.tiles := rfl
@[simp] theorem modTick_quads (f : TickBlk → TickBlk) (s : State) : (modTick f s).quads = s.quads := rfl
@[simp] theorem modTick_lincals (f : TickBlk → TickBlk) (s : State) : (modTick f s).lincals = s.lincals := rfl
@[simp] theorem modTick_calReqs (f : TickBlk → TickBlk) (s : State) : (modTick f s).calReqs = s.calReqs := rfl
@[simp] theorem modTick_shut (f : TickBlk → TickBlk) (s : State) : (modTick f s).shut = s.shut := rfl
@[simp] theorem modTick_engs (f : TickBlk → TickBlk) (s : State) : (modTick f s).engs = s.engs := rfl
@[simp] theorem modTick_eng (f : TickBlk → TickBlk) (s : State) : (modTick f s).eng = s.eng := rfl
@[simp] theorem modTick_hk (f : TickBlk → TickBlk) (s : State) : (modTick f s).hk = s.hk := rfl
@[simp] theorem modTick_spc (f : TickBlk → TickBlk) (s : State) : (modTick f s).spc = s.spc := rfl
@[simp] theorem modTick_spt (f : TickBlk → TickBlk) (s : State) : (modTick f s).spt = s.spt := rfl
@[simp] theorem modTick_keep (f : TickBlk → TickBlk) (s : State) : (modTick f s).keep = s.keep := rfl
@[simp] theorem modTick_sync (f : TickBlk → TickBlk) (s : State) : (modTick f s).sync = s.sync := rfl

@[simp] theorem modKeep_pending (f : Keep → Keep) (s : State) : (modKeep f s).pending = s.pending := rfl
@[simp] theorem modKeep_out (f : Keep → Keep) (s : State) : (modKeep f s).out = s.out := rfl
@[simp] theorem modKeep_free (f : Keep → Keep) (s : State) : (modKeep f s).free = s.free := rfl
@[simp] theorem modKeep_board (f : Keep → Keep) (s : State) : (modKeep f s).board = s.board := rfl
@[simp] theorem modKeep_clock (f : Keep → Keep) (s : State) : (modKeep f s).clock = s.clock := rfl
@[simp] theorem modKeep_dev (f : Keep → Keep) (s : State) : (modKeep f s).dev = s.dev := rfl
@[simp] theorem modKeep_err (f : Keep → Keep) (s : State) : (modKeep f s).err = s.err := rfl
@[simp] theorem modKeep_tick (f : Keep → Keep) (s : State) : (modKeep f s).tick = s.tick := rfl
@[simp] theorem modKeep_replay (f : Keep → Keep) (s : State) : (modKeep f s).replay = s.replay := rfl
@[simp] theorem modKeep_sides (f : Keep → Keep) (s : State) : (modKeep f s).sides = s.sides := rfl
@[simp] theorem modKeep_cmdq (f : Keep → Keep) (s : State) : (modKeep f s).cmdq = s.cmdq := rfl
@[simp] theorem modKeep_host (f : Keep → Keep) (s : State) : (modKeep f s).host = s.host := rfl
@[simp] theorem modKeep_hold (f : Keep → Keep) (s : State) : (modKeep f s).hold = s.hold := rfl
@[simp] theorem modKeep_memc (f : Keep → Keep) (s : State) : (modKeep f s).memc = s.memc := rfl
@[simp] theorem modKeep_memch (f : Keep → Keep) (s : State) : (modKeep f s).memch = s.memch := rfl
@[simp] theorem modKeep_dram (f : Keep → Keep) (s : State) : (modKeep f s).dram = s.dram := rfl
@[simp] theorem modKeep_cfg (f : Keep → Keep) (s : State) : (modKeep f s).cfg = s.cfg := rfl
@[simp] theorem modKeep_tiles (f : Keep → Keep) (s : State) : (modKeep f s).tiles = s.tiles := rfl
@[simp] theorem modKeep_quads (f : Keep → Keep) (s : State) : (modKeep f s).quads = s.quads := rfl
@[simp] theorem modKeep_lincals (f : Keep → Keep) (s : State) : (modKeep f s).lincals = s.lincals := rfl
@[simp] theorem modKeep_calReqs (f : Keep → Keep) (s : State) : (modKeep f s).calReqs = s.calReqs := rfl
@[simp] theorem modKeep_shut (f : Keep → Keep) (s : State) : (modKeep f s).shut = s.shut := rfl
@[simp] theorem modKeep_engs (f : Keep → Keep) (s : State) : (modKeep f s).engs = s.engs := rfl
@[simp] theorem modKeep_eng (f : Keep → Keep) (s : State) : (modKeep f s).eng = s.eng := rfl
@[simp] theorem modKeep_hk (f : Keep → Keep) (s : State) : (modKeep f s).hk = s.hk := rfl
@[simp] theorem modKeep_spc (f : Keep → Keep) (s : State) : (modKeep f s).spc = s.spc := rfl
@[simp] theorem modKeep_spt (f : Keep → Keep) (s : State) : (modKeep f s).spt = s.spt := rfl
@[simp] theorem modKeep_keep (f : Keep → Keep) (s : State) : (modKeep f s).keep = f s.keep := rfl
@[simp] theorem modKeep_sync (f : Keep → Keep) (s : State) : (modKeep f s).sync = s.sync := rfl

@[simp] theorem modHk_pending (f : Hkadc → Hkadc) (s : State) : (modHk f s).pending = s.pending := rfl
@[simp] theorem modHk_out (f : Hkadc → Hkadc) (s : State) : (modHk f s).out = s.out := rfl
@[simp] theorem modHk_free (f : Hkadc → Hkadc) (s : State) : (modHk f s).free = s.free := rfl
@[simp] theorem modHk_board (f : Hkadc → Hkadc) (s : State) : (modHk f s).board = s.board := rfl
@[simp] theorem modHk_clock (f : Hkadc → Hkadc) (s : State) : (modHk f s).clock = s.clock := rfl
@[simp] theorem modHk_dev (f : Hkadc → Hkadc) (s : State) : (modHk f s).dev = s.dev := rfl
@[simp] theorem modHk_err (f : Hkadc → Hkadc) (s : State) : (modHk f s).err = s.err := rfl
@[simp] theorem modHk_tick (f : Hkadc → Hkadc) (s : State) : (modHk f s).tick = s.tick := rfl
@[simp] theorem modHk_replay (f : Hkadc → Hkadc) (s : State) : (modHk f s).replay = s.replay := rfl
@[simp] theorem modHk_sides (f : Hkadc → Hkadc) (s : State) : (modHk f s).sides = s.sides := rfl
@[simp] theorem modHk_cmdq (f : Hkadc → Hkadc) (s : State) : (modHk f s).cmdq = s.cmdq := rfl
@[simp] theorem modHk_host (f : Hkadc → Hkadc) (s : State) : (modHk f s).host = s.host := rfl
@[simp] theorem modHk_hold (f : Hkadc → Hkadc) (s : State) : (modHk f s).hold = s.hold := rfl
@[simp] theorem modHk_memc (f : Hkadc → Hkadc) (s : State) : (modHk f s).memc = s.memc := rfl
@[simp] theorem modHk_memch (f : Hkadc → Hkadc) (s : State) : (modHk f s).memch = s.memch := rfl
@[simp] theorem modHk_dram (f : Hkadc → Hkadc) (s : State) : (modHk f s).dram = s.dram := rfl
@[simp] theorem modHk_cfg (f : Hkadc → Hkadc) (s : State) : (modHk f s).cfg = s.cfg := rfl
@[simp] theorem modHk_tiles (f : Hkadc → Hkadc) (s : State) : (modHk f s).tiles = s.tiles := rfl
@[simp] theorem modHk_quads (f : Hkadc → Hkadc) (s : State) : (modHk f s).quads = s.quads := rfl
@[simp] theorem modHk_lincals (f : Hkadc → Hkadc) (s : State) : (modHk f s).lincals = s.lincals := rfl
@[simp] theorem modHk_calReqs (f : Hkadc → Hkadc) (s : State) : (modHk f s).calReqs = s.calReqs := rfl
@[simp] theorem modHk_shut (f : Hkadc → Hkadc) (s : State) : (modHk f s).shut = s.shut := rfl
@[simp] theorem modHk_engs (f : Hkadc → Hkadc) (s : State) : (modHk f s).engs = s.engs := rfl
@[simp] theorem modHk_eng (f : Hkadc → Hkadc) (s : State) : (modHk f s).eng = s.eng := rfl
@[simp] theorem modHk_hk (f : Hkadc → Hkadc) (s : State) : (modHk f s).hk = f s.hk := rfl
@[simp] theorem modHk_spc (f : Hkadc → Hkadc) (s : State) : (modHk f s).spc = s.spc := rfl
@[simp] theorem modHk_spt (f : Hkadc → Hkadc) (s : State) : (modHk f s).spt = s.spt := rfl
@[simp] theorem modHk_keep (f : Hkadc → Hkadc) (s : State) : (modHk f s).keep = s.keep := rfl
@[simp] theorem modHk_sync (f : Hkadc → Hkadc) (s : State) : (modHk f s).sync = s.sync := rfl

@[simp] theorem modSync_pending (f : Sync → Sync) (s : State) : (modSync f s).pending = s.pending := rfl
@[simp] theorem modSync_out (f : Sync → Sync) (s : State) : (modSync f s).out = s.out := rfl
@[simp] theorem modSync_free (f : Sync → Sync) (s : State) : (modSync f s).free = s.free := rfl
@[simp] theorem modSync_board (f : Sync → Sync) (s : State) : (modSync f s).board = s.board := rfl
@[simp] theorem modSync_clock (f : Sync → Sync) (s : State) : (modSync f s).clock = s.clock := rfl
@[simp] theorem modSync_dev (f : Sync → Sync) (s : State) : (modSync f s).dev = s.dev := rfl
@[simp] theorem modSync_err (f : Sync → Sync) (s : State) : (modSync f s).err = s.err := rfl
@[simp] theorem modSync_tick (f : Sync → Sync) (s : State) : (modSync f s).tick = s.tick := rfl
@[simp] theorem modSync_replay (f : Sync → Sync) (s : State) : (modSync f s).replay = s.replay := rfl
@[simp] theorem modSync_sides (f : Sync → Sync) (s : State) : (modSync f s).sides = s.sides := rfl
@[simp] theorem modSync_cmdq (f : Sync → Sync) (s : State) : (modSync f s).cmdq = s.cmdq := rfl
@[simp] theorem modSync_host (f : Sync → Sync) (s : State) : (modSync f s).host = s.host := rfl
@[simp] theorem modSync_hold (f : Sync → Sync) (s : State) : (modSync f s).hold = s.hold := rfl
@[simp] theorem modSync_memc (f : Sync → Sync) (s : State) : (modSync f s).memc = s.memc := rfl
@[simp] theorem modSync_memch (f : Sync → Sync) (s : State) : (modSync f s).memch = s.memch := rfl
@[simp] theorem modSync_dram (f : Sync → Sync) (s : State) : (modSync f s).dram = s.dram := rfl
@[simp] theorem modSync_cfg (f : Sync → Sync) (s : State) : (modSync f s).cfg = s.cfg := rfl
@[simp] theorem modSync_tiles (f : Sync → Sync) (s : State) : (modSync f s).tiles = s.tiles := rfl
@[simp] theorem modSync_quads (f : Sync → Sync) (s : State) : (modSync f s).quads = s.quads := rfl
@[simp] theorem modSync_lincals (f : Sync → Sync) (s : State) : (modSync f s).lincals = s.lincals := rfl
@[simp] theorem modSync_calReqs (f : Sync → Sync) (s : State) : (modSync f s).calReqs = s.calReqs := rfl
@[simp] theorem modSync_shut (f : Sync → Sync) (s : State) : (modSync f s).shut = s.shut := rfl
@[simp] theorem modSync_engs (f : Sync → Sync) (s : State) : (modSync f s).engs = s.engs := rfl
@[simp] theorem modSync_eng (f : Sync → Sync) (s : State) : (modSync f s).eng = s.eng := rfl
@[simp] theorem modSync_hk (f : Sync → Sync) (s : State) : (modSync f s).hk = s.hk := rfl
@[simp] theorem modSync_spc (f : Sync → Sync) (s : State) : (modSync f s).spc = s.spc := rfl
@[simp] theorem modSync_spt (f : Sync → Sync) (s : State) : (modSync f s).spt = s.spt := rfl
@[simp] theorem modSync_keep (f : Sync → Sync) (s : State) : (modSync f s).keep = s.keep := rfl
@[simp] theorem modSync_sync (f : Sync → Sync) (s : State) : (modSync f s).sync = f s.sync := rfl

@[simp] theorem modHold_pending (f : Hold → Hold) (s : State) : (modHold f s).pending = s.pending := rfl
@[simp] theorem modHold_out (f : Hold → Hold) (s : State) : (modHold f s).out = s.out := rfl
@[simp] theorem modHold_free (f : Hold → Hold) (s : State) : (modHold f s).free = s.free := rfl
@[simp] theorem modHold_board (f : Hold → Hold) (s : State) : (modHold f s).board = s.board := rfl
@[simp] theorem modHold_clock (f : Hold → Hold) (s : State) : (modHold f s).clock = s.clock := rfl
@[simp] theorem modHold_dev (f : Hold → Hold) (s : State) : (modHold f s).dev = s.dev := rfl
@[simp] theorem modHold_err (f : Hold → Hold) (s : State) : (modHold f s).err = s.err := rfl
@[simp] theorem modHold_tick (f : Hold → Hold) (s : State) : (modHold f s).tick = s.tick := rfl
@[simp] theorem modHold_replay (f : Hold → Hold) (s : State) : (modHold f s).replay = s.replay := rfl
@[simp] theorem modHold_sides (f : Hold → Hold) (s : State) : (modHold f s).sides = s.sides := rfl
@[simp] theorem modHold_cmdq (f : Hold → Hold) (s : State) : (modHold f s).cmdq = s.cmdq := rfl
@[simp] theorem modHold_host (f : Hold → Hold) (s : State) : (modHold f s).host = s.host := rfl
@[simp] theorem modHold_hold (f : Hold → Hold) (s : State) : (modHold f s).hold = f s.hold := rfl
@[simp] theorem modHold_memc (f : Hold → Hold) (s : State) : (modHold f s).memc = s.memc := rfl
@[simp] theorem modHold_memch (f : Hold → Hold) (s : State) : (modHold f s).memch = s.memch := rfl
@[simp] theorem modHold_dram (f : Hold → Hold) (s : State) : (modHold f s).dram = s.dram := rfl
@[simp] theorem modHold_cfg (f : Hold → Hold) (s : State) : (modHold f s).cfg = s.cfg := rfl
@[simp] theorem modHold_tiles (f : Hold → Hold) (s : State) : (modHold f s).tiles = s.tiles := rfl
@[simp] theorem modHold_quads (f : Hold → Hold) (s : State) : (modHold f s).quads = s.quads := rfl
@[simp] theorem modHold_lincals (f : Hold → Hold) (s : State) : (modHold f s).lincals = s.lincals := rfl
@[simp] theorem modHold_calReqs (f : Hold → Hold) (s : State) : (modHold f s).calReqs = s.calReqs := rfl
@[simp] theorem modHold_shut (f : Hold → Hold) (s : State) : (modHold f s).shut = s.shut := rfl
@[simp] theorem modHold_engs (f : Hold → Hold) (s : State) : (modHold f s).engs = s.engs := rfl
@[simp] theorem modHold_eng (f : Hold → Hold) (s : State) : (modHold f s).eng = s.eng := rfl
@[simp] theorem modHold_hk (f : Hold → Hold) (s : State) : (modHold f s).hk = s.hk := rfl
@[simp] theorem modHold_spc (f : Hold → Hold) (s : State) : (modHold f s).spc = s.spc := rfl
@[simp] theorem modHold_spt (f : Hold → Hold) (s : State) : (modHold f s).spt = s.spt := rfl
@[simp] theorem modHold_keep (f : Hold → Hold) (s : State) : (modHold f s).keep = s.keep := rfl
@[simp] theorem modHold_sync (f : Hold → Hold) (s : State) : (modHold f s).sync = s.sync := rfl

@[simp] theorem modDev_pending (f : Dev → Dev) (s : State) : (modDev f s).pending = s.pending := rfl
@[simp] theorem modDev_out (f : Dev → Dev) (s : State) : (modDev f s).out = s.out := rfl
@[simp] theorem modDev_free (f : Dev → Dev) (s : State) : (modDev f s).free = s.free := rfl
@[simp] theorem modDev_board (f : Dev → Dev) (s : State) : (modDev f s).board = s.board := rfl
@[simp] theorem modDev_clock (f : Dev → Dev) (s : State) : (modDev f s).clock = s.clock := rfl
@[simp] theorem modDev_dev (f : Dev → Dev) (s : State) : (modDev f s).dev = f s.dev := rfl
@[simp] theorem modDev_err (f : Dev → Dev) (s : State) : (modDev f s).err = s.err := rfl
@[simp] theorem modDev_tick (f : Dev → Dev) (s : State) : (modDev f s).tick = s.tick := rfl
@[simp] theorem modDev_replay (f : Dev → Dev) (s : State) : (modDev f s).replay = s.replay := rfl
@[simp] theorem modDev_sides (f : Dev → Dev) (s : State) : (modDev f s).sides = s.sides := rfl
@[simp] theorem modDev_cmdq (f : Dev → Dev) (s : State) : (modDev f s).cmdq = s.cmdq := rfl
@[simp] theorem modDev_host (f : Dev → Dev) (s : State) : (modDev f s).host = s.host := rfl
@[simp] theorem modDev_hold (f : Dev → Dev) (s : State) : (modDev f s).hold = s.hold := rfl
@[simp] theorem modDev_memc (f : Dev → Dev) (s : State) : (modDev f s).memc = s.memc := rfl
@[simp] theorem modDev_memch (f : Dev → Dev) (s : State) : (modDev f s).memch = s.memch := rfl
@[simp] theorem modDev_dram (f : Dev → Dev) (s : State) : (modDev f s).dram = s.dram := rfl
@[simp] theorem modDev_cfg (f : Dev → Dev) (s : State) : (modDev f s).cfg = s.cfg := rfl
@[simp] theorem modDev_tiles (f : Dev → Dev) (s : State) : (modDev f s).tiles = s.tiles := rfl
@[simp] theorem modDev_quads (f : Dev → Dev) (s : State) : (modDev f s).quads = s.quads := rfl
@[simp] theorem modDev_lincals (f : Dev → Dev) (s : State) : (modDev f s).lincals = s.lincals := rfl
@[simp] theorem modDev_calReqs (f : Dev → Dev) (s : State) : (modDev f s).calReqs = s.calReqs := rfl
@[simp] theorem modDev_shut (f : Dev → Dev) (s : State) : (modDev f s).shut = s.shut := rfl
@[simp] theorem modDev_engs (f : Dev → Dev) (s : State) : (modDev f s).engs = s.engs := rfl
@[simp] theorem modDev_eng (f : Dev → Dev) (s : State) : (modDev f s).eng = s.eng := rfl
@[simp] theorem modDev_hk (f : Dev → Dev) (s : State) : (modDev f s).hk = s.hk := rfl
@[simp] theorem modDev_spc (f : Dev → Dev) (s : State) : (modDev f s).spc = s.spc := rfl
@[simp] theorem modDev_spt (f : Dev → Dev) (s : State) : (modDev f s).spt = s.spt := rfl
@[simp] theorem modDev_keep (f : Dev → Dev) (s : State) : (modDev f s).keep = s.keep := rfl
@[simp] theorem modDev_sync (f : Dev → Dev) (s : State) : (modDev f s).sync = s.sync := rfl

@[simp] theorem modCfg_pending (f : CfgBanks → CfgBanks) (s : State) : (modCfg f s).pending = s.pending := rfl
@[simp] theorem modCfg_out (f : CfgBanks → CfgBanks) (s : State) : (modCfg f s).out = s.out := rfl
@[simp] theorem modCfg_free (f : CfgBanks → CfgBanks) (s : State) : (modCfg f s).free = s.free := rfl
@[simp] theorem modCfg_board (f : CfgBanks → CfgBanks) (s : State) : (modCfg f s).board = s.board := rfl
@[simp] theorem modCfg_clock (f : CfgBanks → CfgBanks) (s : State) : (modCfg f s).clock = s.clock := rfl
@[simp] theorem modCfg_dev (f : CfgBanks → CfgBanks) (s : State) : (modCfg f s).dev = s.dev := rfl
@[simp] theorem modCfg_err (f : CfgBanks → CfgBanks) (s : State) : (modCfg f s).err = s.err := rfl
@[simp] theorem modCfg_tick (f : CfgBanks → CfgBanks) (s : State) : (modCfg f s).tick = s.tick := rfl
@[simp] theorem modCfg_replay (f : CfgBanks → CfgBanks) (s : State) : (modCfg f s).replay = s.replay := rfl
@[simp] theorem modCfg_sides (f : CfgBanks → CfgBanks) (s : State) : (modCfg f s).sides = s.sides := rfl
@[simp] theorem modCfg_cmdq (f : CfgBanks → CfgBanks) (s : State) : (modCfg f s).cmdq = s.cmdq := rfl
@[simp] theorem modCfg_host (f : CfgBanks → CfgBanks) (s : State) : (modCfg f s).host = s.host := rfl
@[simp] theorem modCfg_hold (f : CfgBanks → CfgBanks) (s : State) : (modCfg f s).hold = s.hold := rfl
@[simp] theorem modCfg_memc (f : CfgBanks → CfgBanks) (s : State) : (modCfg f s).memc = s.memc := rfl
@[simp] theorem modCfg_memch (f : CfgBanks → CfgBanks) (s : State) : (modCfg f s).memch = s.memch := rfl
@[simp] theorem modCfg_dram (f : CfgBanks → CfgBanks) (s : State) : (modCfg f s).dram = s.dram := rfl
@[simp] theorem modCfg_cfg (f : CfgBanks → CfgBanks) (s : State) : (modCfg f s).cfg = f s.cfg := rfl
@[simp] theorem modCfg_tiles (f : CfgBanks → CfgBanks) (s : State) : (modCfg f s).tiles = s.tiles := rfl
@[simp] theorem modCfg_quads (f : CfgBanks → CfgBanks) (s : State) : (modCfg f s).quads = s.quads := rfl
@[simp] theorem modCfg_lincals (f : CfgBanks → CfgBanks) (s : State) : (modCfg f s).lincals = s.lincals := rfl
@[simp] theorem modCfg_calReqs (f : CfgBanks → CfgBanks) (s : State) : (modCfg f s).calReqs = s.calReqs := rfl
@[simp] theorem modCfg_shut (f : CfgBanks → CfgBanks) (s : State) : (modCfg f s).shut = s.shut := rfl
@[simp] theorem modCfg_engs (f : CfgBanks → CfgBanks) (s : State) : (modCfg f s).engs = s.engs := rfl
@[simp] theorem modCfg_eng (f : CfgBanks → CfgBanks) (s : State) : (modCfg f s).eng = s.eng := rfl
@[simp] theorem modCfg_hk (f : CfgBanks → CfgBanks) (s : State) : (modCfg f s).hk = s.hk := rfl
@[simp] theorem modCfg_spc (f : CfgBanks → CfgBanks) (s : State) : (modCfg f s).spc = s.spc := rfl
@[simp] theorem modCfg_spt (f : CfgBanks → CfgBanks) (s : State) : (modCfg f s).spt = s.spt := rfl
@[simp] theorem modCfg_keep (f : CfgBanks → CfgBanks) (s : State) : (modCfg f s).keep = s.keep := rfl
@[simp] theorem modCfg_sync (f : CfgBanks → CfgBanks) (s : State) : (modCfg f s).sync = s.sync := rfl

@[simp] theorem emit_pending (e : Emit) (s : State) : (emit e s).pending = s.pending := rfl
@[simp] theorem emit_out (e : Emit) (s : State) : (emit e s).out = e :: s.out := rfl
@[simp] theorem emit_free (e : Emit) (s : State) : (emit e s).free = s.free := rfl
@[simp] theorem emit_board (e : Emit) (s : State) : (emit e s).board = s.board := rfl
@[simp] theorem emit_clock (e : Emit) (s : State) : (emit e s).clock = s.clock := rfl
@[simp] theorem emit_dev (e : Emit) (s : State) : (emit e s).dev = s.dev := rfl
@[simp] theorem emit_err (e : Emit) (s : State) : (emit e s).err = s.err := rfl
@[simp] theorem emit_tick (e : Emit) (s : State) : (emit e s).tick = s.tick := rfl
@[simp] theorem emit_replay (e : Emit) (s : State) : (emit e s).replay = s.replay := rfl
@[simp] theorem emit_sides (e : Emit) (s : State) : (emit e s).sides = s.sides := rfl
@[simp] theorem emit_cmdq (e : Emit) (s : State) : (emit e s).cmdq = s.cmdq := rfl
@[simp] theorem emit_host (e : Emit) (s : State) : (emit e s).host = s.host := rfl
@[simp] theorem emit_hold (e : Emit) (s : State) : (emit e s).hold = s.hold := rfl
@[simp] theorem emit_memc (e : Emit) (s : State) : (emit e s).memc = s.memc := rfl
@[simp] theorem emit_memch (e : Emit) (s : State) : (emit e s).memch = s.memch := rfl
@[simp] theorem emit_dram (e : Emit) (s : State) : (emit e s).dram = s.dram := rfl
@[simp] theorem emit_cfg (e : Emit) (s : State) : (emit e s).cfg = s.cfg := rfl
@[simp] theorem emit_tiles (e : Emit) (s : State) : (emit e s).tiles = s.tiles := rfl
@[simp] theorem emit_quads (e : Emit) (s : State) : (emit e s).quads = s.quads := rfl
@[simp] theorem emit_lincals (e : Emit) (s : State) : (emit e s).lincals = s.lincals := rfl
@[simp] theorem emit_calReqs (e : Emit) (s : State) : (emit e s).calReqs = s.calReqs := rfl
@[simp] theorem emit_shut (e : Emit) (s : State) : (emit e s).shut = s.shut := rfl
@[simp] theorem emit_engs (e : Emit) (s : State) : (emit e s).engs = s.engs := rfl
@[simp] theorem emit_eng (e : Emit) (s : State) : (emit e s).eng = s.eng := rfl
@[simp] theorem emit_hk (e : Emit) (s : State) : (emit e s).hk = s.hk := rfl
@[simp] theorem emit_spc (e : Emit) (s : State) : (emit e s).spc = s.spc := rfl
@[simp] theorem emit_spt (e : Emit) (s : State) : (emit e s).spt = s.spt := rfl
@[simp] theorem emit_keep (e : Emit) (s : State) : (emit e s).keep = s.keep := rfl
@[simp] theorem emit_sync (e : Emit) (s : State) : (emit e s).sync = s.sync := rfl

@[simp] theorem bumpFree_pending (s : State) : (bumpFree s).pending = s.pending := rfl
@[simp] theorem bumpFree_out (s : State) : (bumpFree s).out = s.out := rfl
@[simp] theorem bumpFree_free (s : State) : (bumpFree s).free = s.free + 1 := rfl
@[simp] theorem bumpFree_board (s : State) : (bumpFree s).board = s.board := rfl
@[simp] theorem bumpFree_clock (s : State) : (bumpFree s).clock = s.clock := rfl
@[simp] theorem bumpFree_dev (s : State) : (bumpFree s).dev = s.dev := rfl
@[simp] theorem bumpFree_err (s : State) : (bumpFree s).err = s.err := rfl
@[simp] theorem bumpFree_tick (s : State) : (bumpFree s).tick = s.tick := rfl
@[simp] theorem bumpFree_replay (s : State) : (bumpFree s).replay = s.replay := rfl
@[simp] theorem bumpFree_sides (s : State) : (bumpFree s).sides = s.sides := rfl
@[simp] theorem bumpFree_cmdq (s : State) : (bumpFree s).cmdq = s.cmdq := rfl
@[simp] theorem bumpFree_host (s : State) : (bumpFree s).host = s.host := rfl
@[simp] theorem bumpFree_hold (s : State) : (bumpFree s).hold = s.hold := rfl
@[simp] theorem bumpFree_memc (s : State) : (bumpFree s).memc = s.memc := rfl
@[simp] theorem bumpFree_memch (s : State) : (bumpFree s).memch = s.memch := rfl
@[simp] theorem bumpFree_dram (s : State) : (bumpFree s).dram = s.dram := rfl
@[simp] theorem bumpFree_cfg (s : State) : (bumpFree s).cfg = s.cfg := rfl
@[simp] theorem bumpFree_tiles (s : State) : (bumpFree s).tiles = s.tiles := rfl
@[simp] theorem bumpFree_quads (s : State) : (bumpFree s).quads = s.quads := rfl
@[simp] theorem bumpFree_lincals (s : State) : (bumpFree s).lincals = s.lincals := rfl
@[simp] theorem bumpFree_calReqs (s : State) : (bumpFree s).calReqs = s.calReqs := rfl
@[simp] theorem bumpFree_shut (s : State) : (bumpFree s).shut = s.shut := rfl
@[simp] theorem bumpFree_engs (s : State) : (bumpFree s).engs = s.engs := rfl
@[simp] theorem bumpFree_eng (s : State) : (bumpFree s).eng = s.eng := rfl
@[simp] theorem bumpFree_hk (s : State) : (bumpFree s).hk = s.hk := rfl
@[simp] theorem bumpFree_spc (s : State) : (bumpFree s).spc = s.spc := rfl
@[simp] theorem bumpFree_spt (s : State) : (bumpFree s).spt = s.spt := rfl
@[simp] theorem bumpFree_keep (s : State) : (bumpFree s).keep = s.keep := rfl
@[simp] theorem bumpFree_sync (s : State) : (bumpFree s).sync = s.sync := rfl

end Sys2Proof.Laws
end

