-- ==== Sys2Proof/Laws/Ops.lean ====
section
/-! SUPPORT. What each shared operation can do, said once: any reading g of the state that the parts it writes do not
change is unchanged by it, and so is every field it does not write. -/
namespace Sys2Proof.Laws

open Sys2Proof.Machine

/-- A reading that `out` does not change. -/
def BlindOut {β : Type} (g : State → β) : Prop := ∀ s o, g { s with out := o } = g s
/-- A reading that what a message or a reply writes does not change. -/
def BlindPost {β : Type} (g : State → β) : Prop := ∀ s o h c, g { s with out := o, host := h, cmdq := c } = g s
/-- A reading that what an error writes does not change. -/
def BlindErr {β : Type} (g : State → β) : Prop := ∀ s o h k e, g { s with out := o, host := h, keep := k, err := e } = g s
/-- A reading that a DRAM access does not change. -/
def BlindDram {β : Type} (g : State → β) : Prop := ∀ s d m n, g { s with dram := d, memc := m, free := n } = g s

variable {β : Type} {g : State → β}

/-- A reading that each turn of a loop keeps, the loop keeps. -/
theorem forEach_keeps {α : Type} {f : α → State → State} (h : ∀ a s, g (f a s) = g s) (l : List α) (s : State) :
    g (forEach l f s) = g s := by
  induction l generalizing s with
  | nil => rfl
  | cons a l ih => exact (ih (f a s)).trans (h a s)

/-- A property that each turn of a loop keeps, the loop keeps. -/
theorem forEach_invariant {α : Type} {P : State → Prop} {f : α → State → State} (h : ∀ a s, P s → P (f a s))
    (l : List α) (s : State) (hs : P s) : P (forEach l f s) := by
  induction l generalizing s with
  | nil => exact hs
  | cons a l ih => exact ih (f a s) (h a s hs)

theorem hostWriteRo_only (hg : BlindOut g) (ro : Bool) (a : Nat) (bs : List Byte) (s : State) :
    g (hostWriteRo ro a bs s) = g s := forEach_keeps (fun _ s => hg s _) _ _

theorem hostWrite_only (hg : BlindOut g) (a : Nat) (bs : List Byte) (s : State) : g (hostWrite a bs s) = g s :=
  hostWriteRo_only hg false a bs s

theorem BlindPost.out (hg : BlindPost g) : BlindOut g := fun s o => hg s o s.host s.cmdq
theorem BlindErr.out (hg : BlindErr g) : BlindOut g := fun s o => hg s o s.host s.keep s.err
theorem BlindPost.host (hg : BlindPost g) (f : HostPort → HostPort) (s : State) : g (modHost f s) = g s :=
  hg s s.out (f s.host) s.cmdq
theorem BlindPost.cmdq (hg : BlindPost g) (f : Cmdq → Cmdq) (s : State) : g (modCmdq f s) = g s :=
  hg s s.out s.host (f s.cmdq)
theorem BlindErr.host (hg : BlindErr g) (f : HostPort → HostPort) (s : State) : g (modHost f s) = g s :=
  hg s s.out (f s.host) s.keep s.err
theorem BlindErr.keep (hg : BlindErr g) (f : Keep → Keep) (s : State) : g (modKeep f s) = g s :=
  hg s s.out s.host (f s.keep) s.err
theorem BlindErr.err (hg : BlindErr g) (s : State) (e : Err) : g { s with err := e } = g s :=
  hg s s.out s.host s.keep e

/-- Sending a vector writes the message or its pending bit (R300). -/
theorem sendVector_only (ho : BlindOut g) (hh : ∀ f s, g (modHost f s) = g s) (v : Nat) (s : State) :
    g (sendVector v s) = g s := by
  unfold sendVector emitMsix emit
  split
  · exact hh _ _
  · exact ho _ _

/-- An own write of the keeping store only joins its queue (R409). -/
theorem keepOwn_only (hk : ∀ f s, g (modKeep f s) = g s) (r : Nat) (l : List Byte) (s : State) :
    g (keepOwn r l s) = g s := hk _ _

theorem logCapture_only (hk : ∀ f s, g (modKeep f s) = g s) (c : Nat) (s : State) : g (logCapture c s) = g s := by
  unfold logCapture
  dsimp only
  repeat' split
  all_goals first | exact (hk _ _).trans (keepOwn_only hk _ _ _) | rfl

/-- Raising an error writes its class, the log, and the class's vector (R413, R408, R300). -/
theorem raiseOne_only (hg : BlindErr g) (r : ErrRec) (s : State) : g (raiseOne r s) = g s := by
  unfold raiseOne
  dsimp only
  split
  · exact (hg.err _ _).trans (hg.keep _ _)
  · rw [logCapture_only hg.keep, sendVector_only hg.out hg.host]
    exact (hg.err _ _).trans (hg.keep _ _)

theorem raiseErrs_only (hg : BlindErr g) (l : List ErrRec) (s : State) : g (raiseErrs l s) = g s := by
  unfold raiseErrs
  split
  · exact hg.err _ _
  · exact forEach_keeps (raiseOne_only hg) _ _

theorem raiseErr_only (hg : BlindErr g) (e : ErrRec) (s : State) : g (raiseErr e s) = g s := raiseErrs_only hg [e] s

theorem freezeDue_only (hg : BlindErr g) (c : Nat) (s : State) : g (freezeDue c s) = g s := hg.err _ _

theorem releaseBatch_only (hg : BlindErr g) (s : State) : g (releaseBatch s) = g s := by
  unfold releaseBatch
  split
  · exact (raiseErrs_only hg _ _).trans (hg.err _ _)
  · rfl

/-- Posting a held part writes host memory, the reply counts and perhaps vector 3 (R311). -/
theorem postHeld_only (hg : BlindPost g) (s : State) : g (postHeld s) = g s := by
  have two (a b a' b') : g (hostWrite a' b' (hostWrite a b s)) = g s :=
    (hostWrite_only hg.out _ _ _).trans (hostWrite_only hg.out _ _ _)
  unfold postHeld
  split
  · rfl
  · split
    · dsimp only
      split
      · exact ((sendVector_only hg.out hg.host _ _).trans (hg.cmdq _ _)).trans (two ..)
      · exact (hg.cmdq _ _).trans (two ..)
    · rfl

theorem postAll_only (hg : BlindPost g) (n : Nat) (s : State) : g (postAll n s) = g s := by
  induction n generalizing s with
  | zero => rfl
  | succ n ih =>
    unfold postAll
    split
    · rfl
    · exact (ih _).trans (postHeld_only hg s)

theorem mboxShow_only (hg : BlindPost g) (m : Bool) (s : State) : g (mboxShow m s) = g s := by
  unfold mboxShow
  split
  · rfl
  · dsimp only
    split
    · exact hg.cmdq _ _
    · exact (sendVector_only hg.out hg.host _ _).trans (hg.cmdq _ _)

/-- The parts of a reply write only what a reply writes (R308). -/
theorem sendParts_only (hg : BlindPost g) (h : Hdr) (ps : List ReplyPart) (s : State) : g (sendParts h ps s) = g s := by
  unfold sendParts
  split
  · split
    · exact (postAll_only hg _ _).trans (hg.cmdq _ _)
    · exact hg.cmdq _ _
  · exact (mboxShow_only hg _ _).trans (hg.cmdq _ _)
  · exact (mboxShow_only hg _ _).trans (hg.cmdq _ _)

theorem replyParts_only (hg : BlindPost g) (h : Hdr) (op : Nat) (st : BitVec 16) (ws : List (List Word)) (s : State) :
    g (replyParts h op st ws s) = g s := by
  unfold replyParts
  dsimp only
  split
  · exact sendParts_only hg _ _ _
  · exact (sendParts_only hg _ _ _).trans (hg.cmdq _ _)

theorem reply_only (hg : BlindPost g) (h : Hdr) (op : Nat) (st : BitVec 16) (ws : List Word) (s : State) :
    g (reply h op st ws s) = g s := replyParts_only hg h op st [ws] s

theorem replyReject_only (hg : BlindPost g) (h : Hdr) (op : Nat) (st : BitVec 16) (s : State) :
    g (replyReject h op st s) = g s := (sendParts_only hg _ _ _).trans (hg.cmdq _ _)

/-- A command that runs at its tick does nothing, replies FROZEN, or has its own effect (R306). -/
theorem runAtTick_cases (h : Hdr) (op : Nat) (f : State → State) (s : State) :
    runAtTick h op f s = s ∨
    runAtTick h op f s = reply h op stFrozen [] (modCmdq (fun c => { c with execCnt := satInc c.execCnt }) s) ∨
    runAtTick h op f s = f (modCmdq (fun c => { c with execCnt := satInc c.execCnt }) s) := by
  unfold runAtTick
  split
  · exact .inl rfl
  · dsimp only
    split
    · exact .inr (.inl rfl)
    · exact .inr (.inr rfl)

/-- A command whose own effect keeps a reading keeps it. -/
theorem runAtTick_only (hg : BlindPost g) (h : Hdr) (op : Nat) {f : State → State} (hf : ∀ s, g (f s) = g s) (s : State) :
    g (runAtTick h op f s) = g s := by
  rcases runAtTick_cases h op f s with e | e | e <;> rw [e]
  · exact (reply_only hg ..).trans (hg.cmdq _ _)
  · exact (hf _).trans (hg.cmdq _ _)

theorem dramPut_only (hg : BlindDram g) (a : Nat) (bs : List Byte) (s : State) : g (dramPut a bs s) = g s :=
  hg s _ s.memc s.free

theorem dramWrite_only (hg : BlindDram g) (a : Nat) (bs : List Byte) (s : State) : g (dramWrite a bs s) = g s := by
  unfold dramWrite
  split
  · exact dramPut_only hg a bs s
  · rfl

theorem stageWrite_only (hg : BlindDram g) (a : Nat) (bs : List Byte) (s : State) : g (stageWrite a bs s) = g s := by
  unfold stageWrite
  split
  · exact (dramPut_only hg _ _ _).trans (hg s s.dram _ s.free)
  · rfl


@[simp] theorem hostWrite_pending (a : Nat) (bs : List Byte) (s : State) : (hostWrite a bs s).pending = s.pending :=
  hostWrite_only (g := (·.pending)) (fun _ _ => rfl) a bs s
@[simp] theorem hostWrite_free (a : Nat) (bs : List Byte) (s : State) : (hostWrite a bs s).free = s.free :=
  hostWrite_only (g := (·.free)) (fun _ _ => rfl) a bs s
@[simp] theorem hostWrite_board (a : Nat) (bs : List Byte) (s : State) : (hostWrite a bs s).board = s.board :=
  hostWrite_only (g := (·.board)) (fun _ _ => rfl) a bs s
@[simp] theorem hostWrite_clock (a : Nat) (bs : List Byte) (s : State) : (hostWrite a bs s).clock = s.clock :=
  hostWrite_only (g := (·.clock)) (fun _ _ => rfl) a bs s
@[simp] theorem hostWrite_dev (a : Nat) (bs : List Byte) (s : State) : (hostWrite a bs s).dev = s.dev :=
  hostWrite_only (g := (·.dev)) (fun _ _ => rfl) a bs s
@[simp] theorem hostWrite_err (a : Nat) (bs : List Byte) (s : State) : (hostWrite a bs s).err = s.err :=
  hostWrite_only (g := (·.err)) (fun _ _ => rfl) a bs s
@[simp] theorem hostWrite_tick (a : Nat) (bs : List Byte) (s : State) : (hostWrite a bs s).tick = s.tick :=
  hostWrite_only (g := (·.tick)) (fun _ _ => rfl) a bs s
@[simp] theorem hostWrite_replay (a : Nat) (bs : List Byte) (s : State) : (hostWrite a bs s).replay = s.replay :=
  hostWrite_only (g := (·.replay)) (fun _ _ => rfl) a bs s
@[simp] theorem hostWrite_sides (a : Nat) (bs : List Byte) (s : State) : (hostWrite a bs s).sides = s.sides :=
  hostWrite_only (g := (·.sides)) (fun _ _ => rfl) a bs s
@[simp] theorem hostWrite_cmdq (a : Nat) (bs : List Byte) (s : State) : (hostWrite a bs s).cmdq = s.cmdq :=
  hostWrite_only (g := (·.cmdq)) (fun _ _ => rfl) a bs s
@[simp] theorem hostWrite_host (a : Nat) (bs : List Byte) (s : State) : (hostWrite a bs s).host = s.host :=
  hostWrite_only (g := (·.host)) (fun _ _ => rfl) a bs s
@[simp] theorem hostWrite_hold (a : Nat) (bs : List Byte) (s : State) : (hostWrite a bs s).hold = s.hold :=
  hostWrite_only (g := (·.hold)) (fun _ _ => rfl) a bs s
@[simp] theorem hostWrite_memc (a : Nat) (bs : List Byte) (s : State) : (hostWrite a bs s).memc = s.memc :=
  hostWrite_only (g := (·.memc)) (fun _ _ => rfl) a bs s
@[simp] theorem hostWrite_memch (a : Nat) (bs : List Byte) (s : State) : (hostWrite a bs s).memch = s.memch :=
  hostWrite_only (g := (·.memch)) (fun _ _ => rfl) a bs s
@[simp] theorem hostWrite_dram (a : Nat) (bs : List Byte) (s : State) : (hostWrite a bs s).dram = s.dram :=
  hostWrite_only (g := (·.dram)) (fun _ _ => rfl) a bs s
@[simp] theorem hostWrite_cfg (a : Nat) (bs : List Byte) (s : State) : (hostWrite a bs s).cfg = s.cfg :=
  hostWrite_only (g := (·.cfg)) (fun _ _ => rfl) a bs s
@[simp] theorem hostWrite_tiles (a : Nat) (bs : List Byte) (s : State) : (hostWrite a bs s).tiles = s.tiles :=
  hostWrite_only (g := (·.tiles)) (fun _ _ => rfl) a bs s
@[simp] theorem hostWrite_quads (a : Nat) (bs : List Byte) (s : State) : (hostWrite a bs s).quads = s.quads :=
  hostWrite_only (g := (·.quads)) (fun _ _ => rfl) a bs s
@[simp] theorem hostWrite_lincals (a : Nat) (bs : List Byte) (s : State) : (hostWrite a bs s).lincals = s.lincals :=
  hostWrite_only (g := (·.lincals)) (fun _ _ => rfl) a bs s
@[simp] theorem hostWrite_calReqs (a : Nat) (bs : List Byte) (s : State) : (hostWrite a bs s).calReqs = s.calReqs :=
  hostWrite_only (g := (·.calReqs)) (fun _ _ => rfl) a bs s
@[simp] theorem hostWrite_shut (a : Nat) (bs : List Byte) (s : State) : (hostWrite a bs s).shut = s.shut :=
  hostWrite_only (g := (·.shut)) (fun _ _ => rfl) a bs s
@[simp] theorem hostWrite_engs (a : Nat) (bs : List Byte) (s : State) : (hostWrite a bs s).engs = s.engs :=
  hostWrite_only (g := (·.engs)) (fun _ _ => rfl) a bs s
@[simp] theorem hostWrite_eng (a : Nat) (bs : List Byte) (s : State) : (hostWrite a bs s).eng = s.eng :=
  hostWrite_only (g := (·.eng)) (fun _ _ => rfl) a bs s
@[simp] theorem hostWrite_hk (a : Nat) (bs : List Byte) (s : State) : (hostWrite a bs s).hk = s.hk :=
  hostWrite_only (g := (·.hk)) (fun _ _ => rfl) a bs s
@[simp] theorem hostWrite_spc (a : Nat) (bs : List Byte) (s : State) : (hostWrite a bs s).spc = s.spc :=
  hostWrite_only (g := (·.spc)) (fun _ _ => rfl) a bs s
@[simp] theorem hostWrite_spt (a : Nat) (bs : List Byte) (s : State) : (hostWrite a bs s).spt = s.spt :=
  hostWrite_only (g := (·.spt)) (fun _ _ => rfl) a bs s
@[simp] theorem hostWrite_keep (a : Nat) (bs : List Byte) (s : State) : (hostWrite a bs s).keep = s.keep :=
  hostWrite_only (g := (·.keep)) (fun _ _ => rfl) a bs s
@[simp] theorem hostWrite_sync (a : Nat) (bs : List Byte) (s : State) : (hostWrite a bs s).sync = s.sync :=
  hostWrite_only (g := (·.sync)) (fun _ _ => rfl) a bs s

@[simp] theorem reply_pending (h : Hdr) (op : Nat) (st : BitVec 16) (ws : List Word) (s : State) : (reply h op st ws s).pending = s.pending :=
  reply_only (g := (·.pending)) (fun _ _ _ _ => rfl) h op st ws s
@[simp] theorem reply_free (h : Hdr) (op : Nat) (st : BitVec 16) (ws : List Word) (s : State) : (reply h op st ws s).free = s.free :=
  reply_only (g := (·.free)) (fun _ _ _ _ => rfl) h op st ws s
@[simp] theorem reply_board (h : Hdr) (op : Nat) (st : BitVec 16) (ws : List Word) (s : State) : (reply h op st ws s).board = s.board :=
  reply_only (g := (·.board)) (fun _ _ _ _ => rfl) h op st ws s
@[simp] theorem reply_clock (h : Hdr) (op : Nat) (st : BitVec 16) (ws : List Word) (s : State) : (reply h op st ws s).clock = s.clock :=
  reply_only (g := (·.clock)) (fun _ _ _ _ => rfl) h op st ws s
@[simp] theorem reply_dev (h : Hdr) (op : Nat) (st : BitVec 16) (ws : List Word) (s : State) : (reply h op st ws s).dev = s.dev :=
  reply_only (g := (·.dev)) (fun _ _ _ _ => rfl) h op st ws s
@[simp] theorem reply_err (h : Hdr) (op : Nat) (st : BitVec 16) (ws : List Word) (s : State) : (reply h op st ws s).err = s.err :=
  reply_only (g := (·.err)) (fun _ _ _ _ => rfl) h op st ws s
@[simp] theorem reply_tick (h : Hdr) (op : Nat) (st : BitVec 16) (ws : List Word) (s : State) : (reply h op st ws s).tick = s.tick :=
  reply_only (g := (·.tick)) (fun _ _ _ _ => rfl) h op st ws s
@[simp] theorem reply_replay (h : Hdr) (op : Nat) (st : BitVec 16) (ws : List Word) (s : State) : (reply h op st ws s).replay = s.replay :=
  reply_only (g := (·.replay)) (fun _ _ _ _ => rfl) h op st ws s
@[simp] theorem reply_sides (h : Hdr) (op : Nat) (st : BitVec 16) (ws : List Word) (s : State) : (reply h op st ws s).sides = s.sides :=
  reply_only (g := (·.sides)) (fun _ _ _ _ => rfl) h op st ws s
@[simp] theorem reply_hold (h : Hdr) (op : Nat) (st : BitVec 16) (ws : List Word) (s : State) : (reply h op st ws s).hold = s.hold :=
  reply_only (g := (·.hold)) (fun _ _ _ _ => rfl) h op st ws s
@[simp] theorem reply_memc (h : Hdr) (op : Nat) (st : BitVec 16) (ws : List Word) (s : State) : (reply h op st ws s).memc = s.memc :=
  reply_only (g := (·.memc)) (fun _ _ _ _ => rfl) h op st ws s
@[simp] theorem reply_memch (h : Hdr) (op : Nat) (st : BitVec 16) (ws : List Word) (s : State) : (reply h op st ws s).memch = s.memch :=
  reply_only (g := (·.memch)) (fun _ _ _ _ => rfl) h op st ws s
@[simp] theorem reply_dram (h : Hdr) (op : Nat) (st : BitVec 16) (ws : List Word) (s : State) : (reply h op st ws s).dram = s.dram :=
  reply_only (g := (·.dram)) (fun _ _ _ _ => rfl) h op st ws s
@[simp] theorem reply_cfg (h : Hdr) (op : Nat) (st : BitVec 16) (ws : List Word) (s : State) : (reply h op st ws s).cfg = s.cfg :=
  reply_only (g := (·.cfg)) (fun _ _ _ _ => rfl) h op st ws s
@[simp] theorem reply_tiles (h : Hdr) (op : Nat) (st : BitVec 16) (ws : List Word) (s : State) : (reply h op st ws s).tiles = s.tiles :=
  reply_only (g := (·.tiles)) (fun _ _ _ _ => rfl) h op st ws s
@[simp] theorem reply_quads (h : Hdr) (op : Nat) (st : BitVec 16) (ws : List Word) (s : State) : (reply h op st ws s).quads = s.quads :=
  reply_only (g := (·.quads)) (fun _ _ _ _ => rfl) h op st ws s
@[simp] theorem reply_lincals (h : Hdr) (op : Nat) (st : BitVec 16) (ws : List Word) (s : State) : (reply h op st ws s).lincals = s.lincals :=
  reply_only (g := (·.lincals)) (fun _ _ _ _ => rfl) h op st ws s
@[simp] theorem reply_calReqs (h : Hdr) (op : Nat) (st : BitVec 16) (ws : List Word) (s : State) : (reply h op st ws s).calReqs = s.calReqs :=
  reply_only (g := (·.calReqs)) (fun _ _ _ _ => rfl) h op st ws s
@[simp] theorem reply_shut (h : Hdr) (op : Nat) (st : BitVec 16) (ws : List Word) (s : State) : (reply h op st ws s).shut = s.shut :=
  reply_only (g := (·.shut)) (fun _ _ _ _ => rfl) h op st ws s
@[simp] theorem reply_engs (h : Hdr) (op : Nat) (st : BitVec 16) (ws : List Word) (s : State) : (reply h op st ws s).engs = s.engs :=
  reply_only (g := (·.engs)) (fun _ _ _ _ => rfl) h op st ws s
@[simp] theorem reply_eng (h : Hdr) (op : Nat) (st : BitVec 16) (ws : List Word) (s : State) : (reply h op st ws s).eng = s.eng :=
  reply_only (g := (·.eng)) (fun _ _ _ _ => rfl) h op st ws s
@[simp] theorem reply_hk (h : Hdr) (op : Nat) (st : BitVec 16) (ws : List Word) (s : State) : (reply h op st ws s).hk = s.hk :=
  reply_only (g := (·.hk)) (fun _ _ _ _ => rfl) h op st ws s
@[simp] theorem reply_spc (h : Hdr) (op : Nat) (st : BitVec 16) (ws : List Word) (s : State) : (reply h op st ws s).spc = s.spc :=
  reply_only (g := (·.spc)) (fun _ _ _ _ => rfl) h op st ws s
@[simp] theorem reply_spt (h : Hdr) (op : Nat) (st : BitVec 16) (ws : List Word) (s : State) : (reply h op st ws s).spt = s.spt :=
  reply_only (g := (·.spt)) (fun _ _ _ _ => rfl) h op st ws s
@[simp] theorem reply_keep (h : Hdr) (op : Nat) (st : BitVec 16) (ws : List Word) (s : State) : (reply h op st ws s).keep = s.keep :=
  reply_only (g := (·.keep)) (fun _ _ _ _ => rfl) h op st ws s
@[simp] theorem reply_sync (h : Hdr) (op : Nat) (st : BitVec 16) (ws : List Word) (s : State) : (reply h op st ws s).sync = s.sync :=
  reply_only (g := (·.sync)) (fun _ _ _ _ => rfl) h op st ws s

@[simp] theorem replyParts_pending (h : Hdr) (op : Nat) (st : BitVec 16) (ws : List (List Word)) (s : State) : (replyParts h op st ws s).pending = s.pending :=
  replyParts_only (g := (·.pending)) (fun _ _ _ _ => rfl) h op st ws s
@[simp] theorem replyParts_free (h : Hdr) (op : Nat) (st : BitVec 16) (ws : List (List Word)) (s : State) : (replyParts h op st ws s).free = s.free :=
  replyParts_only (g := (·.free)) (fun _ _ _ _ => rfl) h op st ws s
@[simp] theorem replyParts_board (h : Hdr) (op : Nat) (st : BitVec 16) (ws : List (List Word)) (s : State) : (replyParts h op st ws s).board = s.board :=
  replyParts_only (g := (·.board)) (fun _ _ _ _ => rfl) h op st ws s
@[simp] theorem replyParts_clock (h : Hdr) (op : Nat) (st : BitVec 16) (ws : List (List Word)) (s : State) : (replyParts h op st ws s).clock = s.clock :=
  replyParts_only (g := (·.clock)) (fun _ _ _ _ => rfl) h op st ws s
@[simp] theorem replyParts_dev (h : Hdr) (op : Nat) (st : BitVec 16) (ws : List (List Word)) (s : State) : (replyParts h op st ws s).dev = s.dev :=
  replyParts_only (g := (·.dev)) (fun _ _ _ _ => rfl) h op st ws s
@[simp] theorem replyParts_err (h : Hdr) (op : Nat) (st : BitVec 16) (ws : List (List Word)) (s : State) : (replyParts h op st ws s).err = s.err :=
  replyParts_only (g := (·.err)) (fun _ _ _ _ => rfl) h op st ws s
@[simp] theorem replyParts_tick (h : Hdr) (op : Nat) (st : BitVec 16) (ws : List (List Word)) (s : State) : (replyParts h op st ws s).tick = s.tick :=
  replyParts_only (g := (·.tick)) (fun _ _ _ _ => rfl) h op st ws s
@[simp] theorem replyParts_replay (h : Hdr) (op : Nat) (st : BitVec 16) (ws : List (List Word)) (s : State) : (replyParts h op st ws s).replay = s.replay :=
  replyParts_only (g := (·.replay)) (fun _ _ _ _ => rfl) h op st ws s
@[simp] theorem replyParts_sides (h : Hdr) (op : Nat) (st : BitVec 16) (ws : List (List Word)) (s : State) : (replyParts h op st ws s).sides = s.sides :=
  replyParts_only (g := (·.sides)) (fun _ _ _ _ => rfl) h op st ws s
@[simp] theorem replyParts_hold (h : Hdr) (op : Nat) (st : BitVec 16) (ws : List (List Word)) (s : State) : (replyParts h op st ws s).hold = s.hold :=
  replyParts_only (g := (·.hold)) (fun _ _ _ _ => rfl) h op st ws s
@[simp] theorem replyParts_memc (h : Hdr) (op : Nat) (st : BitVec 16) (ws : List (List Word)) (s : State) : (replyParts h op st ws s).memc = s.memc :=
  replyParts_only (g := (·.memc)) (fun _ _ _ _ => rfl) h op st ws s
@[simp] theorem replyParts_memch (h : Hdr) (op : Nat) (st : BitVec 16) (ws : List (List Word)) (s : State) : (replyParts h op st ws s).memch = s.memch :=
  replyParts_only (g := (·.memch)) (fun _ _ _ _ => rfl) h op st ws s
@[simp] theorem replyParts_dram (h : Hdr) (op : Nat) (st : BitVec 16) (ws : List (List Word)) (s : State) : (replyParts h op st ws s).dram = s.dram :=
  replyParts_only (g := (·.dram)) (fun _ _ _ _ => rfl) h op st ws s
@[simp] theorem replyParts_cfg (h : Hdr) (op : Nat) (st : BitVec 16) (ws : List (List Word)) (s : State) : (replyParts h op st ws s).cfg = s.cfg :=
  replyParts_only (g := (·.cfg)) (fun _ _ _ _ => rfl) h op st ws s
@[simp] theorem replyParts_tiles (h : Hdr) (op : Nat) (st : BitVec 16) (ws : List (List Word)) (s : State) : (replyParts h op st ws s).tiles = s.tiles :=
  replyParts_only (g := (·.tiles)) (fun _ _ _ _ => rfl) h op st ws s
@[simp] theorem replyParts_quads (h : Hdr) (op : Nat) (st : BitVec 16) (ws : List (List Word)) (s : State) : (replyParts h op st ws s).quads = s.quads :=
  replyParts_only (g := (·.quads)) (fun _ _ _ _ => rfl) h op st ws s
@[simp] theorem replyParts_lincals (h : Hdr) (op : Nat) (st : BitVec 16) (ws : List (List Word)) (s : State) : (replyParts h op st ws s).lincals = s.lincals :=
  replyParts_only (g := (·.lincals)) (fun _ _ _ _ => rfl) h op st ws s
@[simp] theorem replyParts_calReqs (h : Hdr) (op : Nat) (st : BitVec 16) (ws : List (List Word)) (s : State) : (replyParts h op st ws s).calReqs = s.calReqs :=
  replyParts_only (g := (·.calReqs)) (fun _ _ _ _ => rfl) h op st ws s
@[simp] theorem replyParts_shut (h : Hdr) (op : Nat) (st : BitVec 16) (ws : List (List Word)) (s : State) : (replyParts h op st ws s).shut = s.shut :=
  replyParts_only (g := (·.shut)) (fun _ _ _ _ => rfl) h op st ws s
@[simp] theorem replyParts_engs (h : Hdr) (op : Nat) (st : BitVec 16) (ws : List (List Word)) (s : State) : (replyParts h op st ws s).engs = s.engs :=
  replyParts_only (g := (·.engs)) (fun _ _ _ _ => rfl) h op st ws s
@[simp] theorem replyParts_eng (h : Hdr) (op : Nat) (st : BitVec 16) (ws : List (List Word)) (s : State) : (replyParts h op st ws s).eng = s.eng :=
  replyParts_only (g := (·.eng)) (fun _ _ _ _ => rfl) h op st ws s
@[simp] theorem replyParts_hk (h : Hdr) (op : Nat) (st : BitVec 16) (ws : List (List Word)) (s : State) : (replyParts h op st ws s).hk = s.hk :=
  replyParts_only (g := (·.hk)) (fun _ _ _ _ => rfl) h op st ws s
@[simp] theorem replyParts_spc (h : Hdr) (op : Nat) (st : BitVec 16) (ws : List (List Word)) (s : State) : (replyParts h op st ws s).spc = s.spc :=
  replyParts_only (g := (·.spc)) (fun _ _ _ _ => rfl) h op st ws s
@[simp] theorem replyParts_spt (h : Hdr) (op : Nat) (st : BitVec 16) (ws : List (List Word)) (s : State) : (replyParts h op st ws s).spt = s.spt :=
  replyParts_only (g := (·.spt)) (fun _ _ _ _ => rfl) h op st ws s
@[simp] theorem replyParts_keep (h : Hdr) (op : Nat) (st : BitVec 16) (ws : List (List Word)) (s : State) : (replyParts h op st ws s).keep = s.keep :=
  replyParts_only (g := (·.keep)) (fun _ _ _ _ => rfl) h op st ws s
@[simp] theorem replyParts_sync (h : Hdr) (op : Nat) (st : BitVec 16) (ws : List (List Word)) (s : State) : (replyParts h op st ws s).sync = s.sync :=
  replyParts_only (g := (·.sync)) (fun _ _ _ _ => rfl) h op st ws s

@[simp] theorem replyReject_pending (h : Hdr) (op : Nat) (st : BitVec 16) (s : State) : (replyReject h op st s).pending = s.pending :=
  replyReject_only (g := (·.pending)) (fun _ _ _ _ => rfl) h op st s
@[simp] theorem replyReject_free (h : Hdr) (op : Nat) (st : BitVec 16) (s : State) : (replyReject h op st s).free = s.free :=
  replyReject_only (g := (·.free)) (fun _ _ _ _ => rfl) h op st s
@[simp] theorem replyReject_board (h : Hdr) (op : Nat) (st : BitVec 16) (s : State) : (replyReject h op st s).board = s.board :=
  replyReject_only (g := (·.board)) (fun _ _ _ _ => rfl) h op st s
@[simp] theorem replyReject_clock (h : Hdr) (op : Nat) (st : BitVec 16) (s : State) : (replyReject h op st s).clock = s.clock :=
  replyReject_only (g := (·.clock)) (fun _ _ _ _ => rfl) h op st s
@[simp] theorem replyReject_dev (h : Hdr) (op : Nat) (st : BitVec 16) (s : State) : (replyReject h op st s).dev = s.dev :=
  replyReject_only (g := (·.dev)) (fun _ _ _ _ => rfl) h op st s
@[simp] theorem replyReject_err (h : Hdr) (op : Nat) (st : BitVec 16) (s : State) : (replyReject h op st s).err = s.err :=
  replyReject_only (g := (·.err)) (fun _ _ _ _ => rfl) h op st s
@[simp] theorem replyReject_tick (h : Hdr) (op : Nat) (st : BitVec 16) (s : State) : (replyReject h op st s).tick = s.tick :=
  replyReject_only (g := (·.tick)) (fun _ _ _ _ => rfl) h op st s
@[simp] theorem replyReject_replay (h : Hdr) (op : Nat) (st : BitVec 16) (s : State) : (replyReject h op st s).replay = s.replay :=
  replyReject_only (g := (·.replay)) (fun _ _ _ _ => rfl) h op st s
@[simp] theorem replyReject_sides (h : Hdr) (op : Nat) (st : BitVec 16) (s : State) : (replyReject h op st s).sides = s.sides :=
  replyReject_only (g := (·.sides)) (fun _ _ _ _ => rfl) h op st s
@[simp] theorem replyReject_hold (h : Hdr) (op : Nat) (st : BitVec 16) (s : State) : (replyReject h op st s).hold = s.hold :=
  replyReject_only (g := (·.hold)) (fun _ _ _ _ => rfl) h op st s
@[simp] theorem replyReject_memc (h : Hdr) (op : Nat) (st : BitVec 16) (s : State) : (replyReject h op st s).memc = s.memc :=
  replyReject_only (g := (·.memc)) (fun _ _ _ _ => rfl) h op st s
@[simp] theorem replyReject_memch (h : Hdr) (op : Nat) (st : BitVec 16) (s : State) : (replyReject h op st s).memch = s.memch :=
  replyReject_only (g := (·.memch)) (fun _ _ _ _ => rfl) h op st s
@[simp] theorem replyReject_dram (h : Hdr) (op : Nat) (st : BitVec 16) (s : State) : (replyReject h op st s).dram = s.dram :=
  replyReject_only (g := (·.dram)) (fun _ _ _ _ => rfl) h op st s
@[simp] theorem replyReject_cfg (h : Hdr) (op : Nat) (st : BitVec 16) (s : State) : (replyReject h op st s).cfg = s.cfg :=
  replyReject_only (g := (·.cfg)) (fun _ _ _ _ => rfl) h op st s
@[simp] theorem replyReject_tiles (h : Hdr) (op : Nat) (st : BitVec 16) (s : State) : (replyReject h op st s).tiles = s.tiles :=
  replyReject_only (g := (·.tiles)) (fun _ _ _ _ => rfl) h op st s
@[simp] theorem replyReject_quads (h : Hdr) (op : Nat) (st : BitVec 16) (s : State) : (replyReject h op st s).quads = s.quads :=
  replyReject_only (g := (·.quads)) (fun _ _ _ _ => rfl) h op st s
@[simp] theorem replyReject_lincals (h : Hdr) (op : Nat) (st : BitVec 16) (s : State) : (replyReject h op st s).lincals = s.lincals :=
  replyReject_only (g := (·.lincals)) (fun _ _ _ _ => rfl) h op st s
@[simp] theorem replyReject_calReqs (h : Hdr) (op : Nat) (st : BitVec 16) (s : State) : (replyReject h op st s).calReqs = s.calReqs :=
  replyReject_only (g := (·.calReqs)) (fun _ _ _ _ => rfl) h op st s
@[simp] theorem replyReject_shut (h : Hdr) (op : Nat) (st : BitVec 16) (s : State) : (replyReject h op st s).shut = s.shut :=
  replyReject_only (g := (·.shut)) (fun _ _ _ _ => rfl) h op st s
@[simp] theorem replyReject_engs (h : Hdr) (op : Nat) (st : BitVec 16) (s : State) : (replyReject h op st s).engs = s.engs :=
  replyReject_only (g := (·.engs)) (fun _ _ _ _ => rfl) h op st s
@[simp] theorem replyReject_eng (h : Hdr) (op : Nat) (st : BitVec 16) (s : State) : (replyReject h op st s).eng = s.eng :=
  replyReject_only (g := (·.eng)) (fun _ _ _ _ => rfl) h op st s
@[simp] theorem replyReject_hk (h : Hdr) (op : Nat) (st : BitVec 16) (s : State) : (replyReject h op st s).hk = s.hk :=
  replyReject_only (g := (·.hk)) (fun _ _ _ _ => rfl) h op st s
@[simp] theorem replyReject_spc (h : Hdr) (op : Nat) (st : BitVec 16) (s : State) : (replyReject h op st s).spc = s.spc :=
  replyReject_only (g := (·.spc)) (fun _ _ _ _ => rfl) h op st s
@[simp] theorem replyReject_spt (h : Hdr) (op : Nat) (st : BitVec 16) (s : State) : (replyReject h op st s).spt = s.spt :=
  replyReject_only (g := (·.spt)) (fun _ _ _ _ => rfl) h op st s
@[simp] theorem replyReject_keep (h : Hdr) (op : Nat) (st : BitVec 16) (s : State) : (replyReject h op st s).keep = s.keep :=
  replyReject_only (g := (·.keep)) (fun _ _ _ _ => rfl) h op st s
@[simp] theorem replyReject_sync (h : Hdr) (op : Nat) (st : BitVec 16) (s : State) : (replyReject h op st s).sync = s.sync :=
  replyReject_only (g := (·.sync)) (fun _ _ _ _ => rfl) h op st s

@[simp] theorem raiseErr_pending (e : ErrRec) (s : State) : (raiseErr e s).pending = s.pending :=
  raiseErr_only (g := (·.pending)) (fun _ _ _ _ _ => rfl) e s
@[simp] theorem raiseErr_free (e : ErrRec) (s : State) : (raiseErr e s).free = s.free :=
  raiseErr_only (g := (·.free)) (fun _ _ _ _ _ => rfl) e s
@[simp] theorem raiseErr_board (e : ErrRec) (s : State) : (raiseErr e s).board = s.board :=
  raiseErr_only (g := (·.board)) (fun _ _ _ _ _ => rfl) e s
@[simp] theorem raiseErr_clock (e : ErrRec) (s : State) : (raiseErr e s).clock = s.clock :=
  raiseErr_only (g := (·.clock)) (fun _ _ _ _ _ => rfl) e s
@[simp] theorem raiseErr_dev (e : ErrRec) (s : State) : (raiseErr e s).dev = s.dev :=
  raiseErr_only (g := (·.dev)) (fun _ _ _ _ _ => rfl) e s
@[simp] theorem raiseErr_tick (e : ErrRec) (s : State) : (raiseErr e s).tick = s.tick :=
  raiseErr_only (g := (·.tick)) (fun _ _ _ _ _ => rfl) e s
@[simp] theorem raiseErr_replay (e : ErrRec) (s : State) : (raiseErr e s).replay = s.replay :=
  raiseErr_only (g := (·.replay)) (fun _ _ _ _ _ => rfl) e s
@[simp] theorem raiseErr_sides (e : ErrRec) (s : State) : (raiseErr e s).sides = s.sides :=
  raiseErr_only (g := (·.sides)) (fun _ _ _ _ _ => rfl) e s
@[simp] theorem raiseErr_cmdq (e : ErrRec) (s : State) : (raiseErr e s).cmdq = s.cmdq :=
  raiseErr_only (g := (·.cmdq)) (fun _ _ _ _ _ => rfl) e s
@[simp] theorem raiseErr_hold (e : ErrRec) (s : State) : (raiseErr e s).hold = s.hold :=
  raiseErr_only (g := (·.hold)) (fun _ _ _ _ _ => rfl) e s
@[simp] theorem raiseErr_memc (e : ErrRec) (s : State) : (raiseErr e s).memc = s.memc :=
  raiseErr_only (g := (·.memc)) (fun _ _ _ _ _ => rfl) e s
@[simp] theorem raiseErr_memch (e : ErrRec) (s : State) : (raiseErr e s).memch = s.memch :=
  raiseErr_only (g := (·.memch)) (fun _ _ _ _ _ => rfl) e s
@[simp] theorem raiseErr_dram (e : ErrRec) (s : State) : (raiseErr e s).dram = s.dram :=
  raiseErr_only (g := (·.dram)) (fun _ _ _ _ _ => rfl) e s
@[simp] theorem raiseErr_cfg (e : ErrRec) (s : State) : (raiseErr e s).cfg = s.cfg :=
  raiseErr_only (g := (·.cfg)) (fun _ _ _ _ _ => rfl) e s
@[simp] theorem raiseErr_tiles (e : ErrRec) (s : State) : (raiseErr e s).tiles = s.tiles :=
  raiseErr_only (g := (·.tiles)) (fun _ _ _ _ _ => rfl) e s
@[simp] theorem raiseErr_quads (e : ErrRec) (s : State) : (raiseErr e s).quads = s.quads :=
  raiseErr_only (g := (·.quads)) (fun _ _ _ _ _ => rfl) e s
@[simp] theorem raiseErr_lincals (e : ErrRec) (s : State) : (raiseErr e s).lincals = s.lincals :=
  raiseErr_only (g := (·.lincals)) (fun _ _ _ _ _ => rfl) e s
@[simp] theorem raiseErr_calReqs (e : ErrRec) (s : State) : (raiseErr e s).calReqs = s.calReqs :=
  raiseErr_only (g := (·.calReqs)) (fun _ _ _ _ _ => rfl) e s
@[simp] theorem raiseErr_shut (e : ErrRec) (s : State) : (raiseErr e s).shut = s.shut :=
  raiseErr_only (g := (·.shut)) (fun _ _ _ _ _ => rfl) e s
@[simp] theorem raiseErr_engs (e : ErrRec) (s : State) : (raiseErr e s).engs = s.engs :=
  raiseErr_only (g := (·.engs)) (fun _ _ _ _ _ => rfl) e s
@[simp] theorem raiseErr_eng (e : ErrRec) (s : State) : (raiseErr e s).eng = s.eng :=
  raiseErr_only (g := (·.eng)) (fun _ _ _ _ _ => rfl) e s
@[simp] theorem raiseErr_hk (e : ErrRec) (s : State) : (raiseErr e s).hk = s.hk :=
  raiseErr_only (g := (·.hk)) (fun _ _ _ _ _ => rfl) e s
@[simp] theorem raiseErr_spc (e : ErrRec) (s : State) : (raiseErr e s).spc = s.spc :=
  raiseErr_only (g := (·.spc)) (fun _ _ _ _ _ => rfl) e s
@[simp] theorem raiseErr_spt (e : ErrRec) (s : State) : (raiseErr e s).spt = s.spt :=
  raiseErr_only (g := (·.spt)) (fun _ _ _ _ _ => rfl) e s
@[simp] theorem raiseErr_sync (e : ErrRec) (s : State) : (raiseErr e s).sync = s.sync :=
  raiseErr_only (g := (·.sync)) (fun _ _ _ _ _ => rfl) e s

@[simp] theorem raiseErrs_pending (l : List ErrRec) (s : State) : (raiseErrs l s).pending = s.pending :=
  raiseErrs_only (g := (·.pending)) (fun _ _ _ _ _ => rfl) l s
@[simp] theorem raiseErrs_free (l : List ErrRec) (s : State) : (raiseErrs l s).free = s.free :=
  raiseErrs_only (g := (·.free)) (fun _ _ _ _ _ => rfl) l s
@[simp] theorem raiseErrs_board (l : List ErrRec) (s : State) : (raiseErrs l s).board = s.board :=
  raiseErrs_only (g := (·.board)) (fun _ _ _ _ _ => rfl) l s
@[simp] theorem raiseErrs_clock (l : List ErrRec) (s : State) : (raiseErrs l s).clock = s.clock :=
  raiseErrs_only (g := (·.clock)) (fun _ _ _ _ _ => rfl) l s
@[simp] theorem raiseErrs_dev (l : List ErrRec) (s : State) : (raiseErrs l s).dev = s.dev :=
  raiseErrs_only (g := (·.dev)) (fun _ _ _ _ _ => rfl) l s
@[simp] theorem raiseErrs_tick (l : List ErrRec) (s : State) : (raiseErrs l s).tick = s.tick :=
  raiseErrs_only (g := (·.tick)) (fun _ _ _ _ _ => rfl) l s
@[simp] theorem raiseErrs_replay (l : List ErrRec) (s : State) : (raiseErrs l s).replay = s.replay :=
  raiseErrs_only (g := (·.replay)) (fun _ _ _ _ _ => rfl) l s
@[simp] theorem raiseErrs_sides (l : List ErrRec) (s : State) : (raiseErrs l s).sides = s.sides :=
  raiseErrs_only (g := (·.sides)) (fun _ _ _ _ _ => rfl) l s
@[simp] theorem raiseErrs_cmdq (l : List ErrRec) (s : State) : (raiseErrs l s).cmdq = s.cmdq :=
  raiseErrs_only (g := (·.cmdq)) (fun _ _ _ _ _ => rfl) l s
@[simp] theorem raiseErrs_hold (l : List ErrRec) (s : State) : (raiseErrs l s).hold = s.hold :=
  raiseErrs_only (g := (·.hold)) (fun _ _ _ _ _ => rfl) l s
@[simp] theorem raiseErrs_memc (l : List ErrRec) (s : State) : (raiseErrs l s).memc = s.memc :=
  raiseErrs_only (g := (·.memc)) (fun _ _ _ _ _ => rfl) l s
@[simp] theorem raiseErrs_memch (l : List ErrRec) (s : State) : (raiseErrs l s).memch = s.memch :=
  raiseErrs_only (g := (·.memch)) (fun _ _ _ _ _ => rfl) l s
@[simp] theorem raiseErrs_dram (l : List ErrRec) (s : State) : (raiseErrs l s).dram = s.dram :=
  raiseErrs_only (g := (·.dram)) (fun _ _ _ _ _ => rfl) l s
@[simp] theorem raiseErrs_cfg (l : List ErrRec) (s : State) : (raiseErrs l s).cfg = s.cfg :=
  raiseErrs_only (g := (·.cfg)) (fun _ _ _ _ _ => rfl) l s
@[simp] theorem raiseErrs_tiles (l : List ErrRec) (s : State) : (raiseErrs l s).tiles = s.tiles :=
  raiseErrs_only (g := (·.tiles)) (fun _ _ _ _ _ => rfl) l s
@[simp] theorem raiseErrs_quads (l : List ErrRec) (s : State) : (raiseErrs l s).quads = s.quads :=
  raiseErrs_only (g := (·.quads)) (fun _ _ _ _ _ => rfl) l s
@[simp] theorem raiseErrs_lincals (l : List ErrRec) (s : State) : (raiseErrs l s).lincals = s.lincals :=
  raiseErrs_only (g := (·.lincals)) (fun _ _ _ _ _ => rfl) l s
@[simp] theorem raiseErrs_calReqs (l : List ErrRec) (s : State) : (raiseErrs l s).calReqs = s.calReqs :=
  raiseErrs_only (g := (·.calReqs)) (fun _ _ _ _ _ => rfl) l s
@[simp] theorem raiseErrs_shut (l : List ErrRec) (s : State) : (raiseErrs l s).shut = s.shut :=
  raiseErrs_only (g := (·.shut)) (fun _ _ _ _ _ => rfl) l s
@[simp] theorem raiseErrs_engs (l : List ErrRec) (s : State) : (raiseErrs l s).engs = s.engs :=
  raiseErrs_only (g := (·.engs)) (fun _ _ _ _ _ => rfl) l s
@[simp] theorem raiseErrs_eng (l : List ErrRec) (s : State) : (raiseErrs l s).eng = s.eng :=
  raiseErrs_only (g := (·.eng)) (fun _ _ _ _ _ => rfl) l s
@[simp] theorem raiseErrs_hk (l : List ErrRec) (s : State) : (raiseErrs l s).hk = s.hk :=
  raiseErrs_only (g := (·.hk)) (fun _ _ _ _ _ => rfl) l s
@[simp] theorem raiseErrs_spc (l : List ErrRec) (s : State) : (raiseErrs l s).spc = s.spc :=
  raiseErrs_only (g := (·.spc)) (fun _ _ _ _ _ => rfl) l s
@[simp] theorem raiseErrs_spt (l : List ErrRec) (s : State) : (raiseErrs l s).spt = s.spt :=
  raiseErrs_only (g := (·.spt)) (fun _ _ _ _ _ => rfl) l s
@[simp] theorem raiseErrs_sync (l : List ErrRec) (s : State) : (raiseErrs l s).sync = s.sync :=
  raiseErrs_only (g := (·.sync)) (fun _ _ _ _ _ => rfl) l s

@[simp] theorem freezeDue_pending (c : Nat) (s : State) : (freezeDue c s).pending = s.pending :=
  freezeDue_only (g := (·.pending)) (fun _ _ _ _ _ => rfl) c s
@[simp] theorem freezeDue_free (c : Nat) (s : State) : (freezeDue c s).free = s.free :=
  freezeDue_only (g := (·.free)) (fun _ _ _ _ _ => rfl) c s
@[simp] theorem freezeDue_board (c : Nat) (s : State) : (freezeDue c s).board = s.board :=
  freezeDue_only (g := (·.board)) (fun _ _ _ _ _ => rfl) c s
@[simp] theorem freezeDue_clock (c : Nat) (s : State) : (freezeDue c s).clock = s.clock :=
  freezeDue_only (g := (·.clock)) (fun _ _ _ _ _ => rfl) c s
@[simp] theorem freezeDue_dev (c : Nat) (s : State) : (freezeDue c s).dev = s.dev :=
  freezeDue_only (g := (·.dev)) (fun _ _ _ _ _ => rfl) c s
@[simp] theorem freezeDue_tick (c : Nat) (s : State) : (freezeDue c s).tick = s.tick :=
  freezeDue_only (g := (·.tick)) (fun _ _ _ _ _ => rfl) c s
@[simp] theorem freezeDue_replay (c : Nat) (s : State) : (freezeDue c s).replay = s.replay :=
  freezeDue_only (g := (·.replay)) (fun _ _ _ _ _ => rfl) c s
@[simp] theorem freezeDue_sides (c : Nat) (s : State) : (freezeDue c s).sides = s.sides :=
  freezeDue_only (g := (·.sides)) (fun _ _ _ _ _ => rfl) c s
@[simp] theorem freezeDue_cmdq (c : Nat) (s : State) : (freezeDue c s).cmdq = s.cmdq :=
  freezeDue_only (g := (·.cmdq)) (fun _ _ _ _ _ => rfl) c s
@[simp] theorem freezeDue_hold (c : Nat) (s : State) : (freezeDue c s).hold = s.hold :=
  freezeDue_only (g := (·.hold)) (fun _ _ _ _ _ => rfl) c s
@[simp] theorem freezeDue_memc (c : Nat) (s : State) : (freezeDue c s).memc = s.memc :=
  freezeDue_only (g := (·.memc)) (fun _ _ _ _ _ => rfl) c s
@[simp] theorem freezeDue_memch (c : Nat) (s : State) : (freezeDue c s).memch = s.memch :=
  freezeDue_only (g := (·.memch)) (fun _ _ _ _ _ => rfl) c s
@[simp] theorem freezeDue_dram (c : Nat) (s : State) : (freezeDue c s).dram = s.dram :=
  freezeDue_only (g := (·.dram)) (fun _ _ _ _ _ => rfl) c s
@[simp] theorem freezeDue_cfg (c : Nat) (s : State) : (freezeDue c s).cfg = s.cfg :=
  freezeDue_only (g := (·.cfg)) (fun _ _ _ _ _ => rfl) c s
@[simp] theorem freezeDue_tiles (c : Nat) (s : State) : (freezeDue c s).tiles = s.tiles :=
  freezeDue_only (g := (·.tiles)) (fun _ _ _ _ _ => rfl) c s
@[simp] theorem freezeDue_quads (c : Nat) (s : State) : (freezeDue c s).quads = s.quads :=
  freezeDue_only (g := (·.quads)) (fun _ _ _ _ _ => rfl) c s
@[simp] theorem freezeDue_lincals (c : Nat) (s : State) : (freezeDue c s).lincals = s.lincals :=
  freezeDue_only (g := (·.lincals)) (fun _ _ _ _ _ => rfl) c s
@[simp] theorem freezeDue_calReqs (c : Nat) (s : State) : (freezeDue c s).calReqs = s.calReqs :=
  freezeDue_only (g := (·.calReqs)) (fun _ _ _ _ _ => rfl) c s
@[simp] theorem freezeDue_shut (c : Nat) (s : State) : (freezeDue c s).shut = s.shut :=
  freezeDue_only (g := (·.shut)) (fun _ _ _ _ _ => rfl) c s
@[simp] theorem freezeDue_engs (c : Nat) (s : State) : (freezeDue c s).engs = s.engs :=
  freezeDue_only (g := (·.engs)) (fun _ _ _ _ _ => rfl) c s
@[simp] theorem freezeDue_eng (c : Nat) (s : State) : (freezeDue c s).eng = s.eng :=
  freezeDue_only (g := (·.eng)) (fun _ _ _ _ _ => rfl) c s
@[simp] theorem freezeDue_hk (c : Nat) (s : State) : (freezeDue c s).hk = s.hk :=
  freezeDue_only (g := (·.hk)) (fun _ _ _ _ _ => rfl) c s
@[simp] theorem freezeDue_spc (c : Nat) (s : State) : (freezeDue c s).spc = s.spc :=
  freezeDue_only (g := (·.spc)) (fun _ _ _ _ _ => rfl) c s
@[simp] theorem freezeDue_spt (c : Nat) (s : State) : (freezeDue c s).spt = s.spt :=
  freezeDue_only (g := (·.spt)) (fun _ _ _ _ _ => rfl) c s
@[simp] theorem freezeDue_sync (c : Nat) (s : State) : (freezeDue c s).sync = s.sync :=
  freezeDue_only (g := (·.sync)) (fun _ _ _ _ _ => rfl) c s

@[simp] theorem dramWrite_pending (a : Nat) (bs : List Byte) (s : State) : (dramWrite a bs s).pending = s.pending :=
  dramWrite_only (g := (·.pending)) (fun _ _ _ _ => rfl) a bs s
@[simp] theorem dramWrite_out (a : Nat) (bs : List Byte) (s : State) : (dramWrite a bs s).out = s.out :=
  dramWrite_only (g := (·.out)) (fun _ _ _ _ => rfl) a bs s
@[simp] theorem dramWrite_board (a : Nat) (bs : List Byte) (s : State) : (dramWrite a bs s).board = s.board :=
  dramWrite_only (g := (·.board)) (fun _ _ _ _ => rfl) a bs s
@[simp] theorem dramWrite_clock (a : Nat) (bs : List Byte) (s : State) : (dramWrite a bs s).clock = s.clock :=
  dramWrite_only (g := (·.clock)) (fun _ _ _ _ => rfl) a bs s
@[simp] theorem dramWrite_dev (a : Nat) (bs : List Byte) (s : State) : (dramWrite a bs s).dev = s.dev :=
  dramWrite_only (g := (·.dev)) (fun _ _ _ _ => rfl) a bs s
@[simp] theorem dramWrite_err (a : Nat) (bs : List Byte) (s : State) : (dramWrite a bs s).err = s.err :=
  dramWrite_only (g := (·.err)) (fun _ _ _ _ => rfl) a bs s
@[simp] theorem dramWrite_tick (a : Nat) (bs : List Byte) (s : State) : (dramWrite a bs s).tick = s.tick :=
  dramWrite_only (g := (·.tick)) (fun _ _ _ _ => rfl) a bs s
@[simp] theorem dramWrite_replay (a : Nat) (bs : List Byte) (s : State) : (dramWrite a bs s).replay = s.replay :=
  dramWrite_only (g := (·.replay)) (fun _ _ _ _ => rfl) a bs s
@[simp] theorem dramWrite_sides (a : Nat) (bs : List Byte) (s : State) : (dramWrite a bs s).sides = s.sides :=
  dramWrite_only (g := (·.sides)) (fun _ _ _ _ => rfl) a bs s
@[simp] theorem dramWrite_cmdq (a : Nat) (bs : List Byte) (s : State) : (dramWrite a bs s).cmdq = s.cmdq :=
  dramWrite_only (g := (·.cmdq)) (fun _ _ _ _ => rfl) a bs s
@[simp] theorem dramWrite_host (a : Nat) (bs : List Byte) (s : State) : (dramWrite a bs s).host = s.host :=
  dramWrite_only (g := (·.host)) (fun _ _ _ _ => rfl) a bs s
@[simp] theorem dramWrite_hold (a : Nat) (bs : List Byte) (s : State) : (dramWrite a bs s).hold = s.hold :=
  dramWrite_only (g := (·.hold)) (fun _ _ _ _ => rfl) a bs s
@[simp] theorem dramWrite_memch (a : Nat) (bs : List Byte) (s : State) : (dramWrite a bs s).memch = s.memch :=
  dramWrite_only (g := (·.memch)) (fun _ _ _ _ => rfl) a bs s
@[simp] theorem dramWrite_cfg (a : Nat) (bs : List Byte) (s : State) : (dramWrite a bs s).cfg = s.cfg :=
  dramWrite_only (g := (·.cfg)) (fun _ _ _ _ => rfl) a bs s
@[simp] theorem dramWrite_tiles (a : Nat) (bs : List Byte) (s : State) : (dramWrite a bs s).tiles = s.tiles :=
  dramWrite_only (g := (·.tiles)) (fun _ _ _ _ => rfl) a bs s
@[simp] theorem dramWrite_quads (a : Nat) (bs : List Byte) (s : State) : (dramWrite a bs s).quads = s.quads :=
  dramWrite_only (g := (·.quads)) (fun _ _ _ _ => rfl) a bs s
@[simp] theorem dramWrite_lincals (a : Nat) (bs : List Byte) (s : State) : (dramWrite a bs s).lincals = s.lincals :=
  dramWrite_only (g := (·.lincals)) (fun _ _ _ _ => rfl) a bs s
@[simp] theorem dramWrite_calReqs (a : Nat) (bs : List Byte) (s : State) : (dramWrite a bs s).calReqs = s.calReqs :=
  dramWrite_only (g := (·.calReqs)) (fun _ _ _ _ => rfl) a bs s
@[simp] theorem dramWrite_shut (a : Nat) (bs : List Byte) (s : State) : (dramWrite a bs s).shut = s.shut :=
  dramWrite_only (g := (·.shut)) (fun _ _ _ _ => rfl) a bs s
@[simp] theorem dramWrite_engs (a : Nat) (bs : List Byte) (s : State) : (dramWrite a bs s).engs = s.engs :=
  dramWrite_only (g := (·.engs)) (fun _ _ _ _ => rfl) a bs s
@[simp] theorem dramWrite_eng (a : Nat) (bs : List Byte) (s : State) : (dramWrite a bs s).eng = s.eng :=
  dramWrite_only (g := (·.eng)) (fun _ _ _ _ => rfl) a bs s
@[simp] theorem dramWrite_hk (a : Nat) (bs : List Byte) (s : State) : (dramWrite a bs s).hk = s.hk :=
  dramWrite_only (g := (·.hk)) (fun _ _ _ _ => rfl) a bs s
@[simp] theorem dramWrite_spc (a : Nat) (bs : List Byte) (s : State) : (dramWrite a bs s).spc = s.spc :=
  dramWrite_only (g := (·.spc)) (fun _ _ _ _ => rfl) a bs s
@[simp] theorem dramWrite_spt (a : Nat) (bs : List Byte) (s : State) : (dramWrite a bs s).spt = s.spt :=
  dramWrite_only (g := (·.spt)) (fun _ _ _ _ => rfl) a bs s
@[simp] theorem dramWrite_keep (a : Nat) (bs : List Byte) (s : State) : (dramWrite a bs s).keep = s.keep :=
  dramWrite_only (g := (·.keep)) (fun _ _ _ _ => rfl) a bs s
@[simp] theorem dramWrite_sync (a : Nat) (bs : List Byte) (s : State) : (dramWrite a bs s).sync = s.sync :=
  dramWrite_only (g := (·.sync)) (fun _ _ _ _ => rfl) a bs s

@[simp] theorem stageWrite_pending (a : Nat) (bs : List Byte) (s : State) : (stageWrite a bs s).pending = s.pending :=
  stageWrite_only (g := (·.pending)) (fun _ _ _ _ => rfl) a bs s
@[simp] theorem stageWrite_out (a : Nat) (bs : List Byte) (s : State) : (stageWrite a bs s).out = s.out :=
  stageWrite_only (g := (·.out)) (fun _ _ _ _ => rfl) a bs s
@[simp] theorem stageWrite_board (a : Nat) (bs : List Byte) (s : State) : (stageWrite a bs s).board = s.board :=
  stageWrite_only (g := (·.board)) (fun _ _ _ _ => rfl) a bs s
@[simp] theorem stageWrite_clock (a : Nat) (bs : List Byte) (s : State) : (stageWrite a bs s).clock = s.clock :=
  stageWrite_only (g := (·.clock)) (fun _ _ _ _ => rfl) a bs s
@[simp] theorem stageWrite_dev (a : Nat) (bs : List Byte) (s : State) : (stageWrite a bs s).dev = s.dev :=
  stageWrite_only (g := (·.dev)) (fun _ _ _ _ => rfl) a bs s
@[simp] theorem stageWrite_err (a : Nat) (bs : List Byte) (s : State) : (stageWrite a bs s).err = s.err :=
  stageWrite_only (g := (·.err)) (fun _ _ _ _ => rfl) a bs s
@[simp] theorem stageWrite_tick (a : Nat) (bs : List Byte) (s : State) : (stageWrite a bs s).tick = s.tick :=
  stageWrite_only (g := (·.tick)) (fun _ _ _ _ => rfl) a bs s
@[simp] theorem stageWrite_replay (a : Nat) (bs : List Byte) (s : State) : (stageWrite a bs s).replay = s.replay :=
  stageWrite_only (g := (·.replay)) (fun _ _ _ _ => rfl) a bs s
@[simp] theorem stageWrite_sides (a : Nat) (bs : List Byte) (s : State) : (stageWrite a bs s).sides = s.sides :=
  stageWrite_only (g := (·.sides)) (fun _ _ _ _ => rfl) a bs s
@[simp] theorem stageWrite_cmdq (a : Nat) (bs : List Byte) (s : State) : (stageWrite a bs s).cmdq = s.cmdq :=
  stageWrite_only (g := (·.cmdq)) (fun _ _ _ _ => rfl) a bs s
@[simp] theorem stageWrite_host (a : Nat) (bs : List Byte) (s : State) : (stageWrite a bs s).host = s.host :=
  stageWrite_only (g := (·.host)) (fun _ _ _ _ => rfl) a bs s
@[simp] theorem stageWrite_hold (a : Nat) (bs : List Byte) (s : State) : (stageWrite a bs s).hold = s.hold :=
  stageWrite_only (g := (·.hold)) (fun _ _ _ _ => rfl) a bs s
@[simp] theorem stageWrite_memch (a : Nat) (bs : List Byte) (s : State) : (stageWrite a bs s).memch = s.memch :=
  stageWrite_only (g := (·.memch)) (fun _ _ _ _ => rfl) a bs s
@[simp] theorem stageWrite_cfg (a : Nat) (bs : List Byte) (s : State) : (stageWrite a bs s).cfg = s.cfg :=
  stageWrite_only (g := (·.cfg)) (fun _ _ _ _ => rfl) a bs s
@[simp] theorem stageWrite_tiles (a : Nat) (bs : List Byte) (s : State) : (stageWrite a bs s).tiles = s.tiles :=
  stageWrite_only (g := (·.tiles)) (fun _ _ _ _ => rfl) a bs s
@[simp] theorem stageWrite_quads (a : Nat) (bs : List Byte) (s : State) : (stageWrite a bs s).quads = s.quads :=
  stageWrite_only (g := (·.quads)) (fun _ _ _ _ => rfl) a bs s
@[simp] theorem stageWrite_lincals (a : Nat) (bs : List Byte) (s : State) : (stageWrite a bs s).lincals = s.lincals :=
  stageWrite_only (g := (·.lincals)) (fun _ _ _ _ => rfl) a bs s
@[simp] theorem stageWrite_calReqs (a : Nat) (bs : List Byte) (s : State) : (stageWrite a bs s).calReqs = s.calReqs :=
  stageWrite_only (g := (·.calReqs)) (fun _ _ _ _ => rfl) a bs s
@[simp] theorem stageWrite_shut (a : Nat) (bs : List Byte) (s : State) : (stageWrite a bs s).shut = s.shut :=
  stageWrite_only (g := (·.shut)) (fun _ _ _ _ => rfl) a bs s
@[simp] theorem stageWrite_engs (a : Nat) (bs : List Byte) (s : State) : (stageWrite a bs s).engs = s.engs :=
  stageWrite_only (g := (·.engs)) (fun _ _ _ _ => rfl) a bs s
@[simp] theorem stageWrite_eng (a : Nat) (bs : List Byte) (s : State) : (stageWrite a bs s).eng = s.eng :=
  stageWrite_only (g := (·.eng)) (fun _ _ _ _ => rfl) a bs s
@[simp] theorem stageWrite_hk (a : Nat) (bs : List Byte) (s : State) : (stageWrite a bs s).hk = s.hk :=
  stageWrite_only (g := (·.hk)) (fun _ _ _ _ => rfl) a bs s
@[simp] theorem stageWrite_spc (a : Nat) (bs : List Byte) (s : State) : (stageWrite a bs s).spc = s.spc :=
  stageWrite_only (g := (·.spc)) (fun _ _ _ _ => rfl) a bs s
@[simp] theorem stageWrite_spt (a : Nat) (bs : List Byte) (s : State) : (stageWrite a bs s).spt = s.spt :=
  stageWrite_only (g := (·.spt)) (fun _ _ _ _ => rfl) a bs s
@[simp] theorem stageWrite_keep (a : Nat) (bs : List Byte) (s : State) : (stageWrite a bs s).keep = s.keep :=
  stageWrite_only (g := (·.keep)) (fun _ _ _ _ => rfl) a bs s
@[simp] theorem stageWrite_sync (a : Nat) (bs : List Byte) (s : State) : (stageWrite a bs s).sync = s.sync :=
  stageWrite_only (g := (·.sync)) (fun _ _ _ _ => rfl) a bs s

end Sys2Proof.Laws
end

