-- ==== Sys2Proof/Laws/Access.lean ====
section
/-! SUPPORT. What the accesses of a stage can do, said once: with no request waiting and no uncorrectable word read they
change the counters and credits of the ports and the counters and traces of the channels, and nothing else. -/
namespace Sys2Proof.Laws

open Sys2Proof Sys2Proof.Machine

/-- The two states differ in the ports of the controller and in the channels at most. -/
def OnlyPorts (s t : State) : Prop :=
  ∃ (p : Vector ReqPort 12) (c : Vector Memch 8), t = { s with memc := { s.memc with ports := p }, memch := c }

theorem OnlyPorts.refl (s : State) : OnlyPorts s s := ⟨s.memc.ports, s.memch, rfl⟩

theorem OnlyPorts.trans {s t u : State} (a : OnlyPorts s t) (b : OnlyPorts t u) : OnlyPorts s u := by
  obtain ⟨p, c, rfl⟩ := a
  obtain ⟨q, d, rfl⟩ := b
  exact ⟨q, d, rfl⟩

/-- What such a change keeps: DRAM, and what says whether the memory serves. -/
theorem OnlyPorts.keeps {s t : State} (h : OnlyPorts s t) :
    t.dram = s.dram ∧ memServes t = memServes s ∧ (MemoryIdle s → MemoryIdle t) ∧ t.memc.undo = s.memc.undo := by
  obtain ⟨p, c, rfl⟩ := h
  exact ⟨rfl, rfl, id, rfl⟩

/-- No other part of the state is touched. -/
theorem OnlyPorts.only {s t : State} (h : OnlyPorts s t) :
    t.cfg = s.cfg ∧ t.tick = s.tick ∧ t.tiles = s.tiles ∧ t.host = s.host ∧ t.cmdq = s.cmdq ∧ t.hold = s.hold ∧
      t.engs = s.engs ∧ t.eng = s.eng ∧ t.err = s.err ∧ t.clock = s.clock ∧ t.out = s.out ∧ t.free = s.free := by
  obtain ⟨p, c, rfl⟩ := h
  exact ⟨rfl, rfl, rfl, rfl, rfl, rfl, rfl, rfl, rfl, rfl, rfl, rfl⟩

theorem onlyPorts_modCh (n : Nat) (f : Memch → Memch) (s : State) : OnlyPorts s (modCh n f s) :=
  ⟨s.memc.ports, vmod s.memch n f, rfl⟩

theorem onlyPorts_port (port : Nat) (f : ReqPort → ReqPort) (s : State) :
    OnlyPorts s (modMemc (fun m => { m with ports := vmod m.ports port f }) s) := ⟨vmod s.memc.ports port f, s.memch, rfl⟩

theorem onlyPorts_traceCmd (cmd : Nat) (p : Place) (port : Nat) (s : State) : OnlyPorts s (traceCmd cmd p port s) :=
  onlyPorts_modCh _ _ _

/-- A check without an uncorrectable word counts the corrected ones. -/
theorem onlyPorts_eccCheck (line port : Nat) (hits : List EccHit) (s : State) (h : ∀ x ∈ hits, x.correctable = true) :
    OnlyPorts s (eccCheck line port hits s) := by
  have hn : (hits.find? fun x => !x.correctable) = none := by
    rw [List.find?_eq_none]; intro x hx; simp [h x hx]
  unfold eccCheck
  simp only [hn]
  split
  · exact OnlyPorts.refl s
  · exact onlyPorts_modCh _ _ _

theorem onlyPorts_accessLine (port line : Nat) (k : LineKind) (hits : List EccHit) (s : State)
    (h : ∀ x ∈ hits, x.correctable = true) : OnlyPorts s (accessLine port line k hits s) := by
  have hn : (hits.any fun x => !x.correctable) = false := by
    rw [List.any_eq_false]; intro x hx; simp [h x hx]
  unfold accessLine
  refine ((onlyPorts_port port (fun x => { x with linesNow := satAdd x.linesNow k.cost }) s).trans
    (onlyPorts_traceCmd 1 (placeOf s line) port _)).trans ?_
  cases k with
  | read => exact (onlyPorts_traceCmd 2 _ port _).trans (onlyPorts_eccCheck _ _ _ _ h)
  | full => exact onlyPorts_traceCmd 3 _ port _
  | masked => exact onlyPorts_traceCmd 4 _ port _
  | rmw =>
    simp only [hn, Bool.false_eq_true, if_false]
    refine OnlyPorts.trans (onlyPorts_traceCmd 2 (placeOf s line) port _) ?_
    refine OnlyPorts.trans (onlyPorts_modCh (placeOf s line).channel (fun c => { c with rmw := satInc c.rmw }) _) ?_
    refine OnlyPorts.trans (onlyPorts_eccCheck line port hits _ h) ?_
    exact (onlyPorts_traceCmd 1 (placeOf s line) port _).trans (onlyPorts_traceCmd 3 (placeOf s line) port _)

theorem onlyPorts_takeCredit (port cost : Nat) (s : State) : OnlyPorts s (takeCredit port cost s) := by
  unfold takeCredit
  split
  · exact OnlyPorts.refl s
  · exact onlyPorts_port port (fun x => { x with credit := x.credit - (64000 * cost : Nat) }) s

/-- With no request waiting none is served first. -/
theorem serveFirst_idle (line : Nat) (read : Bool) (s : State) (h : s.memc.reqs = []) : serveFirst line read s = s := by
  unfold serveFirst
  simp [h, forEach]

theorem onlyPorts_stageLine (port : Nat) (k : LineKind) (hits : List (Nat × EccHit)) (line : Nat) (s : State)
    (hr : s.memc.reqs = []) (h : Correctable hits) : OnlyPorts s (stageLine port k hits line s) := by
  unfold stageLine
  split
  · exact OnlyPorts.refl s
  · have hl : ∀ x ∈ (hits.filter fun p => p.1 = line).map fun p => p.2, x.correctable = true := by
      intro x hx
      obtain ⟨p, hp, rfl⟩ := List.mem_map.1 hx
      exact h p (List.mem_filter.1 hp).1
    simp only [serveFirst_idle _ _ _ hr]
    refine OnlyPorts.trans ?_ (onlyPorts_accessLine port line k _ _ hl)
    refine (onlyPorts_port port (fun x => { x with
      wait := if !hasCredit s port k.cost then satInc x.wait else x.wait,
      credit := if !hasCredit s port k.cost then min x.credit 0 else x.credit }) s).trans ?_
    split
    · exact OnlyPorts.refl _
    · exact onlyPorts_takeCredit _ _ _

/-- A fold of steps that each change ports and channels alone, from a state whose controller holds no request. -/
theorem onlyPorts_forEach {α : Type} (l : List α) (f : α → State → State)
    (h : ∀ a s, s.memc.reqs = [] → OnlyPorts s (f a s)) (s : State) (hr : s.memc.reqs = []) : OnlyPorts s (forEach l f s) := by
  induction l generalizing s with
  | nil => exact OnlyPorts.refl s
  | cons a l ih =>
    have ha := h a s hr
    have hr' : (f a s).memc.reqs = [] := by
      obtain ⟨p, c, e⟩ := ha
      rw [e]; exact hr
    exact ha.trans (ih (f a s) hr')

/-- What the accesses of a stage's row can do. -/
theorem onlyPorts_traffic (port : Nat) (hits : List (Nat × EccHit)) (l : List Span) (s : State) (hr : s.memc.reqs = [])
    (h : Correctable hits) : OnlyPorts s (traffic port hits l s) :=
  onlyPorts_forEach l _ (fun x s hs => onlyPorts_forEach (linesOf x.addr x.len) _
    (fun n s hn => onlyPorts_stageLine port (x.kind n) hits n s hn h) s hs) s hr

end Sys2Proof.Laws
end

