-- ==== Sys2Proof/Laws/Memory.lean ====
section
/-! SUPPORT. Sparse memory: every write keeps the canonical form, a byte written is read back, and no other byte changes
(the form is that of `Memory.wf`). -/
namespace Sys2Proof.Laws

open Sys2Proof.Machine

/-- What a lower bound asks of an address. -/
def aboveBound : Option Nat → Nat → Prop
  | none, _ => True
  | some l, a => l < a

theorem cellsAbove_cons (d : Nat → Byte) (lo : Option Nat) (k : Nat) (b : Byte) (r : List Host.Cell) :
    cellsAbove d lo ((k, b) :: r) = true ↔ aboveBound lo k ∧ b ≠ d k ∧ cellsAbove d (some k) r = true := by
  cases lo <;> simp [cellsAbove, aboveBound, and_assoc]

/-- Cells above a bound are above any lower one. -/
theorem cellsAbove_weaken {d : Nat → Byte} {lo lo' : Option Nat} {m : List Host.Cell}
    (h : ∀ a, aboveBound lo a → aboveBound lo' a) (hm : cellsAbove d lo m = true) : cellsAbove d lo' m = true := by
  cases m with
  | nil => rfl
  | cons c r =>
    obtain ⟨k, b⟩ := c
    rw [cellsAbove_cons] at hm ⊢
    exact ⟨h k hm.1, hm.2⟩

/-- A write of one byte above the bound keeps the cells above the bound. -/
theorem writeCell_above {d : Nat → Byte} {lo : Option Nat} {m : List Host.Cell} {a : Nat} {b : Byte}
    (ha : aboveBound lo a) (hm : cellsAbove d lo m = true) : cellsAbove d lo (writeCell d m a b) = true := by
  induction m generalizing lo with
  | nil =>
    unfold writeCell
    split
    · rfl
    · rename_i hb
      exact (cellsAbove_cons d lo a b []).2 ⟨ha, hb, rfl⟩
  | cons c r ih =>
    obtain ⟨k, x⟩ := c
    have h := (cellsAbove_cons d lo k x r).1 hm
    unfold writeCell
    split
    · rename_i hlt
      split
      · exact hm
      · rename_i hb
        exact (cellsAbove_cons d lo a b _).2 ⟨ha, hb, (cellsAbove_cons d (some a) k x r).2 ⟨hlt, h.2⟩⟩
    · rename_i hge
      split
      · rename_i heq
        split
        · refine cellsAbove_weaken (fun y hy => ?_) h.2.2
          cases lo with
          | none => trivial
          | some l => exact Nat.lt_trans h.1 hy
        · rename_i hb
          exact (cellsAbove_cons d lo k b r).2 ⟨h.1, heq ▸ hb, h.2.2⟩
      · rename_i hne
        exact (cellsAbove_cons d lo k x _).2 ⟨h.1, h.2.1, ih (by simp only [aboveBound]; omega) h.2.2⟩

/-- A write keeps the canonical form. -/
theorem writeCell_wf {d : Nat → Byte} {m : List Host.Cell} (a : Nat) (b : Byte) (hm : Memory.wf d m = true) :
    Memory.wf d (writeCell d m a b) = true := writeCell_above trivial hm

theorem writeCells_wf {d : Nat → Byte} {m : List Host.Cell} (a : Nat) (bs : List Byte) (hm : Memory.wf d m = true) :
    Memory.wf d (writeCells d m a bs) = true := by
  induction bs generalizing m a with
  | nil => exact hm
  | cons b r ih => exact ih (a + 1) (writeCell_wf a b hm)

theorem writeEnabled_wf {d : Nat → Byte} {m : List Host.Cell} (a : Nat) (bs : List (Option Byte))
    (hm : Memory.wf d m = true) : Memory.wf d (writeEnabled d m a bs) = true := by
  induction bs generalizing m a with
  | nil => exact hm
  | cons b r ih =>
    cases b with
    | none => exact ih (a + 1) hm
    | some b => exact ih (a + 1) (writeCell_wf a b hm)

/-- Every memory operation of the stages, the host and the control cores keeps DRAM in canonical form. -/
theorem dramPut_wf (a : Nat) (bs : List Byte) (s : State) (hs : Memory.wf (dramDflt s) s.dram.cells = true) :
    Memory.wf (dramDflt (dramPut a bs s)) (dramPut a bs s).dram.cells = true := writeCells_wf a bs hs

theorem dramWrite_wf (a : Nat) (bs : List Byte) (s : State) (hs : Memory.wf (dramDflt s) s.dram.cells = true) :
    Memory.wf (dramDflt (dramWrite a bs s)) (dramWrite a bs s).dram.cells = true := by
  unfold dramWrite
  split
  · exact dramPut_wf a bs s hs
  · exact hs

theorem stageWrite_wf (a : Nat) (bs : List Byte) (s : State) (hs : Memory.wf (dramDflt s) s.dram.cells = true) :
    Memory.wf (dramDflt (stageWrite a bs s)) (stageWrite a bs s).dram.cells = true := by
  unfold stageWrite
  split
  · exact writeCells_wf a bs hs
  · exact hs

/-- Memory whose content has become undefined lists nothing. -/
theorem nil_wf (d : Nat → Byte) : Memory.wf d [] = true := rfl

/-- A byte below every listed cell reads as an unlisted one. -/
theorem readCell_below {d : Nat → Byte} {m : List Host.Cell} {a lo : Nat} (ha : a ≤ lo)
    (hm : cellsAbove d (some lo) m = true) : readCell d m a = d a := by
  cases m with
  | nil => rfl
  | cons c r =>
    obtain ⟨k, b⟩ := c
    have h : lo < k := ((cellsAbove_cons d (some lo) k b r).1 hm).1
    have : a < k := by omega
    simp [readCell, this]

/-- A byte written reads back, and every other byte reads as before. -/
theorem readCell_writeCell {d : Nat → Byte} {lo : Option Nat} {m : List Host.Cell} (a c : Nat) (b : Byte)
    (hm : cellsAbove d lo m = true) :
    readCell d (writeCell d m a b) c = if c = a then b else readCell d m c := by
  induction m generalizing lo with
  | nil =>
    unfold writeCell
    split <;> simp only [readCell]
    · split <;> simp_all
    · split
      · split
        · omega
        · rfl
      · rfl
  | cons x r ih =>
    obtain ⟨k, y⟩ := x
    have h := (cellsAbove_cons d lo k y r).1 hm
    unfold writeCell
    by_cases h1 : a < k
    · rw [if_pos h1]
      by_cases hc : c = a
      · subst hc
        by_cases h2 : b = d c
        · simp [h2, readCell, h1]
        · simp [h2, readCell]
      · by_cases h2 : b = d a
        · simp [h2, hc]
        · simp only [h2, if_false, hc, readCell]
          split
          · rename_i h3
            have : c < k := by omega
            simp [this]
          · rfl
    · rw [if_neg h1]
      by_cases h2 : a = k
      · subst h2
        rw [if_pos rfl]
        by_cases hc : c = a
        · subst hc
          by_cases h3 : b = d c
          · simp only [h3, if_true]
            rw [readCell_below (Nat.le_refl c) h.2.2]
          · simp [h3, readCell]
        · by_cases h3 : b = d a
          · simp only [h3, if_true, hc, if_false, readCell]
            split
            · rename_i h4
              exact readCell_below (Nat.le_of_lt h4) h.2.2
            · rfl
          · simp [h3, readCell, hc]
      · rw [if_neg h2]
        simp only [readCell]
        by_cases h3 : c < k
        · have : c ≠ a := by omega
          simp [h3, this]
        · by_cases h4 : c = k
          · have : k ≠ a := fun e => h2 e.symm
            simp [h4, this]
          · simp only [h3, h4, if_false]
            exact ih h.2.2

end Sys2Proof.Laws
end

