-- ==== Sys2Proof/WellFormed.lean ====
section
/-! DEFINITION. Which terms of Instr stand for a command or event that can reach the block: lists as long as the manual's
transfer, and parameters within the bounds that a packet is held to before it is taken in (13 R304, R305). -/
namespace Sys2Proof

/-- The 64 words of a packet (13 R304). -/
def packetOk (ws : List Word) : Bool := ws.length = 64

/-- A count of words that one command reads (13 R314, R315). -/
def countOk (n : Word) : Bool := decide (1 ≤ n.toNat) && decide (n.toNat ≤ 59)

/-- The words that one command writes after its address (13 R314, R316). -/
def valuesOk (vs : List Word) : Bool := decide (1 ≤ vs.length) && decide (vs.length ≤ 61)

/-- A word offset of at most `size` bytes (13 R314, R316). -/
def offsetOk (ofs : Word) (bytes size : Nat) : Bool := ofs.toNat % 4 = 0 && decide (ofs.toNat + bytes ≤ size)

/-- A DRAM base or length of whole lines (13 R318, R320; 11 R276). -/
def lineOk (a : BitVec 64) : Bool := a.toNat % 64 = 0

/-- A table word of R318: a tile and one of its five tables, or a writable buffer. -/
def tableOk (w : Word) : Bool :=
  let tile := w.toNat % 256
  let kind := w.toNat / 256 % 256
  let buf := w.toNat / 65536
  if kind = 5 then tile = 255 && decide (3 ≤ buf) && decide (buf ≤ 63)
  else decide (kind ≤ 4) && decide (tile ≤ 63) && buf = 0

/-- The regions of a replay (13 R320). -/
def replayOk (raw stride side : BitVec 64) (n : Word) : Bool :=
  lineOk raw && lineOk stride && decide (203423744 ≤ stride.toNat) && side.toNat % 4096 = 0 && decide (1 ≤ n.toNat)
    && decide (n.toNat ≤ 65536)

/-- A mask of tiles, channels or classes that names one. -/
def maskOk {n : Nat} (m : BitVec n) : Bool := m ≠ 0

/-- The operands of MEM_TRAIN (11 R274). -/
def trainOk (mode : BitVec 2) (mask : BitVec 8) (eyeMin : BitVec 7) (mts : Word) : Bool :=
  mode ≠ 3 && maskOk mask && decide (eyeMin.toNat ≤ 63)
    && (mode ≠ 0 || [0, 6400, 7467, 8533, 9600, 10667].contains mts.toNat)

/-- The operands of MEM_DIAG (11 R276). -/
def diagOk (mode pattern : BitVec 2) (passes mask : BitVec 8) (start length : BitVec 64) : Bool :=
  mode ≠ 3 && pattern ≠ 3 && maskOk mask && passes ≠ 0 && lineOk start && lineOk length && length ≠ 0

/-- What one channel showed: 24 read and 24 write lanes (11 R267). -/
def resultOk (r : ChannelResult) : Bool := r.rd.length = 24 && r.wr.length = 24

/-- What a full training may need: eight channels at each of five attempts (11 R270). -/
def attemptsOk (l : List (List ChannelResult)) : Bool :=
  l.length = 5 && l.all fun rs => rs.length = 8 && rs.all resultOk

/-- The check of a message: of invalid characters there is at least one (15 R348). -/
def lineCheckOk : LineCheck → Bool
  | .crc _ => true
  | .badChars n => decide (1 ≤ n)

/-- A failed line names the bit errors of 24 lanes (11 R279). -/
def failOk (f : LineFail) : Bool := f.errs.length = 24

/-- A request is for one line, with 64 byte enables when it writes; it has not waited before it arrives (10 R245). -/
def requestOk (r : MemReq) : Bool :=
  !r.waited && (match r.data with | some d => d.length = 64 | none => true)

/-- Bytes of the keeping array that one command reaches (18 R406). -/
def keepRangeOk (a n : Word) (most : Nat) : Bool :=
  decide (1 ≤ n.toNat) && decide (n.toNat ≤ most) && decide (a.toNat + n.toNat ≤ 524288)

/-- A write of the keeping array stays within one page, with its data in as few words as hold it (18 R406). -/
def keepWriteOk (a n : Word) (d : List Word) : Bool :=
  keepRangeOk a n 128 && decide (a.toNat % 128 + n.toNat ≤ 128) && d.length = (n.toNat + 3) / 4

/-- A ring of the keeping store (18 R404). -/
def ringOk (r : BitVec 8) : Bool := decide (r.toNat ≤ 79)

/-- A payload that its ring takes (18 R404, R406). -/
def payloadOk (r : BitVec 8) (ws : List Word) : Bool :=
  ringOk r && decide (1 ≤ ws.length) && decide (ws.length ≤ if r.toNat ≤ 67 then 58 else 26)

/-- A BAR2 access moves at least a byte and at most the largest request of R280; a write gives each of its bytes. -/
def bar2Ok (w : Option (List (Option Byte))) (len : Nat) : Bool :=
  decide (1 ≤ len) && decide (len ≤ 4096) && (match w with | some l => l.length = len && decide (len ≤ 512) | none => true)

/-- The samples of one row (05 R145): 512 codes of each tap, and late words among the 1,024 tap pixels. -/
def rowOk (a b : List (BitVec 16)) (late : List Nat) : Bool :=
  a.length = 512 && b.length = 512 && late.all fun p => decide (p < 1024)

/-- The samples of a blanking interval (04 R120): 64 of each reference on each tap, 256 of the thermistor or none, and the
four points of 16 samples when a tap is weighed. -/
def blankingOk (la ha lb hb th : List (BitVec 16)) (points : List (List (BitVec 16))) : Bool :=
  la.length = 64 && ha.length = 64 && lb.length = 64 && hb.length = 64 && (th.length = 256 || th.length = 0)
    && (points.length = 0 || (points.length = 4 && points.all fun l => l.length = 16))

/-- The sense codes of the sixteen groups (07 R174). -/
def senseOk (codes : List (BitVec 12)) : Bool := codes.length = 16

/-- A sum of 512 codes of 14 bits (16 R366). -/
def sumOk (n : Nat) : Bool := decide (n ≤ 512 * 16383)

/-- A frame of at most sixteen data words for the serial target (17 R385). -/
def frameOk (ws : List Word) : Bool := decide (ws.length ≤ 16)

/-- An image header (20 R439). -/
def headerOk (l : List Byte) : Bool := l.length = 256

/-- The command or event is one that can reach the block. -/
def Instr.wellFormed : Instr → Bool
  | .packetArrival _ ws => packetOk ws
  | .caravanFetchDone ok ws => !ok || packetOk ws
  | .readRegs _ a n => a.toNat % 4 = 0 && countOk n
  | .writeRegs _ a vs => a.toNat % 4 = 0 && valuesOk vs
  | .readMap _ ofs n => ofs.toNat % 4 = 0 && countOk n
  | .writeCfg _ ofs vs => valuesOk vs && offsetOk ofs (4 * vs.length) 8388608
  | .commitShadow _ bytes _ => bytes.toNat % 4 = 0 && decide (64 ≤ bytes.toNat) && decide (bytes.toNat ≤ 8388608)
  | .tableLoad _ w base _ => tableOk w && lineOk base
  | .tableSave _ w dest _ => tableOk w && lineOk dest
  | .tableSaveCopyEnd w _ => tableOk w
  | .replay _ raw stride side n _ => replayOk raw stride side n
  | .shutterCal _ m => maskOk m
  | .shutterMove _ m _ => maskOk m
  | .dacLincal _ _ a b => a || b
  | .blendSet _ m k => maskOk m && decide (1 ≤ k.toNat) && decide (k.toNat ≤ 64)
  | .memTrain _ mode mask eye mts _ => trainOk mode mask eye mts
  | .memTrainEnd a b l => attemptsOk (a :: b :: l)
  | .memDiag _ mode p _ passes mask a n _ => diagOk mode p passes mask a n
  | .memDiagEnd fs _ => fs.all failOk
  | .keepRead _ a n => keepRangeOk a n 236
  | .keepWrite _ a n d => keepWriteOk a n d
  | .keepRingAppend _ r ws => payloadOk r ws
  | .keepRingRead _ r _ => ringOk r
  | .errAck _ m => maskOk m
  | .bar2Access _ w len _ => bar2Ok w len
  | .memAccessIssue l hits => l.all requestOk && decide (hits.length ≤ 8)
  | .incrSweepEnd _ rd wr => rd.length = 24 && wr.length = 24
  | .laneRow _ a b _ _ _ late _ _ => rowOk a b late
  | .blankingWorkEnd _ la ha lb hb th ps => blankingOk la ha lb hb th ps
  | .senseSample codes => senseOk codes
  | .hkSelfcalEnd a b c d => sumOk a && sumOk b && sumOk c && sumOk d
  | .sptWrite _ ws _ => frameOk ws
  | .firmwareCheckEnd l _ _ => headerOk l
  | .tickMessage _ line _ _ _ _ _ => lineCheckOk line
  | .dlyRsp _ line _ _ => lineCheckOk line
  | .idSet line _ _ => lineCheckOk line
  | .tick | .engineStopPoint | .quietWindowOpen | .quietWindowClose | .replayEnd | .shadowLockEnd | .caravanFetch
  | .replyPost | .msiXMessage _ | .enableSet | .enableClear | .cmdqTailWrite _ | .cmdqRplConsWrite _ | .mboxGo _
  | .mboxNext _ | .nop _ | .setTime _ _ | .commitChecksEnd _ | .swapConfig _ | .cfgStatus _ | .start _ | .stop _
  | .tableLoadCheckEnd _ | .holdFreeze _ _ | .holdFrozen | .holdRelease _ _ | .hkSelfcal _ | .memResume _ _
  | .keepProtect _ _ | .keepScrub _ | .keepScrubEnd | .keepPageWriteStart _ | .keepPageWriteEnd | .keepVkeepRetry _
  | .keepSettlement | .keepRingIndexBuilt | .counterAppendTimer | .syncJoin _ _ | .syncStatus _
  | .syncAssignId _ _ _ | .powerState _ _ | .lowReached | .lowExitDone | .resetBlock _ _ _ | .registerWrite _ _ _
  | .bar0UnimplementedAccess _ _ _ | .shadowWindowWrite _ _ _ | .tickParkPeriodWrite _ | .memcHashWrite _ _
  | .errCapValidWrite _ | .hostStrConsWrite _ _ | .hostStrConsCurWrite _ _ _ | .firmwareWindowWrite _ _ | .fwGo
  | .configSpaceWrite _ | .linkUp _ _ | .linkDown | .hotReset | .linkDisable | .functionLevelReset | .flrComplete
  | .linkChange _ _ | .deliveryStart _ | .deliveryEnd _ _ | .holdPart _ | .dramCaparError _ | .refreshDue _ _ _
  | .refreshIssue _ _ _ _ _ | .dramTempRead _ _ _ | .incrSweepStart _ | .pllUnlock _ | .crossing _ | .vddaMeasure _
  | .qtempMeasure _ | .brefRampEnd _ | .brefRampDownEnd _ | .tcfgTransactionStart _ _ | .tcfgTransactionEnd _ _
  | .prepareEnd _ | .prepTimeout _ | .tcfgHostGo _ _ | .unmask _ | .cbOvc _ | .brefFault _ | .laneFrameEnd _ _
  | .laneDeadline _ | .calDue _ | .abandonHoldoffEnd _ | .calStart _ | .closeUnconfirmed _ | .accumEnd _
  | .computeEnd _ | .openUnconfirmed _ | .traverseEnd _ | .pullinStart _ | .pullinEnd _ | .openCoil _ | .noMove _
  | .releaseEnd _ | .gapEnd _ | .shutFaultClr _ _ | .slotStart _ | .operatorEnd _ _ _ | .slotEnd _
  | .hkEntryDelayEnd _ | .hkEntryEnd _ _ | .hkInjectedEnd _ _ | .hkPassEnd | .trig | .selfcal | .hkSelfcalStart
  | .syncRxUp _ | .syncRxDown _ | .tickMessageSend | .missedTick | .dlyReqSend _
  | .dlyReq _ _ _ | .idDone _ _ _ | .assignTimeout | .spcGo _ _ _ | .spcAbort
  | .spcPop | .spcTxdataWrite _ | .spcWordEnd _ | .spcResume | .sptRead _ | .sptFetch _ | .perstAssert
  | .resetNAssert | .brownout | .supplyLoss _ | .resetRelease _ | .pllLock _ | .cfgParityError _ | .endpointReady
  | .sptBadFrame _ => true

end Sys2Proof
end

