-- ==== Sys2Proof/Tests/Slice0.lean ====
section
/-! SUPPORT. The model's own tests: terms that WellFormed refuses, a state and operands that meet the hypotheses of each
statement, clause by clause, and single steps on small states with results worked out from the manual. -/
namespace Sys2Proof.Tests

open Sys2Proof Sys2Proof.Machine

/-! ### States to start from -/

/-- What a command keeps of its packet. -/
def header : Hdr := { path := .caravan, tag := 7, sfn := 1 }

/-- A bank whose numbers lie at the offsets given, each with its size in bytes. -/
def bankOf (l : List (Nat × Nat × Nat)) : Bank := l.foldl (fun b p => writeCells zeroByte b p.1 (leBytes p.2.1 p.2.2)) []

/-- PARKED, the firmware ready, the memory trained. -/
def parked : State :=
  { State.reset with
    dev := { State.reset.dev with power := .parked, phase := .ready, released := true }
    memc := { State.reset.memc with trained := true }
    tick := { State.reset.tick with running := true, flags := [0, 0, 0], frames := [none, none, none],
                                    stamps := [(0, 0), (0, 0), (0, 0)] } }

/-- PARKED under a set. -/
def withSet (l : List (Nat × Nat × Nat)) : State :=
  { parked with cfg := { parked.cfg with active := bankOf l, hasActive := true, n := 2 } }

/-- IMAGING under a set. -/
def imagingWith (l : List (Nat × Nat × Nat)) : State :=
  { withSet l with
    dev := { parked.dev with power := .imaging }
    tick := { parked.tick with imaging := true, frames := [some 0, some 1, some 2] } }

def frozen : State :=
  { withSet [] with
    dev := { parked.dev with power := .frozen }, memc := { parked.memc with frozen := true }
    memch := Vector.replicate 8 { Memch.reset with trained := true }
    err := { parked.err with frozenCause := 1 } }

def inLow : State :=
  { parked with dev := { parked.dev with power := .low, transition := some header }, memc := { parked.memc with selfRefresh := true } }

/-- The host link is up and the device may issue requests. -/
def linked (s : State) : State :=
  { s with host := { s.host with linkUp := true, bme := true, mse := true, cfgReady := true } }

def withTile (t : Nat) (f : Tile → Tile) (s : State) : State := modTile t f s

/-! ### The hypotheses of the statements can be met: the block as a whole, the tick -/

theorem witness_IdleStepCounts : (State.reset.pending = [] ∧ State.reset.tick.running = false) ∧
    (withSet []).pending = [] ∧ (withSet []).tick.running = true ∧ activeSet (withSet []) = some [] ∧
    (withSet []).memc.reqs = [] := by decide

theorem witness_StepKeeps : Memory.wf erasedByte parked.keep.array = true ∧ Memory.wf zeroByte parked.cfg.active = true ∧
    Memory.wf zeroByte parked.cfg.shadow = true ∧ Memory.wf zeroByte parked.dev.fwWindow = true ∧
    Memory.wf (dramDflt parked) parked.dram.cells = true ∧ step parked = .next (clockTick parked) :=
  ⟨by decide, by decide, by decide, by decide, by decide, rfl⟩

/-- A command that changes neither the keeping array nor the active bank. -/
theorem witness_ChangesOnly : ∃ t, exec .trig parked = .next t ∧ Instr.trig ≠ .keepPageWriteEnd ∧
    Instr.trig ≠ .keepSettlement ∧ (∀ k, Instr.trig ≠ .supplyLoss k) ∧ (∀ h, Instr.trig ≠ .swapConfig h) ∧
    (Instr.trig = .tick → ∀ q ∈ parked.tick.queue, q.opcode ≠ 0x12) :=
  ⟨_, rfl, by decide, by decide, nofun, nofun, nofun⟩

/-- A request for the first line above the installed capacity, and one for the last below it. -/
theorem witness_OnlyOutsideLinesStop : capacity parked ≤ 64 * 536870912 ∧ 64 * 536870911 < capacity parked := by decide

theorem witness_TickCarriesNextSfn : State.reset.tick.running = false ∧ parked.tick.running = true ∧
    parked.sync.adopt = none ∧ (∀ q ∈ parked.tick.queue, q.hdr.sfn ≠ sfnNext parked.tick.sfn) := by decide

/-- A Piste with one quiet window that opens at 0. -/
def quiet : State := imagingWith [(0x20, 4, 0x400), (0x416, 1, 1), (0x424, 4, 0x40), (0x444, 4, 5000)]

theorem witness_QuietWindows : activeSet quiet = some quiet.cfg.active ∧ quiet.dev.power = .imaging ∧
    windowAt quiet.cfg.active (quiet.clock.now - quiet.clock.lastTick) = some (0, 5000) ∧ quiet.memc.reqs = [] := by decide

/-- Debts of 0, of 7 and of 1. -/
theorem witness_RefreshDebt : parked.memc.selfRefresh = false ∧ vget (chOf parked 7).debt (refIndex true true) 0 = 0 ∧
    vget (chOf (modCh 7 (fun c => { c with debt := Vector.replicate 4 7 }) parked) 7).debt (refIndex true true) 0 = 7 ∧
    vget (chOf (modCh 7 (fun c => { c with debt := Vector.replicate 4 1 }) parked) 7).debt (refIndex true true) 0 = 1 ∧
    parked.memc.reqs = [] ∧ parked.memc.frozen = false ∧
    remaining (chOf parked 7) (refIndex true true) &&& ~~~(0x7FFF ||| 0) ≠ 0 ∧
    remaining (chOf parked 7) (refIndex true true) &&& ~~~(0x7FFF ||| 0x8000) = 0 := by decide

/-! ### Packets, the Caravan and the mailboxes -/

/-- A NOP for the next tick, and one for a frame to come. -/
def nopNow : List Word := [0, 0xFFFFFFFF] ++ List.replicate 62 0
def nopAt5 : List Word := [0, 5] ++ List.replicate 62 0
def queued (n : Nat) : State :=
  { parked with tick := { parked.tick with queue := List.replicate n { hdr := header, opcode := 0, params := [], acc := 0 } } }

/-- A TABLE_LOAD whose region of no bytes has the CRC it names. -/
def loadCheck (e : Word) : LoadCheck :=
  { q := { hdr := header, opcode := 0x22, params := [0, 0, 0, 1, 0], acc := 0 }, eff := e, region := (0, 0) }
/-- One word read that could be corrected. -/
def corrected : List (Nat × EccHit) := [(0, { word := 7, syndrome := 1, correctable := true })]

theorem witness_MemoryIdle : MemoryIdle parked ∧ Correctable corrected := by
  unfold MemoryIdle Correctable; decide

set_option maxRecDepth 4000 in
theorem witness_AtOnceFrameResolved : (queued 255).tick.queue.length < 256 ∧ (queued 255).dev.phase = .ready ∧
    (queued 255).dev.power ≠ .off ∧ packetFault (packetLen nopNow) (packetOp nopNow) (packetPars nopNow) = none ∧
    packetOp nopNow ≠ 0x22 ∧ packetEff nopNow = 0xFFFFFFFF ∧ (loadCheck 0xFFFFFFFF).eff = 0xFFFFFFFF ∧
    (queued 255).memc.reqs = [] ∧ crc32 (dramRead parked (loadCheck 5).region.1 (loadCheck 5).region.2) = (loadCheck 5).q.params.getD 4 0 := by decide

set_option maxRecDepth 4000 in
theorem witness_FullQueueRejects : 256 ≤ (queued 256).tick.queue.length ∧ (queued 256).dev.phase = .ready ∧
    (queued 256).dev.power ≠ .off ∧ packetFault (packetLen nopAt5) (packetOp nopAt5) (packetPars nopAt5) = none ∧
    packetOp nopAt5 ≠ 0x22 ∧ resolveFrame (queued 256) (packetEff nopAt5) = some 5 ∧
    resolveFrame (queued 256) (loadCheck 5).eff = some 5 := by decide

/-- The Caravan enabled on rings of sixteen entries, one command waiting and one reply part held. -/
def part : ReplyPart := { hdr := header, opcode := 0, status := 0, part := 0, last := true, words := [] }
def caravan : State :=
  { linked parked with cmdq := { parked.cmdq with enable := true, ringSize := 16, rplSize := 16, tail := 1, held := [part] } }
def fetching : State := { caravan with cmdq := { caravan.cmdq with fetching := true } }
def badOp : List Word := [0xFF, 0] ++ List.replicate 62 0

theorem witness_CaravanFetches : caravan.dev.phase = .ready ∧ caravan.cmdq.enable = true ∧ canIssue caravan = true ∧
    caravan.cmdq.tail ≠ caravan.cmdq.head ∧ caravan.cmdq.held.length < 64 ∧ caravan.cmdq.fetching = false ∧
    fetching.cmdq.fetching = true ∧ fetching.dev.phase = .ready ∧ fetching.dev.power ≠ .off ∧ packetLen badOp ≤ 62 ∧
    opcodeRow (packetOp badOp) = none ∧ fetching.tick.queue.length < 256 := by decide

/-- TAIL may move by the ring's size and no further, CONS up to PROD and no further. -/
theorem witness_CaravanPointers : caravan.host.flr = false ∧ ((16 : Word) - caravan.cmdq.head).toNat ≤ caravan.cmdq.ringSize.toNat ∧
    caravan.cmdq.ringSize.toNat < ((17 : Word) - caravan.cmdq.head).toNat ∧
    ((0 : Word) - caravan.cmdq.rplCons).toNat ≤ (caravan.cmdq.rplProd - caravan.cmdq.rplCons).toNat ∧
    (caravan.cmdq.rplProd - caravan.cmdq.rplCons).toNat < ((1 : Word) - caravan.cmdq.rplCons).toNat := by decide

theorem witness_CaravanEnable : parked.cmdq.enable = false ∧ caravanGood parked.cmdq = false ∧
    ({ parked.cmdq with ringSize := 4096, rplSize := 16 } : Cmdq).enable = false ∧ caravanGood { parked.cmdq with ringSize := 4096, rplSize := 16 } = true := by decide

theorem witness_ReplyPosted : caravan.cmdq.held = part :: [] ∧ replyRoom caravan = true := by decide

/-- The management mailbox: a NOP for the next tick, the same while BUSY, and a reply of two parts. -/
def mailbox (busy : Bool) : State :=
  { parked with cmdq := { parked.cmdq with spt := { Mbox.reset with
      cmd := vset Mbox.reset.cmd 1 0xFFFFFFFF, busy, parts := [part, part] } } }

theorem witness_MailboxSteps : (mailbox false).dev.phase = .ready ∧ (mailbox false).dev.power ≠ .off ∧
    (mboxOf (mailbox false) true).busy = false ∧ (mailbox false).tick.queue.length < 256 ∧
    packetOp (mboxOf (mailbox false) true).cmd.toList = 0 ∧ packetLen (mboxOf (mailbox false) true).cmd.toList = 0 ∧
    packetEff (mboxOf (mailbox false) true).cmd.toList = 0xFFFFFFFF ∧ (mboxOf (mailbox true) true).busy = true ∧
    (mboxOf (mailbox true) true).parts = part :: [part] := by decide

theorem witness_ReplyOnMailbox : parked.cmdq.spt.parts = [] ∧ (stOk = stOk ∨ stOk = stTruncated) := by decide

/-- Vector 255 pending with its table entry unmasked. -/
def vectorDue : State :=
  { linked parked with host := { (linked parked).host with msixEn := true, pba := setBit 0 255, msixTable := [(1023, 0)] } }

theorem witness_PendingVectorSent : vectorDue.host.pba.getLsbD 255 = true ∧ msixBlocked 255 parked = true := by
  decide +kernel

/-! ### Commands at their tick, configuration sets, START, STOP, replay -/

theorem witness_ImmediateCommandsReply : parked.dev.power ≠ .off ∧ (1 : Word).toNat ≤ (mapBytes - 0) / 4 ∧
    (1 : Word).toNat ≤ wordsLeft 0x13000 := by decide

/-- A committed set, and the bank locked after a swap. -/
def committed : State := { parked with cfg := { parked.cfg with committed := true } }
def locked (n : Nat) : State := { withSet [] with cfg := { (withSet []).cfg with locked := true, n } }
def commit : Commit :=
  { hdr := header, bytes := 64, crc := 0, against := 0, changed := false, trained := true, mts := 6400, rate := 0 }
def checking (c : Commit) : State := { parked with cfg := { parked.cfg with commit := some c } }

theorem witness_ShadowLocked : (locked 0).host.flr = false ∧ (committed.dev.power ≠ .off ∧ committed.cfg.commit = none ∧ swapRefused committed = false) ∧
    ((locked 0).cfg.locked = true ∧ (locked 0).dev.power ≠ .off ∧ (0x7FFFFC : Word).toNat < 0x800000) ∧
    2 ≤ (locked 2).cfg.n ∧ (locked 1).cfg.n < 2 := by decide

theorem witness_ShadowWritten : parked.cfg.locked = false ∧ parked.dev.power ≠ .off ∧ (0x7FFFFC : Word).toNat < 0x800000 ∧
    parked.host.flr = false := by decide

theorem witness_CommitChecked : (parked.cfg.locked = false ∧ parked.dev.power ≠ .off ∧ parked.cfg.commit = none) ∧
    (checking { commit with changed := true }).cfg.commit = some { commit with changed := true } ∧
    (checking { commit with trained := false }).cfg.commit = some { commit with trained := false } ∧
    (checking commit).cfg.commit = some commit ∧ commit.trained = true ∧ commit.changed = false ∧
    crc32 (readCells zeroByte (checking commit).cfg.shadow 0 4) ≠ 0 := by decide +kernel

theorem witness_SwapExchangesBanks : (committed.dev.power ≠ .off ∧ committed.cfg.commit = none ∧ committed.cfg.committed = true ∧
      committed.cfg.committedAgainst = committed.cfg.generation ∧ committed.hold.state = .none) ∧
    (checking commit).cfg.commit = some commit ∧ (checking commit).dev.power ≠ .off ∧
    (parked.cfg.commit = none ∧ parked.cfg.committed = false) ∧
    ({ committed.cfg with committedAgainst := committed.cfg.generation + 1 } : CfgBanks).committedAgainst
      ≠ committed.cfg.generation := by decide

/-- A READY port, and an IMAGING one. -/
def readyPort : State := withTile 63 (fun x => { x with port := { x.port with state := .ready } }) (withSet [])
def imagingPort : State := withTile 63 (fun x => { x with port := { x.port with state := .imaging } }) (imagingWith [])

theorem witness_StartImages : readyPort.cfg.hasActive = true ∧ readyPort.tick.imaging = false ∧ readyPort.dev.power = .parked ∧
    (tileOf readyPort 63).port.state = .ready := by decide

theorem witness_StopParks : imagingPort.dev.power = .imaging ∧ imagingPort.tick.imaging = true ∧
    (tileOf imagingPort 63).port.state = .imaging := by decide

theorem witness_RefusedCommands : inLow.dev.power = .low ∧ inLow.tick.imaging = false ∧ parked.dev.power = .parked ∧
    parked.cfg.hasActive = false ∧ parked.tick.imaging = false := by decide

/-- A set with the replay charge; regions that end at the installed capacity. -/
def replayable : State := imagingWith [(0x10, 4, 1)]
def source : ReplaySrc :=
  { hdr := header, rawBase := 0, rawStride := 203423744, sideBase := 0, n := 1, loop := false, at_ := 0, played := 1,
    badMagic := 0, firstSfn := 0, side := [] }

theorem witness_ReplayStarts : replayable.dev.power = .imaging ∧ replayable.tick.imaging = true ∧ replayable.replay = none ∧
    replayable.memc.reqs = [] ∧
    activeSet replayable = some replayable.cfg.active ∧ Bank.replayCharge replayable.cfg.active = true ∧
    (34359738368 - 203423744 : BitVec 64).toNat + ((1 : Word).toNat - 1) * (0 : BitVec 64).toNat + 203423744 ≤ capacity replayable ∧
    (0 : BitVec 64).toNat + 4096 * (1 : Word).toNat ≤ capacity replayable := by decide

theorem witness_ReplayEnds : ({ parked with replay := some source } : State).replay = some source ∧
    source.n ≤ source.at_ + 1 ∧ source.loop = false ∧
    ({ source with n := 2 } : ReplaySrc).at_ + 1 < ({ source with n := 2 } : ReplaySrc).n := by decide


/-! ### Tables, the hold buffer, training and diagnosis, the memory controller, BAR2 -/

/-- Tile 63 enabled; its CB and G tables have rows of 4,096 bytes. -/
def tableSet : State :=
  withSet ([(0x28, 4, 0x1000), (0x30, 4, 0x10000), (0x8E00, 1, 1), (0x11FA8, 4, 4096), (0x11FB0, 4, 4096)]
    ++ [0x38, 0x40, 0x60, 0x70, 0x78, 0x80].map fun o => (o, 4, 0x700000))

/-- The G table of tile 63, and its CB table; the lowest region that a table may take is the first above the 64 MiB kept. -/
theorem witness_TableLoaded : tableSet.dev.power = .parked ∧ activeSet tableSet = some tableSet.cfg.active ∧
    twKind 0x23F = 2 ∧ noTable tableSet.cfg.active 0x23F = false ∧ tableBarred tableSet tableSet.cfg.active 0x23F true = false ∧
    badRegion tableSet ((regionsInUse tableSet).filter fun r => !ownRegion 0x23F r) (67108864 : BitVec 64).toNat
      (saveBytes tableSet.cfg.active 0x23F) = false ∧ saveBytes tableSet.cfg.active 0x23F = 3178496 := by
  decide +kernel

/-- A check whose region has another CRC than the command names. -/
def badCheck : LoadCheck := { loadCheck 5 with q := { (loadCheck 5).q with params := [0, 0, 0, 1, 1] } }

theorem witness_TableLoadCheckEnd : crc32 (dramRead parked badCheck.region.1 badCheck.region.2) ≠ badCheck.q.params.getD 4 0 ∧
    crc32 (dramRead parked (loadCheck 5).region.1 (loadCheck 5).region.2) = (loadCheck 5).q.params.getD 4 0 ∧
    resolveFrame parked (loadCheck 5).eff = some 5 ∧ parked.tick.queue.length < 256 := by decide

def save : Save :=
  { hdr := header, at_ := 0, table := 0x23F, base := 0, dest := 67108864, bytes := 3178496, copy := true, crc := false }
def saving : State := { tableSet with cfg := { tableSet.cfg with saves := [save] } }
/-- The save of a CB table that the lane of tile 63 makes; its frame has ended, with an overrun or without. -/
def laneSave : Save := { save with table := 0x03F, copy := false }
def laneSaving (overrun : Bool) : State :=
  let s := withTile 63 (fun x => { x with lane := { x.lane with work := { x.lane.work with
    mode := .read, done := true, overrun } } }) tableSet
  { s with cfg := { s.cfg with saves := [laneSave] } }

theorem witness_TableSaved : (tableSet.dev.power = .parked ∧ twKind 0x03F = 0 ∧ noTable tableSet.cfg.active 0x03F = false ∧
    badRegion tableSet (regionsInUse tableSet) (67108864 : BitVec 64).toNat (saveBytes tableSet.cfg.active 0x03F) = false ∧
    badRegion tableSet (regionsInUse tableSet) (67108864 : BitVec 64).toNat (saveBytes tableSet.cfg.active 0x23F) = false) ∧
    tableBarred tableSet tableSet.cfg.active 0x03F false = false ∧ tableBarred tableSet tableSet.cfg.active 0x23F false = false ∧
    (saving.cfg.saves.find? (fun x => x.table = 0x23F) = some save ∧ save.copy = true ∧ saving.err.freezeNext ≠ 1) ∧
    (let s := laneSaving false
     s.cfg.saves.find? (fun x => x.table = 0x03F) = some laneSave ∧ laneSave.copy = false ∧ twKind 0x03F ≠ 5 ∧
       twTile 0x03F = 63 ∧ (tileOf s 63).lane.work.mode = .read ∧ (tileOf s 63).lane.work.done = true ∧
       (tileOf s 63).lane.work.overrun = false ∧ s.tick.crossLanes.getLsbD 63 = false) ∧
    (tileOf (laneSaving true) 63).lane.work.overrun = true ∧ MemoryIdle (laneSaving true) := by
  unfold MemoryIdle; decide +kernel

def holding (st : HoldState) : State := { withSet [] with hold := { Hold.reset with state := st } }

/-- E + 2 is the present frame, and one frame later. -/
theorem witness_HoldRecordFrozen : activeSet (holding .recording) = some [] ∧ (holding .recording).hold.state = .recording ∧
    (0xFFFFFFFE : Word) ≠ 0xFFFFFFFF ∧
    sfnBefore 2 (sfnAdd (holding .pending).hold.endSfn 2) = false ∧ sfnBefore 1 (sfnAdd (holding .pending).hold.endSfn 2) = true ∧
    (holding .frozen).hold.state = .frozen ∧ (holding .frozen).hold.delivering = false := by decide

theorem witness_FullTrainingStarts : (0xFF : BitVec 8) ≠ 0 ∧ parked.dev.power = .parked ∧ parked.cfg.hasActive = false ∧ chBusy parked 0xFF = false ∧
    parked.hold.state = .none ∧ parked.hold.waiting = [] ∧ (0xFF : BitVec 8).getLsbD 7 = true := by decide

def trainRun (full : Bool) : TrainRun :=
  { hdr := header, full, mask := 0x80, eyeMin := 16, left := 0x80, rate := 6400, steps := false }
def training (full : Bool) : State := { parked with memc := { parked.memc with train := [trainRun full] } }
/-- Every point of every lane passes. -/
def channelResult : ChannelResult :=
  { rd := List.replicate 24 (-1), wr := List.replicate 24 (-1), ca := -1, array := -1 }

theorem witness_FullTrainingEnds : (training true).dev.phase = .ready ∧
    (training true).memc.train.find? (fun x => x.full) = some (trainRun true) ∧ (trainRun true).mask.getLsbD 7 = true ∧
    chPasses channelResult = true ∧ chPasses { channelResult with array := 1 } = false ∧
    ({ parked with dev := { parked.dev with phase := .train } } : State).dev.phase = .train := by decide

def trained : State := { parked with memch := Vector.replicate 8 { Memch.reset with trained := true } }
def fill : DiagRun :=
  { hdr := header, mode := 2, pattern := 0, invertAlt := false, passes := 1, mask := 0xFF, start := 0, length := 64, seed := 5 }

theorem witness_DiagnosisRuns : trained.dev.power = .parked ∧ chUntrained trained 0xFF = false ∧ chBusy trained 0xFF = false ∧
    (0 : BitVec 64).toNat + (34359738368 : BitVec 64).toNat ≤ capacity trained ∧
    ({ trained with memc := { trained.memc with diag := [fill] } } : State).memc.diag = fill :: [] ∧ fill.mode = 2 := by decide

theorem witness_MemoryResumes : frozen.dev.power = .frozen ∧ frozen.memc.frozen = true ∧ frozen.err.frozenCause = 1 ∧
    (∀ n : Fin 8, (chOf frozen n.val).trained = true) ∧ frozen.memc.train = [] ∧ frozen.memc.diag = [] ∧
    frozen.hold.indexDue = [] ∧ activeSet frozen = some [] ∧ parked.err.freezeNext = 0 ∧ parked.memc.frozen = false := by decide

def sweeping : State := { parked with memc := { parked.memc with sweeping := some 7 } }
/-- The old centre alone passes, or no point of a lane's sweep. -/
def laneSweep : LaneSweep := 0x1000000
def deafSweep : LaneSweep := 0

theorem witness_ChannelSwept : (training false).dev.power = .parked ∧ (training false).memc.sweeping = none ∧
    incrNext (training false) = some 7 ∧ sweeping.memc.sweeping = some 7 ∧
    (∀ x ∈ List.replicate 24 laneSweep ++ List.replicate 24 laneSweep, holdsCentre x = true) ∧
    holdsCentre deafSweep = false := by
  have h : holdsCentre laneSweep = true := by decide +kernel
  refine ⟨rfl, rfl, by decide, rfl, fun x hx => ?_, by decide +kernel⟩
  simp at hx; rw [hx]; exact h

/-- A read, a write of a line and a write of one byte of the last line, on HOSTIN without a set. -/
def request (d : Option (List (Option Byte))) : MemReq := { port := 9, line := 536870911, data := d, waited := false }

theorem witness_AccessIssued : 64 * (request none).line < capacity parked ∧ parked.memc.reqs = [] ∧
    portServed parked 9 = true ∧ hasCredit parked 9 (kindOf (some (some 1 :: List.replicate 63 none))).cost = true ∧
    partialWord (some 1 :: List.replicate 63 none) = true ∧ partialWord (List.replicate 64 (some 1)) = false ∧
    parked.memc.frozen = false := by decide

/-- The mask of bank bit 0 with a row bit added to its home bit, and without its home bit. -/
theorem witness_HashMasks : parked.host.flr = false ∧ parked.memc.mapLock = false ∧ maskGood parked 0 0x4001 = true ∧
    parked.memc.hash[0] ≠ 0x4001 ∧ maskGood parked 0 1 = true ∧ parked.memc.hash[0] = 1 ∧ maskGood parked 0 0x4000 = false := by
  decide

/-- A write that ends at the installed capacity, a read of the last byte, and an access just above. -/
theorem witness_Bar2Window : (linked parked).host.flr = false ∧ (linked parked).host.mse = true ∧
    (linked parked).host.linkUp = true ∧ (linked parked).memc.trained = true ∧ (linked parked).dev.power ≠ .low ∧
    MemoryIdle (linked parked) ∧ portServed (linked parked) 9 = true ∧ unlimited (linked parked) 9 = true ∧
    34359738366 + [some (1 : Byte), none].length ≤ capacity (linked parked) ∧ (linked parked).memc.hostReads = [] ∧
    Memory.wf (dramDflt (linked parked)) (linked parked).dram.cells = true ∧ 34359738367 < capacity (linked parked) ∧
    capacity (linked parked) ≤ 34359738368 ∧ (linked frozen).memc.frozen = true ∧ (linked frozen).memc.trained = true := by
  unfold MemoryIdle; decide

/-! ### Calibration commands, the keeping store, Skewaost, errors, LOW and RESET_BLOCK -/

theorem witness_CalibrationCommands : imagingPort.dev.power = .imaging ∧ imagingPort.cfg.hasActive = true ∧
    (∀ n : Fin 64, (0x8000000000000000 : BitVec 64).getLsbD n.val = true →
      tileImaging imagingPort n.val = true ∧ shutterFault imagingPort n.val = 0) ∧
    tileImaging imagingPort 63 = true ∧ imagingPort.hk.calibrating = false ∧ imagingPort.hk.calRequested = false ∧
    1 ≤ (64 : Word).toNat ∧ (64 : Word).toNat ≤ 64 := by decide

/-- The coils of group 15 enabled, tile 63 READY. -/
def movable : State :=
  withTile 63 (fun x => { x with port := { x.port with state := .ready } }) (withSet [(0x48, 4, 0x800), (0x9FC, 4, 0xF0000000)])

theorem witness_ShutterMoveIssued : movable.dev.power = .parked ∧ movable.cfg.hasActive = true ∧
    (∀ n : Fin 64, (0x8000000000000000 : BitVec 64).getLsbD n.val = true →
      ((tileOf movable n.val).port.state = .ready ∨ (tileOf movable n.val).port.state = .imaging) ∧
      (tileOf movable n.val).cal.phase = .idle ∧ shutterFault movable n.val = 0 ∧ coilEn movable n.val = true) := by decide

/-- Ring 68 holds one slot, its last. -/
def ringState : State :=
  { parked with keep := { parked.keep with
      ready := true, array := writeCells erasedByte [] (slotAddr 68 15) (slotContent 68 1 0 0 [1, 2]) } }

set_option maxRecDepth 100000 in
theorem witness_KeepCommandsTaken : ringState.dev.power ≠ .off ∧ ringState.keep.queue = [] ∧ ringState.keep.current = none ∧
    ringState.keep.badGroups = [] ∧ ringState.keep.ready = true ∧
    ((validSlots (indexRing 68 (counted ringState)) 68).mergeSort fun p q => q.1 ≤ p.1)[0]? = some (1, 15) := by
  decide +kernel

def keeping (l : List KeepWork) (c : Option KeepBusy) : State :=
  { parked with keep := { parked.keep with settled := true, ready := true, queue := l, current := c } }
def pageBusy (p : Option (Nat × List Byte)) : KeepBusy :=
  { pages := [], now := p, seq := 0, slot := 0, corrected := 0, uncorrectable := 0 }
def retrying : State :=
  { keeping [.own 79 [1]] none with keep := { (keeping [.own 79 [1]] none).keep with retryWait := true } }
def scrubbing : State :=
  { keeping [.scrub header] (some (pageBusy none)) with
    keep := { (keeping [.scrub header] (some (pageBusy none))).keep with scrubbing := true } }

/-- A write of the last byte below the upper quarter that BP 0b01 protects, with VKEEP at its threshold. -/
def lastFree : State := { keeping [.write header 0x5FFFF [5]] none with
  keep := { (keeping [.write header 0x5FFFF [5]] none).keep with bp := 1 } }

theorem witness_KeepPageWritten : (lastFree.keep.queue = [.write header 0x5FFFF [5]] ∧ lastFree.keep.current = none ∧
      lastFree.keep.retryWait = false ∧ lastFree.keep.badGroups = [] ∧ 2900 ≤ (2900 : BitVec 16).toNat ∧ 0x5FFFF < 524288 ∧
      (∀ i < [(5 : Byte)].length, 0x5FFFF + i < protectedFrom lastFree.keep.bp)) ∧
    (pageBusy (some (4095, [5]))).now = some (4095, [5]) ∧ (pageBusy (some (4095, [5]))).pages = [] ∧ 4095 ≠ statusPage ∧
    (79 < 80 ∧ retrying.keep.queue = [.own 79 [1]] ∧ retrying.keep.current = none ∧ retrying.keep.retryWait = true ∧
      retrying.keep.ready = true ∧ retrying.keep.bp = 0 ∧ retrying.keep.badGroups = []) ∧
    (scrubbing.keep.queue = [.scrub header] ∧ scrubbing.keep.current = some (pageBusy none) ∧ scrubbing.keep.scrubbing = true) := by
  decide

def journal (marker good written settled ready : Bool) : State :=
  { State.reset with keep := { State.reset.keep with jMarker := marker, jGood := good, jWritten := written, settled, ready } }

theorem witness_KeepSettles : ((journal true true true false false).keep.settled = false ∧
      (journal true true true false false).keep.jMarker = true ∧ (journal true true true false false).keep.jGood = true ∧
      (journal true true true false false).keep.jStatus = false) ∧
    (journal true false true false false).keep.jGood = false ∧
    ((journal false false true false false).keep.jMarker = false ∧ (journal false false true false false).keep.jWritten = true) ∧
    ((journal false false false true false).keep.settled = true ∧ (journal false false false true false).keep.ready = false) ∧
    parked.dev.power ≠ .off ∧ parked.keep.queue = [] := by decide

def follower : State := { parked with sync := { parked.sync with
  follow := true, state := .locked, dValid := true, reqTime := some 0, tPrev := -133333336 } }

theorem witness_SyncCommands : parked.dev.power ≠ .off ∧ parked.sync.follow = false ∧ follower.sync.follow = true ∧
    parked.sync.assign = none := by decide

/-- Measurements of 0 and of 80,000, at the ends of the range. -/
def measuring : State := { follower with sync := { follower.sync with dValid := false } }

theorem witness_SyncLine : follower.sync.state = .locked ∧ follower.sync.enterNext = none ∧
    measuring.sync.reqTime = some 0 ∧ measuring.sync.dValid = false ∧ measuring.sync.meas.length < 7 ∧
    rndShr (8 - 0 - (8 : Word).toNat) 1 = 0 ∧ rndShr (160000 - 0 - (0 : Word).toNat) 1 = 80000 := by decide

set_option maxRecDepth 10000 in
/-- The own tick lies at 0; the message comes 100 µs before it. -/
theorem witness_TickMessages : follower.sync.follow = true ∧ follower.sync.adopt = none ∧ follower.sync.dValid = true ∧
    follower.sync.state = .locked ∧ (7 : Byte).toNat < 8 ∧ nextPeriod follower = 0x00FE502B ∧
    (-800000 : Int) + 16000 ≤ -800000 + (800000 : Word).toNat - follower.sync.d.toNat ∧
    10 * follower.sync.tPrev + 9 * period8 follower ≤ 10 * (-800000 + (800000 : Word).toNat - follower.sync.d.toNat) ∧
    ((-800000 : Int) + (800000 : Word).toNat - follower.sync.d.toNat - ownTick follower).natAbs ≤ 8000 ∧
    follower.sync.placed = none ∧ follower.sync.missedRun = 0 ∧
    parked.tick.running = true ∧ parked.sync.state = .root ∧ parked.sync.adopt = none := by decide +kernel

def assigning : State := { parked with sync := { parked.sync with
  assign := some { hdr := some header, next := 5, port := some 3, count := 1, truncated := false } } }

theorem witness_IdentitiesAssigned : parked.sync.assign = none ∧
    assigning.sync.assign = some { hdr := some header, next := 5, port := some 3, count := 1, truncated := false } ∧
    (∀ q < 4, 3 < q → synDown assigning q = false) := by decide

theorem witness_ErrorsAcknowledged : parked.dev.power ≠ .off ∧ parked.host.flr = false ∧ (4 : BitVec 3).getLsbD 2 = true := by decide

theorem witness_LowEnteredAndLeft : (parked.dev.power = .parked ∧ lowBusy parked = false ∧ parked.memc.reqs = []) ∧
    ({ parked with dev := { parked.dev with transition := some header } } : State).dev.transition = some header ∧
    (inLow.dev.power = .low ∧ inLow.memc.selfRefresh = true ∧ inLow.dev.transition = some header ∧
      (∀ n : Fin 64, (tileOf inLow n.val).port.state = .off ∧ (tileOf inLow n.val).port.bref = .off)) := by decide

theorem witness_BlocksReset : parked.dev.power ≠ .off ∧ (engOf parked 95).running = none ∧ parked.dev.power = .parked ∧
    activeSet (withSet [(0x68, 4, 0x3000)]) = some (withSet [(0x68, 4, 0x3000)]).cfg.active ∧
    Bank.hasHold (withSet [(0x68, 4, 0x3000)]).cfg.active = true := by decide


/-! ### Registers, the host link, streams, supplies and resets, startup, the serial ports -/

/-- The last word of TICK's window is not implemented; PARK_PERIOD at both ends of its range. -/
theorem witness_RegisterWrites : parked.dev.power ≠ .off ∧ parked.host.flr = false ∧ (0x7 : BitVec 4) ≠ 0xF ∧
    bar0Implemented (wordAddr 0x00013FFC) = false ∧ parked.host.addrMiss = false ∧
    (10000000 : Word).toNat = 10000000 ∧ (1000000000 : Word).toNat = 1000000000 := by decide

theorem witness_LinkAndConfigurationSpace : parked.host.cfgReady = false ∧
    ((linked parked).host.cfgReady = true ∧ (linked parked).host.linkUp = true ∧ (linked parked).host.flr = false ∧
      ∀ m : Fin 32, (streamOf (linked parked) m.val).delivery = none) ∧
    linkMode 5 16 = true ∧ (parked.dev.released = true ∧ parked.host.linkUp = false ∧ parked.host.wasDown = false) := by decide

theorem witness_LinkChangeCounted : parked.host.linkUp = false ∧ (linked parked).host.linkUp = true ∧ linkMode 1 1 = true := by decide

/-- The table of streams lies at 0x1000. -/
def streamSet (l : List (Nat × Nat × Nat)) : List (Nat × Nat × Nat) := (0x70, 4, 0x1000) :: l
/-- Stream 31 is a SIDE stream of no tile, with room for one extent of 128 bytes in its region, or for none. -/
def streaming (bytes : Nat) : State :=
  linked (imagingWith (streamSet [(0x17C0, 1, 6), (0x17C6, 2, 1), (0x17D8, 8, bytes), (0x17E8, 4, 1)]))
def delivery : Delivery := { sfn := 2, start := 0, len := 128 }
def delivering : State := { streaming 128 with host := { (streaming 128).host with
  streams := vmod (streaming 128).host.streams 31 fun x => { x with delivery := some delivery } } }

/-- CONS may reach PROD and lie 2^31 - 1 below it, and CONS_CUR may reach W; neither may go on. -/
theorem witness_ConsumerRegisters : parked.host.flr = false ∧ ((streamOf parked 31).prod - 0).toNat < 2 ^ 31 ∧
    ((streamOf parked 31).prod - 0x80000001).toNat < 2 ^ 31 ∧ 2 ^ 31 ≤ ((streamOf parked 31).prod - 1).toNat ∧
    2 ^ 31 ≤ ((streamOf parked 31).prod - 0x80000000).toNat ∧
    (pair64 (streamOf parked 31).consCurLo 0).toNat ≤ (streamOf parked 31).w.toNat ∧
    (streamOf parked 31).w.toNat < (pair64 (streamOf parked 31).consCurLo 1).toNat := by decide

theorem witness_DeliveryStarted : streamOpen (streaming 128) 31 = some ((streaming 128).cfg.active, 2, 2) ∧
    (streamOf (streaming 128) 31).delivery = none ∧ lowerDone (streaming 128) 31 = true ∧ canIssue (streaming 128) = true ∧
    streamFits (streaming 128) (streaming 128).cfg.active 31 (fMax (streaming 128).cfg.active 31) = true ∧
    streamOpen (streaming 127) 31 = some ((streaming 127).cfg.active, 2, 2) ∧ lowerDone (streaming 127) 31 = true ∧
    streamFits (streaming 127) (streaming 127).cfg.active 31 (fMax (streaming 127).cfg.active 31) = false := by
  decide +kernel

theorem witness_DeliveryEnded : streamOpen delivering 31 = some (delivering.cfg.active, 2, 2) ∧
    (streamOf delivering 31).delivery = some delivery ∧ canIssue delivering = true ∧ memServes delivering = true ∧
    MemoryIdle delivering := by
  unfold MemoryIdle; decide +kernel

/-- Stream 31 as an EVENT stream of one record, with no engine slot that emits. -/
def eventing : State :=
  let s := linked (imagingWith (streamSet [(0x17C0, 1, 5), (0x17D8, 8, 256), (0x17E8, 4, 1), (0x17EC, 4, 1)]))
  { s with eng := { s.eng with active := true } }
def eventDelivering : State := { eventing with host := { eventing.host with
  streams := vmod eventing.host.streams 31 fun x => { x with delivery := some { delivery with len := 0 } } } }

theorem witness_EventDelivery : streamOpen eventing 31 = some (eventing.cfg.active, 1, 1) ∧
    (streamOf eventing 31).delivery = none ∧ streamFits eventing eventing.cfg.active 31 (fMax eventing.cfg.active 31) = true ∧
    streamOpen eventDelivering 31 = some (eventDelivering.cfg.active, 1, 1) ∧
    emittersEnded eventDelivering eventDelivering.cfg.active = true ∧ memServes eventDelivering = true := by
  decide +kernel

/-- A frozen record of one frame without pieces, stream 31 HOLD with parts of 256 bytes, of which one fits. -/
def heldFrame : HoldFrame :=
  { sfn := 1, flags := 0, start := 0, bytes := 0, pieces := 0, no := 0, frameFlags := 0, period := 0 }
def holdDelivering : State :=
  let s := linked (withSet (streamSet [(0x17C0, 1, 7), (0x17D8, 8, 256), (0x17E8, 4, 1), (0x17EC, 4, 256)]))
  { s with hold := { s.hold with state := .frozen, delivering := true, retained := [heldFrame], toSend := 1 } }

theorem hold_noStream : ∀ j < 32, streamOpen holdDelivering j = none := by decide +kernel

theorem witness_HoldPart : activeSet holdDelivering = some holdDelivering.cfg.active ∧
    holdStream holdDelivering.cfg.active = some 31 ∧
    holdDelivering.hold.retained[holdDelivering.hold.retained.length - holdDelivering.hold.toSend]? = some heldFrame ∧
    holdDelivering.hold.delivering = true ∧ holdDelivering.hold.waitNow = false ∧ MemoryIdle holdDelivering ∧
    (∀ j < 32, match streamOpen holdDelivering j with | some (_, age, _) => age = 1 | none => True) ∧
    holdDelivering.dev.power = .parked ∧ memServes holdDelivering = true ∧
    holdDelivering.clock.now - holdDelivering.clock.lastTick + 100000 ≤ holdDelivering.tick.period.toNat ∧
    canIssue holdDelivering = true ∧ framePieces holdDelivering holdDelivering.cfg.active heldFrame.no = [] ∧
    holdDelivering.hold.sentNow + pad128 (128 + (indexEntry heldFrame).length) ≤ Bank.strParam holdDelivering.cfg.active 31 ∧
    streamFits holdDelivering holdDelivering.cfg.active 31 (pad128 (128 + (indexEntry heldFrame).length)) = true := by
  refine ⟨by decide +kernel, by decide +kernel, rfl, rfl, rfl, ⟨rfl, rfl, rfl⟩, ?_, by decide, by decide, by decide, by decide, ?_, by decide +kernel,
    by decide +kernel⟩
  · intro j h
    rw [hold_noStream j h]; trivial
  · decide +kernel

/-- Tile 63 reads a frame. -/
def reading : State := withTile 63 (fun x => { x with
  port := { x.port with state := .imaging }, lane := { x.lane with work := { x.lane.work with mode := .read } } }) (imagingWith [])

theorem witness_QuadrantEvents : 63 / 16 = (3 : Fin 4).val ∧ (tileOf reading 63).lane.work.row < 776 ∧
    (tileOf reading 63).lane.work.done = false ∧ (tileOf reading 63).lane.work.mode = .read ∧ reading.dev.released = true := by
  decide

/-- A page of the keeping store is being written. -/
def writingPage : State := keeping [.own 79 [1]] (some (pageBusy (some (4094, [5]))))

theorem witness_FundamentalResets : (Instr.perstAssert = .perstAssert ∧ 3 = 3) ∧ (Instr.brownout = .brownout ∧ 1 = 1) ∧
    writingPage.keep.current = some (pageBusy (some (4094, [5]))) ∧
    (pageBusy (some (4094, [5]))).now = some (4094, [5]) ∧ 4094 ≠ statusPage := by decide

def booting (p : BootPhase) : State :=
  { State.reset with dev := { State.reset.dev with released := true, phase := p } }
/-- A header of one image of 64 bytes, for the LFBGA package; and one without its MAGIC. -/
def image : List Byte :=
  leBytes 4 0x5746594E ++ leBytes 2 1 ++ leBytes 2 256 ++ leBytes 4 64 ++ leBytes 4 7 ++ leBytes 1 3 ++ List.replicate 239 0

set_option maxRecDepth 10000 in
theorem witness_StartupRuns :
    (let s : State := { State.reset with keep := { State.reset.keep with settled := true } }
     s.dev.released = false ∧ s.keep.settled = true ∧ s.keep.current = none) ∧
    (booting .hostWait).dev.phase = .hostWait ∧ (booting .hostWait).host.flr = false ∧ (booting .verify).dev.phase ≠ .hostWait ∧
    ((booting .flash).dev.released = true ∧ (booting .flash).dev.phase = .flash) ∧ bootFault image true true = 0 ∧
    bootFault image true false ≠ 0 ∧ bootFault (0 :: image) true true ≠ 0 ∧ (booting .flash).dev.bootsel = 0 := by decide

def serial (asserted stalled : Bool) (left : Nat) (tx : List Word) : State :=
  { parked with spc := { parked.spc with asserted, stalled, left, tx, busy := asserted } }

theorem witness_SerialPortsRun : parked.dev.power ≠ .off ∧
    ((serial false false 0 [7]).spc.asserted = false ∧ (serial false false 0 [7]).spc.tx = 7 :: [] ∧
      (serial false false 0 [7]).spc.rx.length < 16) ∧
    ((serial true false 1 []).spc.asserted = true ∧ (serial true false 1 []).spc.left = 1 ∧
      (serial true false 1 []).spc.stalled = false ∧ (serial true false 1 []).spc.resetting = false ∧
      (serial true false 1 []).spc.aborting = false ∧ (serial true false 1 []).spc.hold = false) ∧
    ((serial true true 2 [7]).spc.stalled = true ∧ (serial true true 2 [7]).spc.tx = 7 :: [] ∧
      0 < (serial true true 2 [7]).spc.left) ∧
    parked.host.flr = false ∧ [(5 : Word)].length < sptCount 0x3C013000 ∧
    parked.dev.released = true ∧ sptAddr 0x3C013000 % 4 = 0 ∧ sptCount 0x3C013000 = 16 ∧ sptAddr 0x3C013001 % 4 ≠ 0 ∧
    ({ parked with spt := { parked.spt with done := true } } : State).spt.done = true := by decide

/-! ### Tile ports, lanes and blanking, calibration, coils, engines, housekeeping -/

/-- Tile 63 enabled under a set with `n` preparation frames and one retry, its port changed. -/
def portSet (n : Nat) (f : Port → Port) : State :=
  withTile 63 (fun x => { x with port := f x.port }) (withSet [(0x28, 4, 0x10000), (0x17E00, 4, 0x10001 + 256 * n)])

theorem witness_PortsPrepareAndFault :
    (let s := portSet 2 fun p => { p with state := .prepare, bref := .rampUp }
     (tileOf s 63).port.state = .prepare ∧ (tileOf s 63).port.bref = .rampUp) ∧
    (tileOf (portSet 2 fun p => { p with bref := .rampDown }) 63).port.bref = .rampDown ∧
    prepareDue (portSet 2 fun p => { p with state := .prepare, prepDone := true, kpTicks := 2 }) 63 = true ∧
    prepLate (portSet 2 fun p => { p with state := .prepare, kpTicks := 1 }) 63 = true ∧
    (let s := portSet 2 fun p => { p with state := .ready, bref := .atCode }
     portLive (tileOf s 63).port = true ∧ (tileOf s 63).port.bref = .atCode) ∧
    portLive (tileOf parked 63).port = false := by decide

/-- Tile 63 in PREPARE with its clock running and one entry to write. -/
def listed : State :=
  withTile 63 (fun x => { x with port := { x.port with state := .prepare, pclk := true } })
    (withSet [(0x28, 4, 0x10000), (0x8E00, 1, 1), (0x17E00, 4, 0x10201), (0x17E30, 4, 1)])
def hostTrans : TcfgTrans := { kind := .host, retries := 0, lineFault := false, unjudged := false }
set_option maxRecDepth 10000 in
/-- A read answer whose CRC checks: data 0 has the CRC 0. -/
theorem witness_HostReadRuns : (tileOf parked 63).port.hostPending = false ∧ (tileOf parked 63).port.state = .off ∧
    (tileOf readyPort 63).port.state = .ready ∧
    (let s := portSet 2 fun p => { p with state := .ready, hostPending := true, hostReq := 5 }
     (tileOf s 63).port.trans = none ∧ (tileOf s 63).port.retryDue = [] ∧ (tileOf s 63).port.hostPending = true) ∧
    (let s := portSet 2 fun p => { p with state := .ready, hostPending := true, trans := some hostTrans }
     (tileOf s 63).port.trans = some { kind := .host, retries := 0, lineFault := false, unjudged := false } ∧
       0 < tcfgRetries s 63 ∧ (tileOf s 63).port.state ≠ .imaging) ∧
    (let s := portSet 2 fun p => { p with state := .imaging, hostPending := true, trans := some { hostTrans with retries := 1 } }
     (tileOf s 63).port.state = .imaging ∧ tcfgRetries s 63 ≤ 1 ∧ (tileOf s 63).port.hostPending = true) ∧
    (let s := portSet 2 fun p => { p with state := .imaging, trans := some hostTrans }
     (tileOf s 63).port.state = .imaging ∧ 0 < tcfgRetries s 63) ∧
    (let s := listed
     (tileOf s 63).port.state = .prepare ∧ (tileOf s 63).port.trans = none ∧ (tileOf s 63).port.pclk = true ∧
       (tileOf s 63).port.prepDone = false ∧ (tileOf s 63).port.faultNext = false ∧
       (tileOf s 63).port.clkAt + pixelClocks s 64 ≤ s.clock.now ∧ (tileOf s 63).port.retryDue = [] ∧
       (tileOf s 63).port.entry < nTcfg s 63 ∧ (tileOf s 63).port.verify = false) ∧
    readAnswer 0 = some 0 ∧ readAnswer 1 = none := by decide

/-- Tile 63's lane in a mode, at a row. -/
def laneAt (m : LaneMode) (row : Nat) (p : PortState) : State := withTile 63 (fun x => { x with
  port := { x.port with state := p }, lane := { x.lane with work := { x.lane.work with mode := m, row } } }) (imagingWith [])
def blanking : State := portSet 2 fun p => { p with state := .ready, pclk := true }

/-- An injection whose 256 codes are −6,144 and 6,144, 3,145,728 apart and about 0: no offset and a gain of 1; and one
without a difference. -/
theorem witness_LanesAndBlankingRun :
    MemoryIdle (laneAt .read 775 .imaging) ∧
    (let s := laneAt .placeholder 775 .fault
     activeSet s = some [] ∧ (tileOf s 63).lane.work.done = false ∧ (tileOf s 63).port.state = .fault ∧
       (tileOf s 63).lane.work.mode = .placeholder ∧ (tileOf s 63).lane.work.stopped = false ∧ (tileOf s 63).lane.work.row < 776) ∧
    (let s := laneAt .read 775 .imaging
     (tileOf s 63).lane.work.mode = .read ∧ (tileOf s 63).lane.work.row < 776) ∧
    (let s := laneAt .read 776 .imaging
     (tileOf s 63).lane.work.mode ≠ .idle ∧ 776 ≤ (tileOf s 63).lane.work.row) ∧
    ((tileOf blanking 63).port.state = .ready ∧ (tileOf blanking 63).port.pclk = true ∧
      (tileOf blanking 63).rdo.blankDone = false) ∧
    injection (List.replicate 256 0xE800) (List.replicate 256 0x1800) = some (0, 65536) ∧ injection [] [] = none := by
  unfold MemoryIdle; decide +kernel

/-- The settings of calibration lie at 0x3000: one frame to average, one to settle after a close or an open. -/
def calSet (extra : List (Nat × Nat × Nat)) (f : Cal → Cal) : State :=
  withTile 63 (fun x => { x with port := { x.port with state := .imaging }, cal := f { x.cal with frameDone := true } })
    (imagingWith ((0x40, 4, 0x3000) :: (0x3006, 1, 1) :: (0x3008, 1, 1) :: (0x3009, 1, 1) :: (0x300C, 1, 1) :: extra))

theorem witness_CalibrationRuns :
    (let s := calSet [(0x3000, 4, 60)] id
     duePeriod s 63 = true ∧ (tileOf s 63).port.state = .imaging ∧ (tileOf s 63).cal.phase = .idle ∧ heldOff s 63 = false) ∧
    (let s := calSet [] fun c => { c with requested := true }
     (tileOf s 63).cal.requested = true ∧ calCanStart s 63 = true) ∧
    calMove (calSet [] fun c => { c with phase := .accum, poisoned := 1 }) 63 = .abandon 6 ∧
    calMove (calSet [(0x3014, 4, 1)] fun c => { c with phase := .open, abandoning := true }) 63 = .idleAfter true ∧
    calMove (calSet [] fun c => { c with phase := .accum }) 63 = .compute ∧
    calMove (calSet [] fun c => { c with phase := .compute }) 63 = .open ∧
    calMove (calSet [] fun c => { c with phase := .traverse, kUsed := 1 }) 63 = .finish ∧
    calMove (calSet [] fun c => { c with phase := .close, frameVar := 1 }) 63 = .abandon 1 ∧
    calMove (calSet [(0x3014, 4, 1)] fun c => { c with phase := .open }) 63 = .openUnconfirmed := by decide

/-- The shutter settings lie at 0x800; group 15 has a pull-in of 5 µs and one retry; one pull-in at a time. -/
def coilSet (f : Coil → Coil) : State :=
  let s := withSet [(0x48, 4, 0x800), (0x800, 1, 1), (0x9F4, 4, 5), (0x9FC, 4, 0xF1000000)]
  modCoil 63 f s

theorem witness_CoilsRun : mayStart (coilSet fun c => { c with state := .wait }) 63 = true ∧
    (let s := coilSet fun c => { c with state := .pullin, moved := true, n := 11 }
     (coilOf s 63).state = .pullin ∧ (coilOf s 63).moved = true ∧ 2 * pullinUs s 15 < (coilOf s 63).n) ∧
    (let s := coilSet fun c => { c with state := .pullin, n := 2 }
     (coilOf s 63).state = .pullin ∧ (coilOf s 63).suspended = false ∧ (coilOf s 63).opened = false ∧
       2 * openUs s 15 < (coilOf s 63).n ∧ (coilOf s 63).fault = 0 ∧ (coilOf s 63).moved = false ∧ (coilOf s 63).releaseAfter = false ∧
       min (2 * dipEndUs s 15 + 1) (2 * pullinUs s 15) < (coilOf s 63).n ∧ (coilOf s 63).retry.toNat < shutRetries s 15) ∧
    (let s := coilSet fun c => { c with state := .pullin, n := 2, retry := 1 }
     shutRetries s 15 ≤ (coilOf s 63).retry.toNat) ∧
    (let s := coilSet fun c => { c with state := .pullin, releaseAfter := true }
     (coilOf s 63).releaseAfter = true ∧ (coilOf s 63).faultAfter = false ∧ (coilOf s 63).state = .pullin) ∧
    (let s := coilSet fun c => { c with state := .release }
     (coilOf s 63).state = .release ∧ 2 * releaseUs s 15 ≤ (coilOf s 63).n) ∧
    (let s := coilSet fun c => { c with state := .gap }
     (coilOf s 63).state = .gap ∧ 2 * retryGapUs s 15 ≤ (coilOf s 63).n) ∧
    (let s : State := { coilSet id with clock := { parked.clock with now := 1000 } }
     s.clock.lastTick + 1000 ≤ s.clock.now) := by decide

/-- Engine 95 has one slot, of a chain of `n` operators, the first of the opcode given on one element. -/
def engineOf (opc n : Nat) (f : Eng → Eng) : State :=
  let s := imagingWith [(0x20, 4, 0x400), (0x410, 2, 1), (0x418, 4, 0x100), (0x41C, 4, 0x200), (0x420, 4, 0x180), (0x500, 4, 0xFFFF5F),
    (0x584, 2, 1), (0x588, 2, 1), (0x600, 4, 0x300), (0x700, 2, n), (0x7C0, 1, opc), (0x800, 1, 3)]
  { modEng 95 f s with eng := { s.eng with active := true } }
def engineWith (n : Nat) (f : Eng → Eng) : State := engineOf 3 n f

theorem witness_EnginesRun :
    (let s := engineWith 2 id
     engineSet s = some s.cfg.active ∧ nextSlot s s.cfg.active 95 = some 0 ∧ s.eng.active = true ∧
       (engOf s 95).running = none ∧ (engOf s 95).stopped = false ∧
       barrierDone s s.cfg.active (Bank.slotWait s.cfg.active 0) = true) ∧
    (let s := engineWith 2 fun x => { x with running := some 0, opsEnded := true }
     (engOf s 95).running = some 0 ∧ (engOf s 95).opsEnded = true) ∧
    (let s := engineWith 2 fun x => { x with running := some 0, op := 1 }
     (engOf s 95).opsEnded = false ∧ slotEnded s 0 = false ∧ Bank.slotEng s.cfg.active 0 = 95 ∧
       (opCtx s s.cfg.active 95 0).o.isLoad = false ∧ (opCtx s s.cfg.active 95 0).o.isStore = false ∧
       (engOf s 95).faultValid = false) ∧
    (let s := engineOf 1 2 fun x => { x with running := some 0 }
     (opCtx s s.cfg.active 95 0).o.isLoad = true ∧ memServes s = true ∧ MemoryIdle s) ∧
    (opCtx (engineOf 2 2 fun x => { x with running := some 0 }) (engineOf 2 2 id).cfg.active 95 0).o.isStore = true ∧
    (0 ∈ Bank.engSlots (engineWith 2 id).cfg.active 95 ∧ slotEnded (engineWith 2 id) 0 = false) := by
  unfold MemoryIdle; decide +kernel

/-- The table of the converters lies at 0x2000, in PASS mode with the source that `trig` names; entry 0 of converter 0 goes
to slot 63, as injected entry 0 does. -/
def hkWith (trig : Nat) (f : Hkadc → Hkadc) : State :=
  let s := withSet [(0x50, 4, 0x2000), (0x2000, 1, 1), (0x2001, 1, trig), (0x2004, 1, 1), (0x2005, 1, 1),
    (0x2040, 4, 0x3F000000), (0x2240, 4, 0x3F000000)]
  { s with hk := f { s.hk with openMask := 0 } }

theorem witness_HousekeepingRuns :
    (let s := hkWith 0 fun h => { h with passRunning := true, c0 := { h.c0 with phase := .delay } }
     hkActive s false = true ∧ (hkConvOf s false).phase = .delay) ∧
    (let s := hkWith 0 fun h => { h with passRunning := true, c0 := { h.c0 with phase := .convert } }
     hkConverting s false = true ∧ (hkConvOf s false).phase = .convert ∧ s.hk.openMask.getLsbD 0 = false ∧ (hkTableEntry s (hkConvOf s false).entry).ow = 0 ∧
       (hkTableEntry s (hkConvOf s false).entry).dest = 63) ∧
    (let s := hkWith 0 fun h => { h with c0 := { h.c0 with inject := [0] } }
     s.hk.calibrating = false ∧ (hkConvOf s false).inject = 0 :: [] ∧ (hkInjEntry s 0).dest = 63 ∧
       s.hk.openMask.getLsbD (hkInjEntry s 0).input = false) ∧
    (let s := hkWith 0 fun h => { h with
       passRunning := true, c0 := { h.c0 with doneTable := true }, c1 := { h.c1 with doneTable := true } }
     s.hk.passRunning = true ∧ s.hk.c0.doneTable = true ∧ s.hk.c1.doneTable = true ∧ hkPassMode s = true ∧
       s.hk.pending = false) ∧
    (let s := hkWith 2 id
     hkOn s = true ∧ hkPassMode s = true ∧ hkTrigSrc s = 2 ∧ s.hk.trigNow = false ∧ s.hk.restartNext = false ∧ s.hk.passRunning = false ∧
       s.hk.calibrating = false) ∧
    (parked.dev.power ≠ .off ∧ parked.hk.calRequested = false) ∧
    (let s := hkWith 0 fun h => { h with calRequested := true }
     s.hk.calRequested = true ∧ s.hk.c0.inject = [] ∧ s.hk.c1.inject = []) ∧
    (hkWith 0 fun h => { h with calibrating := true }).hk.calibrating = true ∧
    hkFactors (32 * 16384) (32 * 245760) = some (0, 32768) ∧ hkFactors 1 1 = none ∧
    ((withSet []).cfg.hasActive = true ∧ (withSet []).err.freezeNext = 0 ∧ (withSet []).err.batch = none ∧
      (errOf (withSet []) 0).valid = false) := by decide +kernel

/-! ### Terms that WellFormed refuses, one for each of its checks -/

theorem test_wf_packet : (Instr.packetArrival .caravan []).wellFormed = false := by decide
theorem test_wf_count : (Instr.readRegs header 0 60).wellFormed = false := by decide
theorem test_wf_values : (Instr.writeRegs header 0 []).wellFormed = false := by decide
theorem test_wf_offset : (Instr.writeCfg header 0x7FFFFC [0, 0]).wellFormed = false := by decide
theorem test_wf_commit : (Instr.commitShadow header 60 0).wellFormed = false := by decide
theorem test_wf_table : (Instr.tableSave header 0x540 0 false).wellFormed = false := by decide
theorem test_wf_line : (Instr.tableSave header 0x23F 32 false).wellFormed = false := by decide
theorem test_wf_replay : (Instr.replay header 0 203423680 0 1 false).wellFormed = false := by decide
theorem test_wf_mask : (Instr.shutterCal header 0).wellFormed = false := by decide
theorem test_wf_taps : (Instr.dacLincal header 0 false false).wellFormed = false := by decide
theorem test_wf_blend : (Instr.blendSet header 1 65).wellFormed = false := by decide
theorem test_wf_train : (Instr.memTrain header 0 1 16 6401 0).wellFormed = false := by decide
theorem test_wf_result : (Instr.memTrainEnd (List.replicate 8 { channelResult with rd := [] }) (List.replicate 8 channelResult)
    (List.replicate 3 (List.replicate 8 channelResult))).wellFormed = false := by
  decide
theorem test_wf_attempts : (Instr.memTrainEnd [] [] []).wellFormed = false := by decide
theorem test_wf_characters : (Instr.idSet (.badChars 0) 0 false).wellFormed = false := by decide
theorem test_wf_diag : (Instr.memDiag header 3 0 false 1 1 0 64 0).wellFormed = false := by decide
theorem test_wf_fail :
    (Instr.memDiagEnd [{ pass := 0, d := 0, word := 0, actual := 0, lanes := 0, errs := [] }] []).wellFormed = false := by decide
theorem test_wf_keepRange : (Instr.keepRead header 0x7FFFF 2).wellFormed = false := by decide
theorem test_wf_keepWrite : (Instr.keepWrite header 127 2 [0]).wellFormed = false := by decide
theorem test_wf_ring : (Instr.keepRingRead header 80 0).wellFormed = false := by decide
theorem test_wf_payload : (Instr.keepRingAppend header 68 (List.replicate 27 0)).wellFormed = false := by decide
theorem test_wf_bar2 : (Instr.bar2Access 0 (some [some 1]) 2 []).wellFormed = false := by decide
theorem test_wf_request : (Instr.memAccessIssue [request (some [])] []).wellFormed = false := by decide
theorem test_wf_sweep : (Instr.incrSweepEnd 0 [] []).wellFormed = false := by decide
theorem test_wf_row : (Instr.laneRow 0 [] [] 0 0 false [] false []).wellFormed = false := by decide
theorem test_wf_blanking : (Instr.blankingWorkEnd 0 [] [] [] [] [] []).wellFormed = false := by decide
theorem test_wf_sense : (Instr.senseSample []).wellFormed = false := by decide
theorem test_wf_sum : (Instr.hkSelfcalEnd 8388097 0 0 0).wellFormed = false := by decide
theorem test_wf_frame : (Instr.sptWrite 0 (List.replicate 17 0) false).wellFormed = false := by decide
theorem test_wf_header : (Instr.firmwareCheckEnd [] true true).wellFormed = false := by decide

/-- Each bound met exactly. -/
theorem test_wf_bounds : (Instr.packetArrival .caravan (List.replicate 64 0)).wellFormed = true ∧
    (Instr.readRegs header 0 59).wellFormed = true ∧ (Instr.writeCfg header 0x7FFFF8 [0, 0]).wellFormed = true ∧
    (Instr.tableSave header 0x3F05FF 64 false).wellFormed = true ∧ (Instr.keepWrite header 127 1 [0]).wellFormed = true ∧
    (Instr.keepRingAppend header 67 (List.replicate 58 0)).wellFormed = true ∧
    (Instr.hkSelfcalEnd 8388096 0 0 0).wellFormed = true := by decide

/-! ### The manual's worked values -/

/-- R6, R111: rounding half away from zero. -/
theorem test_rounding : rndShr 5 1 = 3 ∧ rndShr (-5) 1 = -3 ∧ rndDiv (-7) 2 = -4 ∧ rndDiv 5 4 = 1 := by decide

/-- R8: 0x00000001 lies two frames after 0xFFFFFFFE. -/
theorem test_sfn : sfnDiff 0x00000001 0xFFFFFFFE = 2 ∧ sfnNext 0xFFFFFFFE = 0 := by decide

/-- R335, the worked value of the parameters. -/
theorem test_crc32 : crc32 [0x31, 0x32, 0x33, 0x34, 0x35, 0x36, 0x37, 0x38, 0x39] = 0xCBF43926 := by decide +kernel

/-- R90: a write of 0x0123 to tile register 0x05 is sent as 0x0501233C. -/
theorem test_tcfg_command : tcfgCommand 0 5 0x0123 = 0x0501233C := by decide +kernel

/-- R113, the worked trace of a hot pixel: frames k, k+1, k+5 and k+8. -/
theorem test_nulling : nullstep 1200 0 32767 131072 16 = 1 * 4096 + 3248 ∧ nullstep 3248 1 32767 131072 16 = 2 * 4096 + 4095 ∧
    nullstep 3455 5 (-28006) 131072 16 = 14 * 4096 + 3439 ∧ nullstep 3407 14 (-3430) 131072 16 = 3400 := by decide

/-- R111, the worked pixel: X′ = 692,380. -/
theorem test_composite : composite' 131072 3400 154 (-64) 66076 1048576 = 692380 := by decide

/-- R121, the worked injection. -/
theorem test_injection_gain : rndShr (-1560064 + 1559936) 1 = -64 ∧ rndDiv (3145728 * 65536) (1559936 + 1560064) = 66076 := by
  decide

/-- R122, the worked reading of the substrate thermistor. -/
theorem test_substrate : substrate 1572864 (fun j => if j = 9 then 77568 else if j = 10 then 76288 else 0) = 76928 := by decide

/-- R139, the worked replacement: 11,354. -/
theorem test_replacement :
    (let p (y : BitVec 16) (bad : Bool) : PixY := { y, bad }
     replaceBad [] [p 11300 false, p 0 true, p 11410 false] [p 0xFFFF false, p 1 true, p 11352 false] 1) = some 11354 := by decide

/-- R141, stage 6 of the worked pixel. -/
theorem test_filter : tfilter 11332 11300 96 200 false = (11312, false) := by decide

/-- R174, two thresholds. -/
theorem test_threshold : thCode 1200 = 1966 ∧ thCode 350 = 573 := by decide

/-- R203, a table read between its entries and at its end. -/
theorem test_lut : (let t (j : Nat) : Int := if j = 3 then 300000 else if j = 4 then 300514 else if j = 255 then 7 else 0
    lutInterp t 900 = 300258 ∧ lutInterp t 65535 = 7) := by decide

/-- R210, the worked block: 19 bits under code 1. -/
theorem test_lcomp_block : rowResiduals 998 [1000, 1003, 1001, 1001] = [4, 6, 3, 0] ∧
    blockBits [4, 6, 3, 0] = [false, false, false, false, true, true, true, false, false, true, true, true, false, false,
      true, false, true, false, false] := by decide

/-- R248, the worked mapping: channel 6, bank 0, column 21, row 9,320. -/
theorem test_mapping :
    (let s := { parked with memc := { parked.memc with hash := #v[0x10101, 0x20202, 0x40404, 0x80808, 0x101010, 0x202020, 0x404040,
       0x808080, 0] } }
     placeOf s 0x048D159E) = { channel := 6, sc := false, rk := false, bank := 0, col := 21, row := 9320 } := by decide

/-- R342, R343, the worked walk: the header, and the entry of engine 40. -/
theorem test_trail_map : mapWord 0 = 0x4E593634 ∧ mapWord 4 = 0x00B90100 ∧ mapWord 8 = 0x00200020 ∧ mapWord 12 = 0x1740 ∧
    mapWord 0xFE0 = 0x60280041 ∧ mapWord 0xFE4 = 0x00250000 := by decide

/-- R365, the worked chain of the housing slot, and R366, the worked self-calibration. -/
theorem test_housekeeping : hkValue 131000 16 (-9) 32799 40 32700
      (some fun j => if j = 7 then 77032 else if j = 8 then 75496 else 0) = 75520 ∧
    hkFactors 523520 7856640 = some (-9, 32799) := by decide

/-- R315, the worked encodings: six words asked from TICK_OVR_LAST on are three. -/
theorem test_read_regs : wordsLeft 0x13024 = 3 := by decide

/-- R445, the worked accesses on tile 9: four words from TILE_FF_LEVEL on; 0x334 is past the last register. -/
theorem test_tile9 : wordsLeft 0x124324 = 4 ∧ bar0Implemented 0x124334 = false ∧ bar0Implemented 0x12403C = false ∧
    bar0Implemented 0x124038 = true := by decide

end Sys2Proof.Tests
end

section
/-! PROOFS. A packet's frame and its place in the timed queue (02 R54, R55): when the packet arrives, and when the region
of a TABLE_LOAD has been checked (13 R318). -/
namespace Sys2Proof.Proofs

open Sys2Proof Sys2Proof.Machine Sys2Proof.Laws

/-! ### A reply does not look at the memory controller's ports and channels -/

/-- The state with other ports of the controller and other channels: what `OnlyPorts` allows to differ. -/
def setPorts (p : Vector ReqPort 12) (c : Vector Memch 8) (s : State) : State :=
  { s with memc := { s.memc with ports := p }, memch := c }

theorem onlyPorts_iff_setPorts (s t : State) : OnlyPorts s t ↔ ∃ p c, t = setPorts p c s := Iff.rfl

section
variable (p : Vector ReqPort 12) (c : Vector Memch 8)

@[simp] theorem setPorts_cmdq (s : State) : (setPorts p c s).cmdq = s.cmdq := rfl
@[simp] theorem setPorts_tick (s : State) : (setPorts p c s).tick = s.tick := rfl
@[simp] theorem replyRoom_setPorts (s : State) : replyRoom (setPorts p c s) = replyRoom s := rfl
@[simp] theorem mboxOf_setPorts (m : Bool) (s : State) : mboxOf (setPorts p c s) m = mboxOf s m := rfl
@[simp] theorem dramRead_setPorts (a n : Nat) (s : State) : dramRead (setPorts p c s) a n = dramRead s a n := rfl
@[simp] theorem modCmdq_setPorts (f : Cmdq → Cmdq) (s : State) :
    modCmdq f (setPorts p c s) = setPorts p c (modCmdq f s) := rfl
@[simp] theorem modMbox_setPorts (m : Bool) (f : Mbox → Mbox) (s : State) :
    modMbox m f (setPorts p c s) = setPorts p c (modMbox m f s) := rfl

theorem forEach_setPorts {α : Type} {f : α → State → State}
    (h : ∀ a s, f a (setPorts p c s) = setPorts p c (f a s)) (l : List α) (s : State) :
    forEach l f (setPorts p c s) = setPorts p c (forEach l f s) := by
  induction l generalizing s with
  | nil => rfl
  | cons a l ih => exact (congrArg (forEach l f) (h a s)).trans (ih (f a s))

@[simp] theorem hostWrite_setPorts (a : Nat) (bs : List Byte) (s : State) :
    hostWrite a bs (setPorts p c s) = setPorts p c (hostWrite a bs s) :=
  forEach_setPorts p c (f := fun (w : Nat × List Byte) => emit (.hostWrite false w.1 w.2)) (fun _ _ => rfl)
    (writePieces bs.length (hostMps s) a bs) s

@[simp] theorem sendVector_setPorts (v : Nat) (s : State) :
    sendVector v (setPorts p c s) = setPorts p c (sendVector v s) := by
  unfold sendVector
  rw [apply_ite (setPorts p c)]
  rfl

@[simp] theorem postHeld_setPorts (s : State) : postHeld (setPorts p c s) = setPorts p c (postHeld s) := by
  unfold postHeld
  rw [setPorts_cmdq, replyRoom_setPorts]
  split
  · rfl
  · split
    · simp only [setPorts_cmdq, hostWrite_setPorts, modCmdq_setPorts, sendVector_setPorts]
      split <;> rfl
    · rfl

@[simp] theorem postAll_setPorts (n : Nat) (s : State) : postAll n (setPorts p c s) = setPorts p c (postAll n s) := by
  induction n generalizing s with
  | zero => rfl
  | succ n ih =>
    unfold postAll
    rw [setPorts_cmdq, replyRoom_setPorts, postHeld_setPorts, ih]
    split <;> rfl

@[simp] theorem mboxShow_setPorts (m : Bool) (s : State) : mboxShow m (setPorts p c s) = setPorts p c (mboxShow m s) := by
  unfold mboxShow
  rw [mboxOf_setPorts]
  split
  · rfl
  · simp only [modMbox_setPorts, sendVector_setPorts]
    exact (apply_ite (setPorts p c) _ _ _).symm

theorem sendParts_setPorts (h : Hdr) (ps : List ReplyPart) (s : State) :
    sendParts h ps (setPorts p c s) = setPorts p c (sendParts h ps s) := by
  unfold sendParts
  cases h.path with
  | caravan =>
    simp only [setPorts_cmdq, modCmdq_setPorts, postAll_setPorts]
    split <;> rfl
  | mailbox => simp only [modMbox_setPorts, mboxShow_setPorts]
  | mgmt => simp only [modMbox_setPorts, mboxShow_setPorts]

theorem replyReject_setPorts (h : Hdr) (op : Nat) (st : BitVec 16) (s : State) :
    replyReject h op st (setPorts p c s) = setPorts p c (replyReject h op st s) :=
  sendParts_setPorts p c h _ (modCmdq (fun q => { q with rejAccept := satInc q.rejAccept }) s)

end

/-! ### The frame, and the room in the timed queue (R53 to R55) -/

/-- The next frame, or from the arming cutoff on the one after (R53, R54). -/
theorem resolveFrame_atOnce (s : State) : resolveFrame s 0xFFFFFFFF#32 =
    some (sfnAdd s.tick.sfn (if s.clock.lastTick + s.tick.period.toNat ≤ s.clock.now + 200000 then 2 else 1)) := by
  simp [resolveFrame, pastCutoff]

/-- The state in which the command has entered the timed queue for frame `f`. -/
def enqueue (q : Queued) (f : Sfn) (s : State) : State :=
  { s with tick := { s.tick with
      accNext := s.tick.accNext + 1,
      queue := s.tick.queue ++ [{ q with hdr := { q.hdr with sfn := f }, acc := s.tick.accNext }] } }

theorem takeIn_of_room {q : Queued} {e : Word} {f : Sfn} {s : State} (hf : resolveFrame s e = some f)
    (hq : s.tick.queue.length < 256) : takeIn q e s = enqueue q f s := by
  unfold takeIn
  simp only [hf]
  exact if_neg (Nat.not_le.mpr hq)

theorem takeIn_of_full {q : Queued} {e : Word} {f : Sfn} {s : State} (hf : resolveFrame s e = some f)
    (hq : 256 ≤ s.tick.queue.length) : takeIn q e s = replyReject q.hdr q.opcode.toNat stBusy s := by
  unfold takeIn
  simp only [hf]
  exact if_pos hq

/-! ### What reaches the last two checks of R305 -/

/-- The state with the checks of TABLE_LOAD regions that have not ended (R318). -/
def withChecks (l : List LoadCheck) (s : State) : State := modCmdq (fun c => { c with checks := l }) s

@[simp] theorem withChecks_tick (l : List LoadCheck) (s : State) : (withChecks l s).tick = s.tick := rfl

/-- A packet that passes checks 1 to 4, and is no TABLE_LOAD with CHECK, is taken in when it arrives. -/
theorem exec_packetArrival_of_checked {path : Path} {ws : List Word} {s : State} (hr : s.dev.phase = .ready)
    (hp : s.dev.power ≠ .off) (hc : packetFault (packetLen ws) (packetOp ws) (packetPars ws) = none)
    (hl : packetOp ws ≠ 0x22 ∨ packetLen ws ≠ 5) :
    exec (.packetArrival path ws) s = .next (takeIn (packetCmd path ws) (packetEff ws) s) := by
  have hload : (packetOp ws = 0x22 && packetLen ws = 5) = false := by
    rcases hl with h | h <;> simp [h]
  have harr : packetArrival path ws s = takeIn (packetCmd path ws) (packetEff ws) s := by
    unfold packetArrival
    simp [hr, hp, hc, hload]
  exact congrArg Host.Outcome.next harr

theorem spansWait_idle {s : State} (h : s.memc.reqs = []) (port : Nat) (l : List Span) : spansWait s port l = false := by
  simp [spansWait, h]

/-- The read of the region changes ports and channels alone; a matching CRC then takes the TABLE_LOAD in (R318). -/
theorem exec_tableLoadCheckEnd_of_match {x : LoadCheck} {r : List LoadCheck} {hits : List (Nat × EccHit)} {s : State}
    (hx : s.cmdq.checks = x :: r) (hi : MemoryIdle s) (hh : Correctable hits)
    (hc : crc32 (dramRead s x.region.1 x.region.2) = x.q.params.getD 4 0) :
    ∃ p c, exec (.tableLoadCheckEnd hits) s = .next (takeIn x.q x.eff (setPorts p c (withChecks r s))) := by
  obtain ⟨hquiet, hfrozen, hreqs⟩ := hi
  obtain ⟨p, c, ht⟩ := (onlyPorts_iff_setPorts _ _).1
    (onlyPorts_traffic 10 hits [reads x.region.1 x.region.2] s hreqs hh)
  have hfrozen' : (setPorts p c s).memc.frozen = false := hfrozen
  have hcrc : crc32 (dramRead (withChecks r s) x.region.1 x.region.2) = x.q.params.getD 4 0 := hc
  have hend : endLoadCheck hits s = takeIn x.q x.eff (setPorts p c (withChecks r s)) := by
    unfold endLoadCheck
    simp only [hx, hquiet, hfrozen, spansWait_idle hreqs, ht, hfrozen', Bool.or_self, Bool.false_eq_true, if_false,
      modCmdq_setPorts, dramRead_setPorts]
    exact if_neg (not_not_intro hcrc)
  exact ⟨p, c, congrArg Host.Outcome.next hend⟩

/-- Word 2 of each part of a reply is the SFN its command was resolved to (R308). -/
theorem replyWords_sfn (part : ReplyPart) (seq : Word) : (replyWords part seq)[2]? = some part.hdr.sfn := rfl

/-! ### The obligations -/

/-- Settles O14: frame 0xFFFFFFFF always resolves, so that with room the command enters the queue. -/
theorem atOnceFrameResolved : Obligations.AtOnceFrameResolved := by
  unfold Obligations.AtOnceFrameResolved
  intro s hq f
  refine ⟨?arrival, ?loadCheck, replyWords_sfn⟩
  case arrival =>
    intro path ws hr hp hc hl he
    rw [exec_packetArrival_of_checked hr hp hc hl, he, takeIn_of_room (resolveFrame_atOnce s) hq]
    rfl
  case loadCheck =>
    intro x r hits hx he hi hh hc
    obtain ⟨p, c, hexec⟩ := exec_tableLoadCheckEnd_of_match hx hi hh hc
    have hroom := takeIn_of_room (q := x.q) (s := setPorts p c (withChecks r s)) (resolveFrame_atOnce _) hq
    rw [he, hroom] at hexec
    exact ⟨_, hexec, rfl, rfl, rfl⟩

/-- Settles O15: with 256 commands queued the frame's resolution is followed by the rejection BUSY. -/
theorem fullQueueRejects : Obligations.FullQueueRejects := by
  unfold Obligations.FullQueueRejects
  intro s hq
  refine ⟨?arrival, ?loadCheck⟩
  case arrival =>
    intro path ws f hr hp hc hl hf
    rw [exec_packetArrival_of_checked hr hp hc hl, takeIn_of_full hf hq, replyReject_tick]
    exact ⟨rfl, rfl⟩
  case loadCheck =>
    intro x r f hits hx hf hi hh hc
    obtain ⟨p, c, hexec⟩ := exec_tableLoadCheckEnd_of_match hx hi hh hc
    have hfull := takeIn_of_full (q := x.q) (s := setPorts p c (withChecks r s)) hf hq
    rw [hfull, replyReject_setPorts] at hexec
    refine ⟨_, hexec, ?_, rfl⟩
    rw [setPorts_tick, replyReject_tick, withChecks_tick]

end Sys2Proof.Proofs
end


section
/-! PROOFS. A change of the host link's speed or width (12 R282): what the event does with the link down and with it up. -/

namespace Sys2Proof.Proofs

open Sys2Proof Sys2Proof.Machine

theorem exec_linkChange (sp : BitVec 3) (w : BitVec 5) (s : State) :
    exec (.linkChange sp w) s = .next (linkChange sp w s) := rfl

/-- The state that shows the link's new speed and width, with the change flagged and counted (R282, R303). -/
def linkShown (sp : BitVec 3) (w : BitVec 5) (s : State) : State :=
  modHost (fun h => { h with
    speed := sp, width := w, linkChangeSeen := true, linkChangeCnt := satInc h.linkChangeCnt }) s

theorem linkChange_of_linkDown {sp : BitVec 3} {w : BitVec 5} {s : State} (hdown : s.host.linkUp = false) :
    linkChange sp w s = s := by
  have hguard : ¬ (s.host.linkUp && linkMode sp w) = true := by simp [hdown]
  exact if_neg hguard

/-- LINK_CHANGE is raised after the change is shown, so that its AUX and INFO show the new link (R412). -/
theorem linkChange_of_linkUp {sp : BitVec 3} {w : BitVec 5} {s : State} (hup : s.host.linkUp = true)
    (hmode : linkMode sp w = true) :
    linkChange sp w s = raiseErr (mkErr 2 0x2B 0xFF (bits (hostStatus (linkShown sp w s).host).toNat 8 1)
      (hostStatus (linkShown sp w s).host)) (linkShown sp w s) := by
  have hguard : (s.host.linkUp && linkMode sp w) = true := by simp [hup, hmode]
  exact if_pos hguard

/-- Settles O48: the link's state and the new mode decide whether the event is dropped or counted and raised. -/
theorem linkChangeCounted : Obligations.LinkChangeCounted := by
  unfold Obligations.LinkChangeCounted
  intro sp w s
  refine ⟨?down, ?up⟩
  case down =>
    intro hdown
    rw [exec_linkChange, linkChange_of_linkDown hdown]
  case up =>
    intro hup hmode
    rw [exec_linkChange, linkChange_of_linkUp hup hmode]
    rfl

end Sys2Proof.Proofs
end

section
/-! PROOFS. What an operation keeps, said once for each operation of the model: the queue of waiting commands, the board, the
keeping array, both banks and the firmware window, and for most of them DRAM. A command's frame follows by `simp`. -/
namespace Sys2Proof.Proofs

open Sys2Proof Sys2Proof.Machine Sys2Proof.Laws

/-- Between the two states the queue of waiting commands, the board, the keeping array, both configuration banks and the
firmware window are the same. -/
@[simp] abbrev Kept (s t : State) : Prop :=
  t.pending = s.pending ∧ t.board = s.board ∧ t.keep.array = s.keep.array ∧ t.cfg.active = s.cfg.active ∧
    t.cfg.shadow = s.cfg.shadow ∧ t.dev.fwWindow = s.dev.fwWindow

/-- The same, and DRAM as well. -/
@[simp] abbrev KeptDram (s t : State) : Prop := Kept s t ∧ t.dram = s.dram

theorem Kept.trans {s t u : State} (a : Kept s t) (b : Kept t u) : Kept s u := by
  simp_all

@[simp] theorem forEach_kept {α : Type} {f : α → State → State} (h : ∀ a s, Kept s (f a s)) (l : List α) (s : State) :
    Kept s (forEach l f s) :=
  forEach_invariant (P := Kept s) (fun a _ hs => hs.trans (h a _)) l s ⟨rfl, rfl, rfl, rfl, rfl, rfl⟩

theorem KeptDram.trans {s t u : State} (a : KeptDram s t) (b : KeptDram t u) : KeptDram s u := by
  simp_all

@[simp] theorem forEach_keptDram {α : Type} {f : α → State → State} (h : ∀ a s, KeptDram s (f a s)) (l : List α)
    (s : State) : KeptDram s (forEach l f s) :=
  forEach_invariant (P := KeptDram s) (fun a _ hs => hs.trans (h a _)) l s ⟨⟨rfl, rfl, rfl, rfl, rfl, rfl⟩, rfl⟩

@[simp] theorem ite_pending (c : Prop) [Decidable c] (s t : State) :
    (if c then s else t).pending = if c then s.pending else t.pending := apply_ite ..
@[simp] theorem ite_board (c : Prop) [Decidable c] (s t : State) :
    (if c then s else t).board = if c then s.board else t.board := apply_ite ..
@[simp] theorem ite_keep (c : Prop) [Decidable c] (s t : State) :
    (if c then s else t).keep = if c then s.keep else t.keep := apply_ite ..
@[simp] theorem ite_cfg (c : Prop) [Decidable c] (s t : State) :
    (if c then s else t).cfg = if c then s.cfg else t.cfg := apply_ite ..
@[simp] theorem ite_dev (c : Prop) [Decidable c] (s t : State) :
    (if c then s else t).dev = if c then s.dev else t.dev := apply_ite ..
@[simp] theorem ite_dram (c : Prop) [Decidable c] (s t : State) :
    (if c then s else t).dram = if c then s.dram else t.dram := apply_ite ..
@[simp] theorem ite_array (c : Prop) [Decidable c] (s t : Keep) :
    (if c then s else t).array = if c then s.array else t.array := apply_ite ..
@[simp] theorem ite_active (c : Prop) [Decidable c] (s t : CfgBanks) :
    (if c then s else t).active = if c then s.active else t.active := apply_ite ..
@[simp] theorem ite_shadow (c : Prop) [Decidable c] (s t : CfgBanks) :
    (if c then s else t).shadow = if c then s.shadow else t.shadow := apply_ite ..
@[simp] theorem ite_window (c : Prop) [Decidable c] (s t : Dev) :
    (if c then s else t).fwWindow = if c then s.fwWindow else t.fwWindow := apply_ite ..
@[simp] theorem foldl_kept {α : Type} {f : State → α → State} (h : ∀ s a, Kept s (f s a)) (l : List α) (s : State) :
    Kept s (l.foldl f s) := forEach_kept (f := fun a s => f s a) (fun a s => h s a) l s
@[simp] theorem foldl_keptDram {α : Type} {f : State → α → State} (h : ∀ s a, KeptDram s (f s a)) (l : List α) (s : State) :
    KeptDram s (l.foldl f s) := forEach_keptDram (f := fun a s => f s a) (fun a s => h s a) l s

theorem KeptDram.refl (s : State) : KeptDram s s := ⟨⟨rfl, rfl, rfl, rfl, rfl, rfl⟩, rfl⟩
theorem Kept.refl (s : State) : Kept s s := (KeptDram.refl s).1

theorem KeptDram.ite {c : Prop} [Decidable c] {s t u : State} (ht : KeptDram s t) (hu : KeptDram s u) :
    KeptDram s (if c then t else u) := by
  split
  · exact ht
  · exact hu

theorem Kept.ite {c : Prop} [Decidable c] {s t u : State} (ht : Kept s t) (hu : Kept s u) : Kept s (if c then t else u) := by
  split
  · exact ht
  · exact hu

@[simp] theorem modMemc_kept (f) (s : State) : KeptDram s (modMemc f s) := ⟨⟨rfl, rfl, rfl, rfl, rfl, rfl⟩, rfl⟩
@[simp] theorem modHold_kept (f) (s : State) : KeptDram s (modHold f s) := ⟨⟨rfl, rfl, rfl, rfl, rfl, rfl⟩, rfl⟩

@[simp] theorem endLock_kept (s : State) : KeptDram s (endLock s) := by simp [endLock]

@[simp] theorem holdoverNext_kept (cause) (s : State) : KeptDram s (holdoverNext cause s) := by simp [holdoverNext]

@[simp] theorem memcFollow_kept (rate) (s : State) : KeptDram s (memcFollow rate s) := by simp [memcFollow]

@[simp] theorem startFirmware_kept (fromHost header) (s : State) :
    KeptDram s (startFirmware fromHost header s) := by simp [startFirmware]

@[simp] theorem hostWriteRo_kept (ro a bs) (s : State) : KeptDram s (hostWriteRo ro a bs s) := by simp [hostWriteRo]

@[simp] theorem emitMsix_kept (v) (s : State) : KeptDram s (emitMsix v s) := by simp [emitMsix]

@[simp] theorem sendVector_kept (v) (s : State) : KeptDram s (sendVector v s) := by simp [sendVector]

@[simp] theorem postHeld_kept (s : State) : KeptDram s (postHeld s) := by
  unfold postHeld; split <;> simp

@[simp] theorem postAll_kept (x0) (s : State) : KeptDram s (postAll x0 s) := by
  induction x0 generalizing s with
  | zero => simp [postAll]
  | succ n ih => unfold postAll; split <;> simp [ih]

@[simp] theorem modMbox_kept (mgmt f) (s : State) : KeptDram s (modMbox mgmt f s) := by simp [modMbox]

@[simp] theorem mboxShow_kept (mgmt) (s : State) : KeptDram s (mboxShow mgmt s) := by
  unfold mboxShow; split <;> simp

@[simp] theorem sendParts_kept (h ps) (s : State) : KeptDram s (sendParts h ps s) := by
  unfold sendParts; split <;> simp

@[simp] theorem runAtTick_keptDram {h op} {f : State → State} (hf : ∀ s, KeptDram s (f s)) (s : State) :
    KeptDram s (runAtTick h op f s) := by
  rcases runAtTick_cases h op f s with e | e | e <;> rw [e]
  · exact KeptDram.refl s
  · simp
  · simpa using hf (modCmdq _ s)

@[simp] theorem runAtTick_kept {h op} {f : State → State} (hf : ∀ s, Kept s (f s)) (s : State) :
    Kept s (runAtTick h op f s) := by
  rcases runAtTick_cases h op f s with e | e | e <;> rw [e]
  · exact Kept.refl s
  · simp
  · simpa using hf (modCmdq _ s)

@[simp] theorem blendSet_kept (h mask k) (s : State) : KeptDram s (blendSet h mask k s) := by simp [blendSet]

@[simp] theorem keepOwn_kept (ring payload) (s : State) : KeptDram s (keepOwn ring payload s) := by simp [keepOwn]

@[simp] theorem logCapture_kept (c) (s : State) : KeptDram s (logCapture c s) := by simp [logCapture]

@[simp] theorem raiseOne_kept (r) (s : State) : KeptDram s (raiseOne r s) := by simp [raiseOne]

@[simp] theorem raiseErrs_kept (l) (s : State) : KeptDram s (raiseErrs l s) := by
  unfold raiseErrs; dsimp only; split <;> simp

@[simp] theorem raiseErr_kept (e) (s : State) : KeptDram s (raiseErr e s) := by simp [raiseErr]

@[simp] theorem linkChange_kept (speed width) (s : State) : KeptDram s (linkChange speed width s) := by simp [linkChange]

@[simp] theorem dropFrame_kept (m) (s : State) : KeptDram s (dropFrame m s) := by simp [dropFrame]

@[simp] theorem loseDelivery_kept (m) (s : State) : KeptDram s (loseDelivery m s) := by simp [loseDelivery]

@[simp] theorem loseDeliveries_kept (s : State) : KeptDram s (loseDeliveries s) := by simp [loseDeliveries]

@[simp] theorem vddaMeasure_kept (mv) (s : State) : KeptDram s (vddaMeasure mv s) := by simp [vddaMeasure]

@[simp] theorem modConv_kept (c f) (s : State) : KeptDram s (modConv c f s) := by simp [modConv]

@[simp] theorem hkGo_kept (c i) (s : State) : KeptDram s (hkGo c i s) := by
  unfold hkGo; split <;> simp

@[simp] theorem hkWrite_kept (e sum) (s : State) : KeptDram s (hkWrite e sum s) := by simp [hkWrite]

@[simp] theorem hkTest_kept (e sum) (s : State) : KeptDram s (hkTest e sum s) := by simp [hkTest]

@[simp] theorem hkEntryEnd_kept (c codes) (s : State) : KeptDram s (hkEntryEnd c codes s) := by simp [hkEntryEnd]

@[simp] theorem writeKeepReg_kept (o v) (s : State) : KeptDram s (writeKeepReg o v s) := by simp [writeKeepReg]

@[simp] theorem keepCheck_kept (a n) (s : State) : KeptDram s (keepCheck a n s) := by simp [keepCheck]

@[simp] theorem resolveRing_kept (r) (s : State) : KeptDram s (resolveRing r s) := by simp [resolveRing]

@[simp] theorem indexRing_kept (r) (s : State) : KeptDram s (indexRing r s) := by simp [indexRing]

@[simp] theorem serveRead_kept (w) (s : State) : KeptDram s (serveRead w s) := by
  unfold serveRead; split
  · simp
  · dsimp only; split
    · simp
    · split <;> simp
  · simp

@[simp] theorem beginScrub_kept (s : State) : KeptDram s (beginScrub s) := by
  unfold beginScrub; split <;> simp

/-- One turn of the queue's service. -/
def keepTurn (acc : List KeepWork × State) (w : KeepWork) : List KeepWork × State :=
  if isRead w && !stalls acc.2 acc.1 w then (acc.1, serveRead w acc.2) else (acc.1 ++ [w], acc.2)

theorem keepPump_eq (s : State) : keepPump s =
    let r := s.keep.queue.foldl keepTurn ([], modKeep (fun k => { k with queue := [] }) s)
    beginScrub (modKeep (fun k => { k with queue := r.1 ++ k.queue }) r.2) := rfl

theorem keepTurns_kept (l : List KeepWork) (acc : List KeepWork × State) : KeptDram acc.2 (l.foldl keepTurn acc).2 := by
  induction l generalizing acc with
  | nil => simp
  | cons w l ih =>
    refine KeptDram.trans ?_ (ih _)
    unfold keepTurn; split <;> simp

@[simp] theorem keepPump_kept (s : State) : KeptDram s (keepPump s) := by
  rw [keepPump_eq]
  have h := keepTurns_kept s.keep.queue ([], modKeep (fun k => { k with queue := [] }) s)
  exact KeptDram.trans (by simp) (h.trans (by simp))

@[simp] theorem keepDone_kept (s : State) : KeptDram s (keepDone s) := by simp [keepDone]

@[simp] theorem workReply_kept (w st ws) (s : State) : KeptDram s (workReply w st ws s) := by
  unfold workReply; split <;> simp

@[simp] theorem writeSync_kept (o v) (s : State) : KeptDram s (writeSync o v s) := by
  unfold writeSync; split <;> simp

@[simp] theorem nop_kept (h) (s : State) : KeptDram s (nop h s) := by simp [nop]

@[simp] theorem bar0Miss_kept (a write) (s : State) : KeptDram s (bar0Miss a write s) := by simp [bar0Miss]

@[simp] theorem bar0Read_kept (a) (s : State) : KeptDram s (bar0Read a s).2.2 := by
  unfold bar0Read; split <;> simp

@[simp] theorem readWords_kept (n a) (s : State) : KeptDram s (readWords n a s).2 := by
  induction n generalizing a s with
  | zero => simp [readWords]
  | succ n ih => simp [readWords, ih]

@[simp] theorem readRegs_kept (h addr count) (s : State) : KeptDram s (readRegs h addr count s) := by
  simp [readRegs]

@[simp] theorem fwGo_kept (s : State) : KeptDram s (fwGo s) := by simp [fwGo]

@[simp] theorem writeDev_kept (o v) (s : State) : KeptDram s (writeDev o v s) := by
  unfold writeDev; split <;> simp

@[simp] theorem ackClass_kept (c) (s : State) : KeptDram s (ackClass c s) := by simp [ackClass]

@[simp] theorem writeErr_kept (o v) (s : State) : KeptDram s (writeErr o v s) := by simp [writeErr]

@[simp] theorem parkWrite_kept (v) (s : State) : KeptDram s (parkWrite v s) := by simp [parkWrite]

@[simp] theorem writeTickReg_kept (o v) (s : State) : KeptDram s (writeTickReg o v s) := by
  unfold writeTickReg; split <;> simp

@[simp] theorem mboxCmdWrite_kept (mgmt i v) (s : State) : KeptDram s (mboxCmdWrite mgmt i v s) := by simp [mboxCmdWrite]

@[simp] theorem caravanEnable_kept (s : State) : KeptDram s (caravanEnable s) := by simp [caravanEnable]

@[simp] theorem caravanClear_kept (s : State) : KeptDram s (caravanClear s) := by simp [caravanClear]

@[simp] theorem writeRingReg_kept (f) (s : State) : KeptDram s (writeRingReg f s) := by simp [writeRingReg]

@[simp] theorem writeTail_kept (v) (s : State) : KeptDram s (writeTail v s) := by simp [writeTail]

@[simp] theorem writeRplCons_kept (v) (s : State) : KeptDram s (writeRplCons v s) := by simp [writeRplCons]

@[simp] theorem lateEvent_kept (h) (s : State) : KeptDram s (lateEvent h s) := by simp [lateEvent]

@[simp] theorem takeIn_kept (q e) (s : State) : KeptDram s (takeIn q e s) := by
  unfold takeIn; split <;> simp

@[simp] theorem startLoadCheck_kept (q e) (s : State) : KeptDram s (startLoadCheck q e s) := by
  unfold startLoadCheck; split <;> simp

@[simp] theorem packetArrival_kept (path ws) (s : State) : KeptDram s (packetArrival path ws s) := by
  unfold packetArrival; (repeat' split) <;> simp

@[simp] theorem mboxGo_kept (mgmt) (s : State) : KeptDram s (mboxGo mgmt s) := by simp [mboxGo]

@[simp] theorem mboxNext_kept (mgmt) (s : State) : KeptDram s (mboxNext mgmt s) := by simp [mboxNext]

@[simp] theorem writeMboxCtrl_kept (mgmt v) (s : State) : KeptDram s (writeMboxCtrl mgmt v s) := by simp [writeMboxCtrl]

@[simp] theorem writeCmdq_kept (o v) (s : State) : KeptDram s (writeCmdq o v s) := by
  unfold writeCmdq; (repeat' split) <;> simp

@[simp] theorem msixWrite_kept (i v) (s : State) : KeptDram s (msixWrite i v s) := by simp [msixWrite]

@[simp] theorem writeStrCons_kept (m v) (s : State) : KeptDram s (writeStrCons m v s) := by simp [writeStrCons]

@[simp] theorem writeConsCur_kept (m hi v) (s : State) : KeptDram s (writeConsCur m hi v s) := by simp [writeConsCur]

@[simp] theorem writeHost_kept (o v) (s : State) : KeptDram s (writeHost o v s) := by
  unfold writeHost; (repeat' split) <;> simp

@[simp] theorem hashWrite_kept (i w) (s : State) : Kept s (hashWrite i w s) := by simp [hashWrite]

@[simp] theorem writeMemc_kept (o v) (s : State) : Kept s (writeMemc o v s) := by simp [writeMemc]

@[simp] theorem writeMemch_kept (n o v) (s : State) : KeptDram s (writeMemch n o v s) := by simp [writeMemch]

@[simp] theorem shutFaultClr_kept (hi mask) (s : State) : KeptDram s (shutFaultClr hi mask s) := by simp [shutFaultClr]

@[simp] theorem writeShut_kept (o v) (s : State) : KeptDram s (writeShut o v s) := by
  unfold writeShut; split <;> simp

@[simp] theorem hkAsk_kept (h) (s : State) : KeptDram s (hkAsk h s) := by simp [hkAsk]

@[simp] theorem hkSelfcalWrite_kept (s : State) : KeptDram s (hkSelfcalWrite s) := by simp [hkSelfcalWrite]

@[simp] theorem hkStartPass_kept (s : State) : KeptDram s (hkStartPass s) := by simp [hkStartPass]

@[simp] theorem hkTrigger_kept (s : State) : KeptDram s (hkTrigger s) := by simp [hkTrigger]

@[simp] theorem hkSoftTrigger_kept (s : State) : KeptDram s (hkSoftTrigger s) := by simp [hkSoftTrigger]

@[simp] theorem writeHkadc_kept (o v) (s : State) : KeptDram s (writeHkadc o v s) := by
  unfold writeHkadc; split <;> simp

@[simp] theorem modSpc_kept (f) (s : State) : KeptDram s (modSpc f s) := by simp [modSpc]

@[simp] theorem spcWrite_keptDram {f : State → State} (hf : ∀ s, KeptDram s (f s)) (s : State) :
    KeptDram s (spcWrite f s) := by
  unfold spcWrite; split
  · exact hf s
  · simp

@[simp] theorem spcWrite_kept {f : State → State} (hf : ∀ s, Kept s (f s)) (s : State) : Kept s (spcWrite f s) := by
  unfold spcWrite; split
  · exact hf s
  · simp

@[simp] theorem spcPop_kept (s : State) : KeptDram s (spcPop s) := by simp [spcPop]

@[simp] theorem spcRelease_kept (s : State) : KeptDram s (spcRelease s) := by simp [spcRelease]

@[simp] theorem spcEnd_kept (s : State) : KeptDram s (spcEnd s) := by simp [spcEnd]

@[simp] theorem spcAbort_kept (s : State) : KeptDram s (spcAbort s) := by simp [spcAbort]

@[simp] theorem spcNext_kept (s : State) : KeptDram s (spcNext s) := by
  unfold spcNext; split <;> simp

@[simp] theorem spcGo_kept (sel hold count) (s : State) : KeptDram s (spcGo sel hold count s) := by simp [spcGo]

@[simp] theorem writeSpcCmd_kept (v) (s : State) : KeptDram s (writeSpcCmd v s) := by simp [writeSpcCmd]

@[simp] theorem spcPush_kept (v) (s : State) : KeptDram s (spcPush v s) := by simp [spcPush]

@[simp] theorem writeSpc_kept (o v) (s : State) : KeptDram s (writeSpc o v s) := by
  unfold writeSpc; (repeat' split) <;> simp

@[simp] theorem writeSpt_kept (o v) (s : State) : KeptDram s (writeSpt o v s) := by
  unfold writeSpt; split <;> simp

@[simp] theorem hostReadGo_kept (t addr) (s : State) : KeptDram s (hostReadGo t addr s) := by
  unfold hostReadGo; dsimp only; split
  · simp
  · split <;> simp

@[simp] theorem writeTile_kept (t o v) (s : State) : KeptDram s (writeTile t o v s) := by
  unfold writeTile; split <;> simp

@[simp] theorem writeEng_kept (e o v) (s : State) : KeptDram s (writeEng e o v s) := by
  unfold writeEng; split <;> simp

@[simp] theorem readMap_kept (h ofs count) (s : State) : KeptDram s (readMap h ofs count s) := by simp [readMap]

@[simp] theorem setTime_kept (h v) (s : State) : KeptDram s (setTime h v s) := by simp [setTime]

@[simp] theorem commitShadow_kept (h bytes crc) (s : State) :
    KeptDram s (commitShadow h bytes crc s) := by simp [commitShadow]

@[simp] theorem countAbandon_kept (t) (s : State) : KeptDram s (countAbandon t s) := by simp [countAbandon]

@[simp] theorem requestCoil_kept (t close) (s : State) : KeptDram s (requestCoil t close s) := by simp [requestCoil]

@[simp] theorem calToOpen_kept (t cause) (s : State) : KeptDram s (calToOpen t cause s) := by simp [calToOpen]

@[simp] theorem calAnswer_kept (t rec) (s : State) : KeptDram s (calAnswer t rec s) := by simp [calAnswer]

@[simp] theorem setDue_kept (t) (s : State) : KeptDram s (setDue t s) := by simp [setDue]

@[simp] theorem calAbandoned_kept (t cause last) (s : State) :
    KeptDram s (calAbandoned t cause last s) := by simp [calAbandoned]

@[simp] theorem calComplete_kept (t cause last) (s : State) :
    KeptDram s (calComplete t cause last s) := by simp [calComplete]

@[simp] theorem calSwap_kept (t) (s : State) : KeptDram s (calSwap t s) := by
  unfold calSwap; simp only []; split <;> simp

@[simp] theorem lincalDrop_kept (t) (s : State) : KeptDram s (lincalDrop t s) := by simp [lincalDrop]

@[simp] theorem calLeave_kept (t cause) (s : State) : KeptDram s (calLeave t cause s) := by
  unfold calLeave; simp only []; split <;> simp

@[simp] theorem modMoves_kept (p f) (s : State) : KeptDram s (modMoves p f s) := by simp [modMoves]

@[simp] theorem dropRequests_kept (t) (s : State) : KeptDram s (dropRequests t s) := by simp [dropRequests]

@[simp] theorem groupIdle_kept (g) (s : State) : KeptDram s (groupIdle g s) := by simp [groupIdle]

@[simp] theorem beginRelease_kept (t) (s : State) : KeptDram s (beginRelease t s) := by simp [beginRelease]

@[simp] theorem releaseCoil_kept (t) (s : State) : KeptDram s (releaseCoil t s) := by
  unfold releaseCoil; simp only []; split <;> simp

@[simp] theorem portChange_keptDram {t} {f : State → State} (hf : ∀ s, KeptDram s (f s)) (s : State) :
    KeptDram s (portChange t f s) := by
  have := hf s
  unfold portChange; dsimp only; split <;> split <;> simp_all

@[simp] theorem portChange_kept {t} {f : State → State} (hf : ∀ s, Kept s (f s)) (s : State) :
    Kept s (portChange t f s) := by
  have := hf s
  unfold portChange; dsimp only; split <;> split <;> simp_all

@[simp] theorem parkPulse_kept (t) (s : State) : KeptDram s (parkPulse t s) := by simp [parkPulse]

@[simp] theorem shutPort_kept (t) (s : State) : KeptDram s (shutPort t s) := by simp [shutPort]

@[simp] theorem enterPrepare_kept (t) (s : State) : KeptDram s (enterPrepare t s) := by simp [enterPrepare]

@[simp] theorem swapPort_kept (old new t) (s : State) : KeptDram s (swapPort old new t s) := by
  unfold swapPort; (repeat' split) <;> simp

@[simp] theorem swapTables_kept (old new t) (s : State) : KeptDram s (swapTables old new t s) := by simp [swapTables]

@[simp] theorem reloadTaps_kept (t) (s : State) : KeptDram s (reloadTaps t s) := by simp [reloadTaps]

@[simp] theorem swapLane_kept (old new t) (s : State) : KeptDram s (swapLane old new t s) := by simp [swapLane]

@[simp] theorem setDbufNext_kept (k x) (s : State) : KeptDram s (setDbufNext k x s) := by simp [setDbufNext]

@[simp] theorem swapBuffer_kept (old new k) (s : State) : KeptDram s (swapBuffer old new k s) := by simp [swapBuffer]

@[simp] theorem moveReplies_kept (s : State) : KeptDram s (moveReplies s) := by simp [moveReplies]

@[simp] theorem swapGroup_kept (old new g) (s : State) : KeptDram s (swapGroup old new g s) := by simp [swapGroup]

@[simp] theorem swapStream_kept (old new m) (s : State) : KeptDram s (swapStream old new m s) := by simp [swapStream]

@[simp] theorem holdEnter_kept (st) (s : State) : KeptDram s (holdEnter st s) := by simp [holdEnter]

@[simp] theorem holdNoWait_kept (s : State) : KeptDram s (holdNoWait s) := by simp [holdNoWait]

@[simp] theorem holdRestart_kept (has) (s : State) : KeptDram s (holdRestart has s) := by simp [holdRestart]

@[simp] theorem holdUndelivered_kept (s : State) : KeptDram s (holdUndelivered s) := by simp [holdUndelivered]

@[simp] theorem swapHold_kept (old new) (s : State) : KeptDram s (swapHold old new s) := by simp [swapHold]

@[simp] theorem hkRun_kept (s : State) : KeptDram s (hkRun s) := by simp [hkRun]

@[simp] theorem hkInject_kept (s : State) : KeptDram s (hkInject s) := by simp [hkInject]

@[simp] theorem hkStart_kept (s : State) : KeptDram s (hkStart s) := by simp [hkStart]

@[simp] theorem hkStop_kept (s : State) : KeptDram s (hkStop s) := by simp [hkStop]

@[simp] theorem swapHk_kept (old new) (s : State) : KeptDram s (swapHk old new s) := by simp [swapHk]

@[simp] theorem swapDue_kept (old) (s : State) : KeptDram s (swapDue old s) := by
  unfold swapDue; split <;> simp

@[simp] theorem swapRotation_kept (old new) (s : State) : KeptDram s (swapRotation old new s) := by simp [swapRotation]

@[simp] theorem fillCredits_kept (s : State) : KeptDram s (fillCredits s) := by
  unfold fillCredits; split <;> simp

@[simp] theorem swapThaw_kept (s : State) : KeptDram s (swapThaw s) := by simp [swapThaw]

@[simp] theorem cfgStatus_kept (h) (s : State) : KeptDram s (cfgStatus h s) := by simp [cfgStatus]

@[simp] theorem enterImaging_kept (t) (s : State) : KeptDram s (enterImaging t s) := by simp [enterImaging]

@[simp] theorem startImaging_kept (s : State) : KeptDram s (startImaging s) := by simp [startImaging]

@[simp] theorem startCmd_kept (h) (s : State) : KeptDram s (startCmd h s) := by simp [startCmd]

@[simp] theorem endReplay_kept (s : State) : KeptDram s (endReplay s) := by
  unfold endReplay; split <;> simp

@[simp] theorem portToReady_kept (cause t) (s : State) : KeptDram s (portToReady cause t s) := by simp [portToReady]

@[simp] theorem stopImaging_kept (s : State) : KeptDram s (stopImaging s) := by simp [stopImaging]

@[simp] theorem stopCmd_kept (h) (s : State) : KeptDram s (stopCmd h s) := by simp [stopCmd]

@[simp] theorem takeTable_kept (w base) (s : State) : KeptDram s (takeTable w base s) := by
  unfold takeTable; split <;> simp

@[simp] theorem tableLoad_kept (h w base crc) (s : State) : KeptDram s (tableLoad h w base crc s) := by
  refine runAtTick_keptDram (fun s => ?_) s
  split
  · simp
  · split
    · simp
    · split
      · simp
      · split <;> simp

@[simp] theorem dramPut_kept (a bs) (s : State) : Kept s (dramPut a bs s) := by simp [dramPut]

@[simp] theorem redirect_kept (w dest) (s : State) : KeptDram s (redirect w dest s) := by simp [redirect]

@[simp] theorem tableSave_kept (h w dest withCrc) (s : State) : Kept s (tableSave h w dest withCrc s) := by
  refine runAtTick_kept (fun s => ?_) s
  split
  · simp
  · split <;> simp

@[simp] theorem takeCredit_kept (port cost) (s : State) : KeptDram s (takeCredit port cost s) := by simp [takeCredit]

@[simp] theorem traceCmd_kept (cmd p port) (s : State) : KeptDram s (traceCmd cmd p port s) := by simp [traceCmd]

@[simp] theorem cutHost_kept (s : State) : KeptDram s (cutHost s) := by simp [cutHost]

@[simp] theorem undoWrites_kept (s : State) : Kept s (undoWrites s) := by simp [undoWrites]

@[simp] theorem cutDest_kept (p) (s : State) : Kept s (cutDest p s) := by simp [cutDest]

@[simp] theorem cutSaves_kept (s : State) : Kept s (cutSaves s) := by simp [cutSaves]

@[simp] theorem freezeDue_kept (c) (s : State) : KeptDram s (freezeDue c s) := by
  simp [freezeDue]

@[simp] theorem memFreeze_kept (cause channel port syndrome wordIx addr) (s : State) :
    Kept s (memFreeze cause channel port syndrome wordIx addr s) := by
  unfold memFreeze; split <;> simp

@[simp] theorem eccCheck_kept (line port hits) (s : State) : Kept s (eccCheck line port hits s) := by
  unfold eccCheck; split <;> simp

@[simp] theorem accessLine_kept (port line k hits) (s : State) : Kept s (accessLine port line k hits s) := by
  unfold accessLine; split <;> simp

@[simp] theorem hostLine_kept (line) (s : State) : KeptDram s (hostLine line s) := by
  unfold hostLine; split <;> simp

@[simp] theorem putLine_kept (q d) (s : State) : Kept s (putLine q d s) := by simp [putLine]

@[simp] theorem issue_kept (q hits) (s : State) : Kept s (issue q hits s) := by
  unfold issue
  dsimp only
  generalize hu : accessLine _ _ _ _ _ = u
  have h : Kept s u := by rw [← hu]; exact (modMemc_kept _ s).1.trans ((takeCredit_kept _ _ _).1.trans (accessLine_kept ..))
  refine h.trans ?_
  clear hu h
  split
  · split
    · exact (modMemc_kept ..).1
    · exact ⟨rfl, rfl, rfl, rfl, rfl, rfl⟩
  · split
    · split
      · exact (hostLine_kept ..).1
      · exact ⟨rfl, rfl, rfl, rfl, rfl, rfl⟩
    · split
      · exact ⟨rfl, rfl, rfl, rfl, rfl, rfl⟩
      · exact putLine_kept ..

@[simp] theorem serveFirst_kept (line read) (s : State) : Kept s (serveFirst line read s) := by simp [serveFirst]

@[simp] theorem stageLine_kept (port k hits line) (s : State) :
    Kept s (stageLine port k hits line s) := by simp [stageLine]

@[simp] theorem traffic_kept (port hits l) (s : State) : Kept s (traffic port hits l s) := by simp [traffic]

@[simp] theorem replayPlay_kept (r f) (s : State) : Kept s (replayPlay r f s) := by simp [replayPlay]

@[simp] theorem replayCmd_kept (h rawBase rawStride sideBase n loop) (s : State) :
    Kept s (replayCmd h rawBase rawStride sideBase n loop s) := by
  refine runAtTick_kept (fun s => ?_) s
  refine .ite (by simp) (.ite (by simp) (.ite (by simp) (.ite (by simp) ?_)))
  dsimp only
  generalize hu : replayPlay _ _ s = u
  have h : Kept s u := hu ▸ replayPlay_kept ..
  exact h.trans (by simp)

@[simp] theorem holdFreeze_kept (h post) (s : State) : KeptDram s (holdFreeze h post s) := by
  unfold holdFreeze; split
  · simp
  · dsimp only; split
    · simp
    · simp
    · exact (holdEnter_kept ..).trans (modHold_kept ..)
    · exact modHold_kept ..

@[simp] theorem holdRelease_kept (h force) (s : State) : KeptDram s (holdRelease h force s) := by
  unfold holdRelease; split <;> simp

@[simp] theorem shutterCal_kept (h mask) (s : State) : KeptDram s (shutterCal h mask s) := by simp [shutterCal]

@[simp] theorem shutterMove_kept (h mask close) (s : State) :
    KeptDram s (shutterMove h mask close s) := by simp [shutterMove]

@[simp] theorem hkSelfcal_kept (h) (s : State) : KeptDram s (hkSelfcal h s) := by simp [hkSelfcal]

@[simp] theorem dacLincal_kept (h tile a b) (s : State) : KeptDram s (dacLincal h tile a b s) := by simp [dacLincal]

@[simp] theorem setBusy_kept (mask v) (s : State) : KeptDram s (setBusy mask v s) := by simp [setBusy]

@[simp] theorem dramLost_kept (s : State) : Kept s (dramLost s) := by simp [dramLost]

@[simp] theorem traceRanks_kept (cmd n) (s : State) : KeptDram s (traceRanks cmd n s) := by simp [traceRanks]

@[simp] theorem holdLost_kept (s : State) : KeptDram s (holdLost s) := by simp [holdLost]

@[simp] theorem trainStart_kept (mask) (s : State) : Kept s (trainStart mask s) := by simp [trainStart]

@[simp] theorem memTrain_kept (h mode mask eyeMin mts period) (s : State) :
    Kept s (memTrain h mode mask eyeMin mts period s) := by simp [memTrain]

@[simp] theorem memDiag_kept (h mode pattern invertAlt passes mask start length seed) (s : State) :
    KeptDram s (memDiag h mode pattern invertAlt passes mask start length seed s) := by simp [memDiag]

@[simp] theorem writeIndex_kept (b) (s : State) : Kept s (writeIndex b s) := by simp [writeIndex]

@[simp] theorem memUnfreeze_kept (s : State) : Kept s (memUnfreeze s) := by
  unfold memUnfreeze; simp only []; split <;> simp

@[simp] theorem leaveFrozen_kept (image) (s : State) : KeptDram s (leaveFrozen image s) := by simp [leaveFrozen]

@[simp] theorem memResume_kept (h mode) (s : State) : Kept s (memResume h mode s) := by simp [memResume]

@[simp] theorem keepEnqueue_kept (w) (s : State) : KeptDram s (keepEnqueue w s) := by simp [keepEnqueue]

@[simp] theorem readKeep_kept (h a n) (s : State) : KeptDram s (readKeep h a n s) := by simp [readKeep]

@[simp] theorem writeKeep_kept (h a n ws) (s : State) : KeptDram s (writeKeep h a n ws s) := by simp [writeKeep]

@[simp] theorem appendKeep_kept (h r ws) (s : State) : KeptDram s (appendKeep h r ws s) := by simp [appendKeep]

@[simp] theorem ringReadKeep_kept (h r age) (s : State) : KeptDram s (ringReadKeep h r age s) := by simp [ringReadKeep]

@[simp] theorem protectKeep_kept (h bp) (s : State) : KeptDram s (protectKeep h bp s) := by simp [protectKeep]

@[simp] theorem scrubKeep_kept (h) (s : State) : KeptDram s (scrubKeep h s) := by simp [scrubKeep]

@[simp] theorem enterHoldover_kept (cause) (s : State) : KeptDram s (enterHoldover cause s) := by simp [enterHoldover]

@[simp] theorem joinCmd_kept (h follow) (s : State) : KeptDram s (joinCmd h follow s) := by simp [joinCmd]

@[simp] theorem statusCmd_kept (h) (s : State) : KeptDram s (statusCmd h s) := by simp [statusCmd]

@[simp] theorem assignOn_kept (x0 x1 x2) (s : State) : KeptDram s (assignOn x0 x1 x2 s) := by
  induction x0 generalizing x1 x2 s with
  | zero => simp [assignOn]
  | succ n ih =>
    unfold assignOn
    split
    · split
      · exact ih ..
      · split
        · exact ih ..
        · simp
    · dsimp only
      split <;> simp

@[simp] theorem assignStart_kept (h id tree) (s : State) : KeptDram s (assignStart h id tree s) := by simp [assignStart]

@[simp] theorem assignCmd_kept (h id tree) (s : State) : KeptDram s (assignCmd h id tree s) := by simp [assignCmd]

@[simp] theorem errAck_kept (h classes) (s : State) : KeptDram s (errAck h classes s) := by simp [errAck]

@[simp] theorem drainReqs_kept (x0) (s : State) : Kept s (drainReqs x0 s) := by
  induction x0 generalizing s with
  | zero => simp [drainReqs]
  | succ n ih => unfold drainReqs; split <;> simp [ih]

@[simp] theorem endTransition_kept (s : State) : KeptDram s (endTransition s) := by
  unfold endTransition; split <;> simp

@[simp] theorem traceSelf_kept (cmd) (s : State) : KeptDram s (traceSelf cmd s) := by simp [traceSelf]

@[simp] theorem enterLow_kept (h) (s : State) : Kept s (enterLow h s) := by simp [enterLow]

@[simp] theorem leaveLow_kept (to_) (s : State) : KeptDram s (leaveLow to_ s) := by simp [leaveLow]

@[simp] theorem powerState_kept (h low) (s : State) : Kept s (powerState h low s) := by
  refine runAtTick_kept (fun s => ?_) s
  split <;> simp

@[simp] theorem resetTile_kept (t) (s : State) : KeptDram s (resetTile t s) := by simp [resetTile]

@[simp] theorem abandonSlot_kept (b i cause) (s : State) : KeptDram s (abandonSlot b i cause s) := by simp [abandonSlot]

@[simp] theorem propagate_kept (b x1 x2) (s : State) : KeptDram s (propagate b x1 x2 s) := by
  induction x1 generalizing x2 s with
  | zero => simp [propagate]
  | succ n ih => unfold propagate; dsimp only; split <;> simp [ih]

@[simp] theorem faultSlot_kept (b e i cause) (s : State) : KeptDram s (faultSlot b e i cause s) := by simp [faultSlot]

@[simp] theorem resetEng_kept (e) (s : State) : KeptDram s (resetEng e s) := by
  unfold resetEng; split <;> simp

@[simp] theorem resetShut_kept (s : State) : KeptDram s (resetShut s) := by simp [resetShut]

@[simp] theorem holdReset_kept (s : State) : KeptDram s (holdReset s) := by simp [holdReset]

@[simp] theorem resetHostRegs_kept (s : State) : KeptDram s (resetHostRegs s) := by simp [resetHostRegs]

@[simp] theorem resetHost_kept (s : State) : KeptDram s (resetHost s) := by simp [resetHost]

@[simp] theorem hkReset_kept (s : State) : KeptDram s (hkReset s) := by simp [hkReset]

@[simp] theorem spcReset_kept (s : State) : KeptDram s (spcReset s) := by simp [spcReset]

@[simp] theorem resetMemc_kept (s : State) : Kept s (resetMemc s) := by simp [resetMemc]

@[simp] theorem blockReset_kept {ty i f} {s' : State} (h : blockReset ty i s' = some f) (s : State) : Kept s (f s) := by
  unfold blockReset at h
  split at h <;> try (injection h with h; subst h; simp)
  · split at h
    · injection h with h
      subst h; simp
    · cases h
  · cases h

@[simp] theorem resetBlock_kept (h ty i) (s : State) : Kept s (resetBlock h ty i s) := by
  refine runAtTick_kept (fun s => ?_) s
  split
  next f hf =>
    have := blockReset_kept hf s
    split <;> simp_all
  next => simp

@[simp] theorem markSlip_kept (s : State) : KeptDram s (markSlip s) := by
  unfold markSlip; split
  · simp
  · dsimp only; split <;> simp

@[simp] theorem finishPrepare_kept (t) (s : State) : KeptDram s (finishPrepare t s) := by simp [finishPrepare]

@[simp] theorem firstReadings_kept (t) (s : State) : KeptDram s (firstReadings t s) := by simp [firstReadings]

@[simp] theorem evalDue_kept (t) (s : State) : KeptDram s (evalDue t s) := by simp [evalDue]

@[simp] theorem calStart_kept (t) (s : State) : KeptDram s (calStart t s) := by simp [calStart]

@[simp] theorem calTry_kept (t) (s : State) : KeptDram s (calTry t s) := by simp [calTry]

@[simp] theorem rotate_kept (s : State) : KeptDram s (rotate s) := by simp [rotate]

@[simp] theorem driftTerms_kept (t) (s : State) : KeptDram s (driftTerms t s) := by simp [driftTerms]

@[simp] theorem sideStart_kept (s : State) : KeptDram s (sideStart s) := by
  unfold sideStart; split <;> simp

@[simp] theorem modWork_kept (t f) (s : State) : KeptDram s (modWork t f s) := by simp [modWork]

@[simp] theorem fetchAhead_kept (t r) (s : State) : KeptDram s (fetchAhead t r s) := by simp [fetchAhead]

@[simp] theorem laneStart_kept (t) (s : State) : KeptDram s (laneStart t s) := by
  unfold laneStart; dsimp only
  split
  · simp
  · split <;> simp

@[simp] theorem putStatus_kept (b t st hits) (s : State) : Kept s (putStatus b t st hits s) := by simp [putStatus]

@[simp] theorem clearStatus_kept (s : State) : Kept s (clearStatus s) := by
  unfold clearStatus
  split
  · exact .ite (forEach_kept (fun t s => putStatus_kept _ t 0 [] s) _ s) (Kept.refl s)
  · exact Kept.refl s

@[simp] theorem beginFrame_kept (s : State) : Kept s (beginFrame s) := by simp [beginFrame]

@[simp] theorem diagLine_kept (k hits d) (s : State) : Kept s (diagLine k hits d s) := by simp [diagLine]

@[simp] theorem diagPut_kept (a bs) (s : State) : Kept s (diagPut a bs s) := by simp [diagPut]

@[simp] theorem scanPass_kept (r p) (s : State) : Kept s (scanPass s r p) := by simp [scanPass]

@[simp] theorem cmpRecord_kept (r f) (s : State) : KeptDram s (cmpRecord r f s) := by simp [cmpRecord]

@[simp] theorem diagReply_kept (r st c) (s : State) : KeptDram s (diagReply r st c s) := by simp [diagReply]

@[simp] theorem readLines_kept (hits l c) (s : State) : Kept s (readLines hits l c s).2.2 := by
  induction l generalizing c s with
  | nil => simp [readLines]
  | cons x l ih =>
    unfold readLines; dsimp only; split
    · exact diagLine_kept ..
    · exact (diagLine_kept ..).trans (ih ..)

@[simp] theorem diagEnd_kept (failed hits) (s : State) : Kept s (diagEnd failed hits s) := by
  unfold diagEnd; split
  · simp
  · dsimp only; split
    · simp
    · exact (readLines_kept ..).trans (diagReply_kept ..).1
    · simp

@[simp] theorem extentWrite_kept (b m ro w bs) (s : State) :
    KeptDram s (extentWrite b m ro w bs s) := by simp [extentWrite]

@[simp] theorem postExtent_kept (b m h start len) (s : State) :
    KeptDram s (postExtent b m h start len s) := by simp [postExtent]

@[simp] theorem resetRings_kept (s : State) : KeptDram s (resetRings s) := by simp [resetRings]

@[simp] theorem resetConfigSpace_kept (s : State) : KeptDram s (resetConfigSpace s) := by simp [resetConfigSpace]

@[simp] theorem hostReset_kept (s : State) : KeptDram s (hostReset s) := by simp [hostReset]

@[simp] theorem linkGone_kept (s : State) : KeptDram s (linkGone s) := by simp [linkGone]

@[simp] theorem idleDacs_kept (t) (s : State) : KeptDram s (idleDacs t s) := by simp [idleDacs]

@[simp] theorem finishList_kept (t wait) (s : State) : KeptDram s (finishList t wait s) := by simp [finishList]

@[simp] theorem startClock_kept (t) (s : State) : KeptDram s (startClock t s) := by simp [startClock]

@[simp] theorem lockQuad_kept (q) (s : State) : KeptDram s (lockQuad q s) := by simp [lockQuad]

@[simp] theorem startTrans_kept (t lineLow) (s : State) : KeptDram s (startTrans t lineLow s) := by
  unfold startTrans; split <;> simp

@[simp] theorem sweepStart_kept (ch) (s : State) : KeptDram s (sweepStart ch s) := by simp [sweepStart]

@[simp] theorem counterAppend_kept (s : State) : KeptDram s (counterAppend s) := by simp [counterAppend]

@[simp] theorem counterEntry_kept (s : State) : KeptDram s (counterEntry s) := by simp [counterEntry]

@[simp] theorem noteEntry_kept (was) (s : State) : KeptDram s (noteEntry was s) := by simp [noteEntry]

@[simp] theorem caravanFetch_kept (s : State) : KeptDram s (caravanFetch s) := by simp [caravanFetch]

@[simp] theorem countDefers_kept (s : State) : KeptDram s (countDefers s) := by simp [countDefers]

@[simp] theorem storeRect_kept (x m) (s : State) : Kept s (storeRect x m s) := by simp [storeRect]

@[simp] theorem configWrite_kept (w) (s : State) : KeptDram s (configWrite w s) := by simp [configWrite]

@[simp] theorem chTrained_kept (n eyeMin r) (s : State) : KeptDram s (chTrained n eyeMin r s) := by simp [chTrained]

@[simp] theorem portRow_kept (t rstA rstB tstat) (s : State) :
    KeptDram s (portRow t rstA rstB tstat s) := by simp [portRow]

@[simp] theorem writeRow_kept (a size vals) (s : State) : Kept s (writeRow a size vals s) := by simp [writeRow]

@[simp] theorem targetBlind_kept (t r) (s : State) : Kept s (targetBlind t r s) := by
  unfold targetBlind; dsimp only; split
  · exact writeRow_kept ..
  · simp

@[simp] theorem stateBack_kept (t r) (s : State) : Kept s (stateBack t r s) := by simp [stateBack]

@[simp] theorem blindRow_kept (b t r px) (s : State) : Kept s (blindRow b t r px s) := by simp [blindRow]

@[simp] theorem flatField_kept (t r c p v) (s : State) : Kept s (flatField t r c p v s) := by
  unfold flatField; simp only []; split <;> simp

@[simp] theorem heldRow_kept (b t r px) (s : State) : Kept s (heldRow b t r px s) := by simp [heldRow]

@[simp] theorem finishRow_kept (b t r above mid below) (s : State) :
    Kept s (finishRow b t r above mid below s) := by simp [finishRow]

@[simp] theorem activeRow_kept (b t r px) (s : State) : Kept s (activeRow b t r px s) := by simp [activeRow]

@[simp] theorem readRow_kept (b t r codesA codesB late) (s : State) :
    Kept s (readRow b t r codesA codesB late s) := by simp [readRow]

@[simp] theorem placeholderRow_kept (b t r) (s : State) : Kept s (placeholderRow b t r s) := by
  unfold placeholderRow
  exact writeRow_kept ..

@[simp] theorem laneRow_kept (t codesA codesB rstA rstB tstat late full hits) (s : State) :
    Kept s (laneRow t codesA codesB rstA rstB tstat late full hits s) := by
  unfold laneRow; simp only []; split <;> simp

@[simp] theorem countWaits_kept (s : State) : KeptDram s (countWaits s) := by simp [countWaits]

@[simp] theorem sweepJudge_kept (ch eyeMin rd wr) (s : State) :
    KeptDram s (sweepJudge ch eyeMin rd wr s) := by simp [sweepJudge]

@[simp] theorem sweepEnd_kept (ch rd wr) (s : State) : KeptDram s (sweepEnd ch rd wr s) := by
  unfold sweepEnd; split
  · simp
  · dsimp only
    generalize hu : sweepJudge _ _ _ _ _ = u
    have h : KeptDram s u := by rw [← hu]; exact (modMemc_kept _ s).trans (sweepJudge_kept ..)
    refine h.trans ?_
    split
    · simp
    · split
      · simp
      · split <;> simp

@[simp] theorem hkTickOver_kept (s : State) : KeptDram s (hkTickOver s) := by simp [hkTickOver]

@[simp] theorem nextEntry_kept (t) (s : State) : KeptDram s (nextEntry t s) := by simp [nextEntry]

@[simp] theorem faultAtTick_kept (t cause) (s : State) : KeptDram s (faultAtTick t cause s) := by simp [faultAtTick]

@[simp] theorem checkMismatch_kept (t) (s : State) : KeptDram s (checkMismatch t s) := by simp [checkMismatch]

@[simp] theorem transOk_kept (t x data) (s : State) : KeptDram s (transOk t x data s) := by
  unfold transOk; split <;> simp

@[simp] theorem transFail_kept (t x) (s : State) : KeptDram s (transFail t x s) := by
  unfold transFail; split <;> simp

@[simp] theorem endTrans_kept (t answer) (s : State) : KeptDram s (endTrans t answer s) := by
  unfold endTrans; split
  · simp
  · dsimp only; split
    · simp
    · split <;> simp

@[simp] theorem holdPart_kept (hits) (s : State) : Kept s (holdPart hits s) := by
  unfold holdPart; (repeat' split) <;> simp

@[simp] theorem enterFault_kept (t cause) (s : State) : KeptDram s (enterFault t cause s) := by simp [enterFault]

@[simp] theorem portTick_kept (t) (s : State) : KeptDram s (portTick t s) := by
  unfold portTick; dsimp only; split
  · simp
  · split
    · split <;> simp
    · simp

@[simp] theorem enterCompute_kept (t) (s : State) : KeptDram s (enterCompute t s) := by simp [enterCompute]

@[simp] theorem imageFault_kept (t code) (s : State) : KeptDram s (imageFault t code s) := by simp [imageFault]

@[simp] theorem applyMove_kept (t m) (s : State) : KeptDram s (applyMove t m s).1 := by
  unfold applyMove; dsimp only; split
  case h_8 => split <;> simp
  case h_9 =>
    split
    · simp
    · split
      · simp
      · split <;> simp
  all_goals simp

@[simp] theorem decideCal_kept (t) (s : State) : KeptDram s (decideCal t s) := by
  unfold decideCal; split
  · exact (applyMove_kept ..).trans (raiseErrs_kept ..)
  · simp

@[simp] theorem qtempMeasure_kept (t) (s : State) : KeptDram s (qtempMeasure t s) := by simp [qtempMeasure]

@[simp] theorem moveNow_kept (t m) (s : State) : KeptDram s (moveNow t m s) := by
  unfold moveNow; split
  · exact (applyMove_kept ..).trans (raiseErrs_kept ..)
  · simp

@[simp] theorem firmwareCheckEnd_kept (header keyOk sigOk) (s : State) :
    KeptDram s (firmwareCheckEnd header keyOk sigOk s) := by simp [firmwareCheckEnd]

@[simp] theorem noteAccepted_kept (t holdover) (s : State) :
    KeptDram s (noteAccepted t holdover s) := by simp [noteAccepted]

@[simp] theorem endLoadCheck_kept (hits) (s : State) : Kept s (endLoadCheck hits s) := by
  unfold endLoadCheck; split <;> simp

@[simp] theorem cfgParity_kept (ofs64) (s : State) : KeptDram s (cfgParity ofs64 s) := by
  unfold cfgParity; split
  · simp
  · dsimp only; split <;> simp

@[simp] theorem hkPassEnd_kept (s : State) : KeptDram s (hkPassEnd s) := by
  unfold hkPassEnd; split
  · dsimp only
    split
    · simp
    · split <;> simp
  · simp

@[simp] theorem rechop_kept (g code) (s : State) : KeptDram s (rechop g code s) := by
  unfold rechop; split <;> simp

@[simp] theorem modTap_kept (t b f) (s : State) : KeptDram s (modTap t b f s) := by simp [modTap]

@[simp] theorem lincalReplies_kept (s : State) : KeptDram s (lincalReplies s) := by simp [lincalReplies]

@[simp] theorem measure_kept (t b forced j points) (s : State) : KeptDram s (Machine.measure t b forced j points s) := by
  unfold Machine.measure; dsimp only; split <;> simp

@[simp] theorem dropAll_kept (m) (s : State) : KeptDram s (dropAll m s) := by simp [dropAll]

@[simp] theorem freezeChecks_kept (s : State) : KeptDram s (freezeChecks s) := by simp [freezeChecks]

@[simp] theorem unredirect_kept (p) (s : State) : KeptDram s (unredirect p s) := by simp [unredirect]

@[simp] theorem dropSave_kept (p) (s : State) : KeptDram s (dropSave p s) := by simp [dropSave]

@[simp] theorem failSave_kept (st p) (s : State) : KeptDram s (failSave st p s) := by simp [failSave]

@[simp] theorem freezeSaves_kept (s : State) : KeptDram s (freezeSaves s) := by simp [freezeSaves]

@[simp] theorem enterFrozen_kept (s : State) : KeptDram s (enterFrozen s) := by simp [enterFrozen]

@[simp] theorem faultCoils_kept (t) (s : State) : KeptDram s (faultCoils t s) := by simp [faultCoils]

@[simp] theorem linkUp_kept (speed width) (s : State) : KeptDram s (linkUp speed width s) := by simp [linkUp]

@[simp] theorem settleLane_kept (t) (s : State) : KeptDram s (settleLane t s) := by simp [settleLane]

@[simp] theorem overrunStream_kept (m) (s : State) : KeptDram s (overrunStream m s) := by
  unfold overrunStream; (repeat' split) <;> simp

@[simp] theorem holdShow_kept (s : State) : KeptDram s (holdShow s) := by simp [holdShow]

@[simp] theorem recordFrame_kept (b t los causes ovr) (s : State) :
    KeptDram s (recordFrame b t los causes ovr s) := by simp [recordFrame]

@[simp] theorem tstatJudge_kept (t) (s : State) : KeptDram s (tstatJudge t s) := by simp [tstatJudge]

@[simp] theorem putSide_kept (b t st) (s : State) : KeptDram s (putSide b t st s) := by simp [putSide]

@[simp] theorem laneCut_kept (t) (s : State) : Kept s (laneCut t s) := by
  unfold laneCut; split <;> simp

@[simp] theorem startDelivery_kept (m) (s : State) : KeptDram s (startDelivery m s) := by
  unfold startDelivery; split <;> simp

@[simp] theorem lineOk_keptDram {l p} {f : State → State} (hf : ∀ s, KeptDram s (f s)) (s : State) :
    KeptDram s (Machine.lineOk l p f s) := by
  unfold Machine.lineOk; split
  · split
    · exact hf s
    · simp
  · simp

@[simp] theorem lineOk_kept {l p} {f : State → State} (hf : ∀ s, Kept s (f s)) (s : State) :
    Kept s (Machine.lineOk l p f s) := by
  unfold Machine.lineOk; split
  · split
    · exact hf s
    · simp
  · simp

@[simp] theorem startPage_kept (b) (s : State) : KeptDram s (startPage b s) := by
  unfold startPage; split <;> simp

@[simp] theorem setUp_kept (w) (s : State) : KeptDram s (setUp w s).1 := by
  unfold setUp; dsimp only; split <;> simp

@[simp] theorem tryStart_kept (vkeep) (s : State) : KeptDram s (tryStart vkeep s) := by
  unfold tryStart; split
  · simp
  next w l hw =>
    dsimp only
    refine .ite (.refl s) ?_
    generalize hu : modKeep _ s = u
    have h : KeptDram s u := by rw [← hu]; simp
    refine .ite h (h.trans ?_)
    refine .ite ?_ ?_
    · split
      · split <;> simp
      · simp
    · cases hc : u.keep.current with
      | none =>
        simp only [Option.isNone_none, if_true]
        refine (setUp_kept w u).trans ?_
        refine .ite ?_ ?_
        · split <;> simp
        · simp
      | some b =>
        simp only [Option.isNone_some, Bool.false_eq_true, if_false]
        refine .ite ?_ ?_
        · split <;> simp
        · simp

@[simp] theorem serveHost_kept (x0) (s : State) : Kept s (serveHost x0 s) := by
  induction x0 generalizing s with
  | zero => simp [serveHost]
  | succ n ih =>
    unfold serveHost
    split
    · split <;> simp [ih]
    · simp

@[simp] theorem pumpHost_kept (s : State) : Kept s (pumpHost s) := by simp [pumpHost]

@[simp] theorem startStages_kept (s : State) : Kept s (startStages s) := by simp [startStages]

@[simp] theorem modSpt_kept (f) (s : State) : KeptDram s (modSpt f s) := by simp [modSpt]

@[simp] theorem loadTotals_kept (s : State) : KeptDram s (loadTotals s) := by
  unfold loadTotals; dsimp only
  generalize h1 : forEach _ _ s = u
  have hu : KeptDram s u := by
    rw [← h1]
    refine forEach_keptDram (fun t s => ?_) _ s
    split <;> simp
  generalize h2 : forEach _ _ u = v
  have hv : KeptDram u v := by
    rw [← h2]
    refine forEach_keptDram (fun t s => ?_) _ u
    split <;> simp
  refine hu.trans (hv.trans ?_)
  split <;> simp

@[simp] theorem barAccess_keptDram {f : State → State} (hf : ∀ s, KeptDram s (f s)) (s : State) :
    KeptDram s (barAccess f s) := by
  unfold barAccess; split
  · exact KeptDram.refl s
  · exact hf s

@[simp] theorem barAccess_kept {f : State → State} (hf : ∀ s, Kept s (f s)) (s : State) : Kept s (barAccess f s) := by
  unfold barAccess; split
  · exact Kept.refl s
  · exact hf s

@[simp] theorem takeRequest_kept (t r) (s : State) : KeptDram s (takeRequest t r s) := by
  unfold takeRequest; simp only []; split <;> simp

@[simp] theorem takeRequests_kept (t) (s : State) : KeptDram s (takeRequests t s) := by simp [takeRequests]

@[simp] theorem refreshBank_kept (ch sc rk bank) (s : State) :
    KeptDram s (refreshBank ch sc rk bank s) := by simp [refreshBank]

@[simp] theorem refreshDue_kept (ch sc rk) (s : State) : KeptDram s (refreshDue ch sc rk s) := by simp [refreshDue]

@[simp] theorem sendTick_kept (payload) (s : State) : KeptDram s (sendTick payload s) := by simp [sendTick]

@[simp] theorem acceptTick_kept (a t sfn period depth holdover) (s : State) :
    KeptDram s (acceptTick a t sfn period depth holdover s) := by simp [acceptTick]

@[simp] theorem decideRejoin_kept (m depth holdover) (s : State) :
    KeptDram s (decideRejoin m depth holdover s) := by simp [decideRejoin]

@[simp] theorem rejoinMsg_kept (t sfn period depth holdover) (s : State) :
    KeptDram s (rejoinMsg t sfn period depth holdover s) := by simp [rejoinMsg]

@[simp] theorem holdoverMsg_kept (t sfn period depth holdover) (s : State) :
    KeptDram s (holdoverMsg t sfn period depth holdover s) := by simp [holdoverMsg]

@[simp] theorem judgeTick_kept (own a sfn lead period depth holdover) (s : State) :
    KeptDram s (judgeTick own a sfn lead period depth holdover s) := by simp [judgeTick]

@[simp] theorem bar2Miss_kept (d) (s : State) : KeptDram s (bar2Miss d s) := by simp [bar2Miss]

@[simp] theorem arriveReq_kept (q) (s : State) : KeptDram s (arriveReq q s) := by simp [arriveReq]

@[simp] theorem bar2Read_kept (d len past hits) (s : State) :
    KeptDram s (bar2Read d len past hits s) := by simp [bar2Read]

@[simp] theorem bar2Write_kept (d w hits) (s : State) : KeptDram s (bar2Write d w hits s) := by simp [bar2Write]

@[simp] theorem bar2_kept (d write len hits) (s : State) : Kept s (bar2 d write len hits s) := by
  unfold bar2; (repeat' split) <;> simp

@[simp] theorem latchFault_kept (t cause) (s : State) : KeptDram s (latchFault t cause s) := by simp [latchFault]

@[simp] theorem loadDacs_kept (t l) (s : State) : KeptDram s (loadDacs t l s) := by simp [loadDacs]

@[simp] theorem inject_kept (t b lo hi) (s : State) : KeptDram s (inject t b lo hi s).1 := by
  unfold inject; dsimp only; split <;> simp

@[simp] theorem thermo_kept (t l) (s : State) : KeptDram s (thermo t l s).1 := by
  unfold thermo; dsimp only; split <;> simp

@[simp] theorem blankingWork_kept (t la ha lb hb th points) (s : State) : KeptDram s (blankingWork t la ha lb hb th points s) := by
  unfold blankingWork; dsimp only; split
  · simp
  · refine KeptDram.trans ?_ (raiseErrs_kept ..)
    generalize hu : inject t true lb hb _ = u
    have h : KeptDram s u.1 := by
      rw [← hu]
      refine KeptDram.trans ?_ ((inject_kept ..).trans (inject_kept ..))
      split
      · refine KeptDram.trans ?_ (measure_kept ..)
        split <;> simp
      · split <;> simp
    refine h.trans ?_
    split
    · exact KeptDram.trans (by simp) (thermo_kept ..)
    · simp

@[simp] theorem commitEnd_kept (parity) (s : State) : KeptDram s (commitEnd parity s) := by
  unfold commitEnd; split <;> simp

@[simp] theorem stopSlot_kept (b marked i) (s : State) : KeptDram s (stopSlot b marked i s) := by simp [stopSlot]

@[simp] theorem caravanFetchDone_kept (ok words) (s : State) :
    KeptDram s (caravanFetchDone ok words s) := by simp [caravanFetchDone]

@[simp] theorem startSlot_kept (e) (s : State) : KeptDram s (startSlot e s) := by
  unfold startSlot; (repeat' split) <;> simp

@[simp] theorem openBatch_kept (s : State) : KeptDram s (openBatch s) := by simp [openBatch]

@[simp] theorem writeEvents_kept (m b before) (s : State) : KeptDram s (writeEvents m b before s) := by
  unfold writeEvents; split <;> simp

@[simp] theorem eventsAtSlotEnd_kept (b before) (s : State) :
    KeptDram s (eventsAtSlotEnd b before s) := by simp [eventsAtSlotEnd]

@[simp] theorem afterSlots_kept (b before) (s : State) : KeptDram s (afterSlots b before s) := by simp [afterSlots]

@[simp] theorem stopEngine_kept (b marked e) (s : State) : KeptDram s (stopEngine b marked e s) := by simp [stopEngine]

@[simp] theorem stopEngines_kept (s : State) : KeptDram s (stopEngines s) := by
  unfold stopEngines; split <;> simp

@[simp] theorem copyUnread_kept (p) (s : State) : Kept s (copyUnread p s) := by simp [copyUnread]

@[simp] theorem endLaneSave_kept (p) (s : State) : Kept s (endLaneSave p s) := by simp [endLaneSave]

@[simp] theorem laneSavesEnd_kept (s : State) : Kept s (laneSavesEnd s) := by simp [laneSavesEnd]

@[simp] theorem latchEngines_kept (s : State) : KeptDram s (latchEngines s) := by simp [latchEngines]

@[simp] theorem countOverruns_kept (lane eng dma) (s : State) :
    KeptDram s (countOverruns lane eng dma s) := by simp [countOverruns]

@[simp] theorem retain_kept (b) (s : State) : KeptDram s (retain b s) := by simp [retain]

@[simp] theorem holdFrameEnd_kept (s : State) : Kept s (holdFrameEnd s) := by
  unfold holdFrameEnd; split <;> simp

@[simp] theorem endPeriod_kept (s : State) : Kept s (endPeriod s) := by simp [endPeriod]

@[simp] theorem jumpSfn_kept (next sUp) (s : State) : KeptDram s (jumpSfn next sUp s) := by simp [jumpSfn]

@[simp] theorem syncTick_kept (s : State) : KeptDram s (syncTick s) := by
  unfold syncTick; dsimp only; split <;> simp

@[simp] theorem turnTile_kept (t) (s : State) : KeptDram s (turnTile t s) := by simp [turnTile]

@[simp] theorem endSave_kept (p) (s : State) : KeptDram s (endSave p s) := by simp [endSave]

@[simp] theorem settleDbufs_kept (s : State) : Kept s (settleDbufs s) := by simp [settleDbufs]

@[simp] theorem modHost_kept (f) (s : State) : KeptDram s (modHost f s) := KeptDram.refl s

@[simp] theorem turnPeriod_kept (s : State) : Kept s (turnPeriod s) := by
  unfold turnPeriod
  extract_lets s₁ s₂ s₃ s₄ s₅
  have h₂ : Kept s s₂ := by simp [s₂, s₁]
  have h₃ : Kept s₂ s₃ :=
    (settleDbufs_kept s₂).trans (forEach_kept (fun t s => (turnTile_kept t s).1.trans (settleLane_kept t _).1) _ _)
  have h₄ : Kept s₃ s₄ := forEach_kept (fun q s => by simp) _ _
  exact h₂.trans (h₃.trans (h₄.trans ((modMemc_kept _ _).1.trans (modHost_kept _ _).1)))

@[simp] theorem parkCoil_kept (t) (s : State) : KeptDram s (parkCoil t s) := by
  unfold parkCoil; simp only []; split <;> simp

@[simp] theorem parkTick_kept (s : State) : KeptDram s (parkTick s) := by
  unfold parkTick; split <;> simp

@[simp] theorem releaseBatch_kept (s : State) : KeptDram s (releaseBatch s) := by
  unfold releaseBatch; dsimp only; split <;> simp

@[simp] theorem replayMoves_kept (s : State) : KeptDram s (replayMoves s) := by
  unfold replayMoves; split <;> simp

@[simp] theorem replayTick_kept (s : State) : Kept s (replayTick s) := by
  unfold replayTick; split <;> simp

@[simp] theorem hkTick_kept (s : State) : KeptDram s (hkTick s) := by simp [hkTick]

@[simp] theorem coilTick_kept (t) (s : State) : KeptDram s (coilTick t s) := by simp [coilTick]

@[simp] theorem latchBlanking_kept (t) (s : State) : KeptDram s (latchBlanking t s) := by simp [latchBlanking]

@[simp] theorem turnPort_kept (t) (s : State) : KeptDram s (turnPort t s) := by simp [turnPort]

@[simp] theorem holdFreezeDue_kept (s : State) : KeptDram s (holdFreezeDue s) := by simp [holdFreezeDue]

@[simp] theorem decideTick_kept (s : State) : Kept s (decideTick s) := by simp [decideTick]

@[simp] theorem startFrame_kept (park late missed skipped) (s : State) :
    Kept s (startFrame park late missed skipped s) := by simp [startFrame]

@[simp] theorem sendPending_kept (v) (s : State) : KeptDram s (sendPending v s) := by simp [sendPending]

@[simp] theorem saveCopyEnd_kept (table hits) (s : State) : Kept s (saveCopyEnd table hits s) := by
  unfold saveCopyEnd; split <;> simp

@[simp] theorem trainResults_kept (a b c d e) (s : State) : Kept s (trainResults a b c d e s).2 := by
  simp [trainResults]

@[simp] theorem trainEnd_kept (l) (s : State) : Kept s (trainEnd l s) := by
  unfold trainEnd; split
  · simp
  · split <;> simp

@[simp] theorem lowReached_kept (s : State) : KeptDram s (lowReached s) := by simp [lowReached]

@[simp] theorem lowExitDone_kept (s : State) : KeptDram s (lowExitDone s) := by simp [lowExitDone]

@[simp] theorem bar0HostRead_kept (a be) (s : State) : KeptDram s (bar0HostRead a be s) := by
  simp [bar0HostRead]

@[simp] theorem functionReset_kept (s : State) : KeptDram s (functionReset s) := by simp [functionReset]

@[simp] theorem endDelivery_kept (m hits) (s : State) : Kept s (endDelivery m hits s) := by
  unfold endDelivery; split <;> simp

@[simp] theorem arrive_kept (r) (s : State) : KeptDram s (arrive r s) := by simp [arrive]

@[simp] theorem refreshIssue_kept (ch sc rk busy busyRt) (s : State) :
    KeptDram s (refreshIssue ch sc rk busy busyRt s) := by
  unfold refreshIssue; simp only []; split <;> simp

@[simp] theorem unlockTile_kept (t) (s : State) : KeptDram s (unlockTile t s) := by simp [unlockTile]

@[simp] theorem crossing_kept (c) (s : State) : KeptDram s (crossing c s) := by simp [crossing]

@[simp] theorem putStats_kept (b t st) (s : State) : Kept s (putStats b t st s) := by simp [putStats]

@[simp] theorem laneFrameEnd_kept (t hits) (s : State) : Kept s (laneFrameEnd t hits s) := by
  unfold laneFrameEnd; split <;> simp

@[simp] theorem noteMove_kept (t res dip) (s : State) : KeptDram s (noteMove t res dip s) := by simp [noteMove]

@[simp] theorem coilSample_kept (t code) (s : State) : KeptDram s (coilSample t code s) := by
  unfold coilSample; simp only []; split <;> simp

@[simp] theorem chopSample_kept (g code) (s : State) : KeptDram s (chopSample g code s) := by
  unfold chopSample; split <;> simp

@[simp] theorem groupFault_kept (g code) (s : State) : KeptDram s (groupFault g code s) := by simp [groupFault]

@[simp] theorem groupSample_kept (g code) (s : State) : KeptDram s (groupSample g code s) := by
  unfold groupSample; split <;> simp

@[simp] theorem senseSample_kept (codes) (s : State) : KeptDram s (senseSample codes s) := by simp [senseSample]

@[simp] theorem startPullin_kept (t) (s : State) : KeptDram s (startPullin t s) := by simp [startPullin]

@[simp] theorem latchCoil_kept (t code) (s : State) : KeptDram s (latchCoil t code s) := by simp [latchCoil]

@[simp] theorem eventAppend_kept (x data) (s : State) : Kept s (eventAppend x data s) := by simp [eventAppend]

@[simp] theorem holdRingWrite_kept (b h bs) (s : State) : Kept s (holdRingWrite b h bs s) := by simp [holdRingWrite]

@[simp] theorem holdAppend_kept (x data) (s : State) : Kept s (holdAppend x data s) := by simp [holdAppend]

@[simp] theorem storeOp_kept (x) (s : State) : Kept s (storeOp x s) := by
  unfold storeOp; split <;> simp

@[simp] theorem endOperator_kept (e check hits) (s : State) : Kept s (endOperator e check hits s) := by
  unfold endOperator; (repeat' split) <;> simp

@[simp] theorem endSlot_kept (e) (s : State) : KeptDram s (endSlot e s) := by
  unfold endSlot; split <;> simp

@[simp] theorem hkInjectedEnd_kept (c codes) (s : State) : KeptDram s (hkInjectedEnd c codes s) := by
  unfold hkInjectedEnd; split <;> simp

@[simp] theorem hkStore_kept (a b c) (s : State) : KeptDram s (hkStore a b c s).1 := by
  unfold hkStore; split <;> simp

@[simp] theorem hkCalEnd_kept (sl0 sh0 sl1 sh1) (s : State) : KeptDram s (hkCalEnd sl0 sh0 sl1 sh1 s) := by
  unfold hkCalEnd
  simp

@[simp] theorem sendOwnTick_kept (own) (s : State) : KeptDram s (sendOwnTick own s) := by simp [sendOwnTick]

@[simp] theorem syncMeasure_kept (m) (s : State) : KeptDram s (syncMeasure m s) := by simp [syncMeasure]

@[simp] theorem spcWordEnd_kept (rx) (s : State) : KeptDram s (spcWordEnd rx s) := by simp [spcWordEnd]

@[simp] theorem sptFrame_keptDram {c} {f : State → State} (hf : ∀ s, KeptDram s (f s)) (s : State) :
    KeptDram s (sptFrame c f s) := by
  unfold sptFrame; split
  · exact KeptDram.refl s
  · split
    · simp
    · exact hf s

@[simp] theorem sptFrame_kept {c} {f : State → State} (hf : ∀ s, Kept s (f s)) (s : State) :
    Kept s (sptFrame c f s) := by
  unfold sptFrame; split
  · exact Kept.refl s
  · split
    · simp
    · exact hf s

@[simp] theorem sptReadWords_kept (n a) (s : State) : KeptDram s (sptReadWords n a s).2.2 := by
  induction n generalizing a s with
  | zero => simp [sptReadWords]
  | succ n ih => simp [sptReadWords, ih]

@[simp] theorem sptRead_kept (cmd) (s : State) : KeptDram s (sptRead cmd s) := by
  simp [sptRead]

@[simp] theorem sptFetch_kept (cmd) (s : State) : KeptDram s (sptFetch cmd s) := by simp [sptFetch]

@[simp] theorem release_kept (bootsel) (s : State) : KeptDram s (release bootsel s) := by simp [release]

@[simp] theorem sptBad_kept (cmd) (s : State) : KeptDram s (sptBad cmd s) := by
  unfold sptBad; (repeat' split) <;> simp

@[simp] theorem countLife_kept (s : State) : KeptDram s (countLife s) := by simp [countLife]

@[simp] theorem clockTick_kept (s : State) : Kept s (clockTick s) := by
  unfold clockTick; split
  · dsimp only; split <;> simp
  · simp

end Sys2Proof.Proofs
end

section
/-! PROOFS. What an operation of a tick keeps of the time, the SFN, the timed queue, and the count and lock of the active set. -/
namespace Sys2Proof.Proofs

open Sys2Proof Sys2Proof.Machine Sys2Proof.Laws

/-- Between the two states the time of the tick domain, the SFN, the timed queue, the count and lock of the active set, and
a tick to be adopted are the same. -/
@[simp] abbrev Paced (s t : State) : Prop :=
  t.clock = s.clock ∧ t.tick.sfn = s.tick.sfn ∧ t.tick.queue = s.tick.queue ∧ t.cfg.n = s.cfg.n ∧ t.cfg.locked = s.cfg.locked ∧
    t.sync.adopt = s.sync.adopt

theorem Paced.refl (s : State) : Paced s s := ⟨rfl, rfl, rfl, rfl, rfl, rfl⟩

theorem Paced.trans {s t u : State} (a : Paced s t) (b : Paced t u) : Paced s u := by
  simp_all

theorem Paced.ite {c : Prop} [Decidable c] {s t u : State} (ht : Paced s t) (hu : Paced s u) :
    Paced s (if c then t else u) := by
  split
  · exact ht
  · exact hu

@[simp] theorem forEach_paced {α : Type} {f : α → State → State} (h : ∀ a s, Paced s (f a s)) (l : List α) (s : State) :
    Paced s (forEach l f s) :=
  forEach_invariant (P := Paced s) (fun a _ hs => hs.trans (h a _)) l s (Paced.refl s)

@[simp] theorem foldl_paced {α : Type} {f : State → α → State} (h : ∀ s a, Paced s (f s a)) (l : List α) (s : State) :
    Paced s (l.foldl f s) := forEach_paced (f := fun a s => f s a) (fun a s => h s a) l s

@[simp] theorem ite_clock (c : Prop) [Decidable c] (s t : State) :
    (if c then s else t).clock = if c then s.clock else t.clock := apply_ite ..
@[simp] theorem ite_tick (c : Prop) [Decidable c] (s t : State) :
    (if c then s else t).tick = if c then s.tick else t.tick := apply_ite ..
@[simp] theorem ite_sfn (c : Prop) [Decidable c] (s t : TickBlk) :
    (if c then s else t).sfn = if c then s.sfn else t.sfn := apply_ite ..
@[simp] theorem ite_queue (c : Prop) [Decidable c] (s t : TickBlk) :
    (if c then s else t).queue = if c then s.queue else t.queue := apply_ite ..
@[simp] theorem ite_n (c : Prop) [Decidable c] (s t : CfgBanks) :
    (if c then s else t).n = if c then s.n else t.n := apply_ite ..
@[simp] theorem ite_locked (c : Prop) [Decidable c] (s t : CfgBanks) :
    (if c then s else t).locked = if c then s.locked else t.locked := apply_ite ..
@[simp] theorem ite_sync (c : Prop) [Decidable c] (s t : State) :
    (if c then s else t).sync = if c then s.sync else t.sync := apply_ite ..
@[simp] theorem ite_adopt (c : Prop) [Decidable c] (s t : Sync) :
    (if c then s else t).adopt = if c then s.adopt else t.adopt := apply_ite ..

@[simp] theorem modMemc_paced (f) (s : State) : Paced s (modMemc f s) := Paced.refl _

@[simp] theorem modHold_paced (f) (s : State) : Paced s (modHold f s) := Paced.refl _

@[simp] theorem hostWriteRo_paced (ro a bs) (s : State) : Paced s (hostWriteRo ro a bs s) := by simp [hostWriteRo]

@[simp] theorem emitMsix_paced (v) (s : State) : Paced s (emitMsix v s) := by simp [emitMsix]

@[simp] theorem sendVector_paced (v) (s : State) : Paced s (sendVector v s) := by simp [sendVector]

@[simp] theorem postHeld_paced (s : State) : Paced s (postHeld s) := by
  unfold postHeld; split <;> simp

@[simp] theorem postAll_paced (x0) (s : State) : Paced s (postAll x0 s) := by
  induction x0 generalizing s with
  | zero => simp [postAll]
  | succ n ih => unfold postAll; split <;> simp [ih]

@[simp] theorem modMbox_paced (mgmt f) (s : State) : Paced s (modMbox mgmt f s) := by simp [modMbox]

@[simp] theorem mboxShow_paced (mgmt) (s : State) : Paced s (mboxShow mgmt s) := by
  unfold mboxShow; split <;> simp

@[simp] theorem sendParts_paced (h ps) (s : State) : Paced s (sendParts h ps s) := by
  unfold sendParts; split <;> simp

@[simp] theorem keepOwn_paced (ring payload) (s : State) : Paced s (keepOwn ring payload s) := by simp [keepOwn]

@[simp] theorem logCapture_paced (c) (s : State) : Paced s (logCapture c s) := by simp [logCapture]

@[simp] theorem raiseOne_paced (r) (s : State) : Paced s (raiseOne r s) := by simp [raiseOne]

@[simp] theorem raiseErrs_paced (l) (s : State) : Paced s (raiseErrs l s) := by
  unfold raiseErrs; dsimp only; split <;> simp

@[simp] theorem raiseErr_paced (e) (s : State) : Paced s (raiseErr e s) := by simp [raiseErr]

@[simp] theorem dropFrame_paced (m) (s : State) : Paced s (dropFrame m s) := by simp [dropFrame]

@[simp] theorem loseDelivery_paced (m) (s : State) : Paced s (loseDelivery m s) := by simp [loseDelivery]

@[simp] theorem modConv_paced (c f) (s : State) : Paced s (modConv c f s) := by simp [modConv]

@[simp] theorem hkGo_paced (c i) (s : State) : Paced s (hkGo c i s) := by
  unfold hkGo; split <;> simp

@[simp] theorem lateEvent_paced (h) (s : State) : Paced s (lateEvent h s) := by simp [lateEvent]

@[simp] theorem hkStartPass_paced (s : State) : Paced s (hkStartPass s) := by simp [hkStartPass]

@[simp] theorem hkTrigger_paced (s : State) : Paced s (hkTrigger s) := by simp [hkTrigger]

@[simp] theorem countAbandon_paced (t) (s : State) : Paced s (countAbandon t s) := by simp [countAbandon]

@[simp] theorem requestCoil_paced (t close) (s : State) : Paced s (requestCoil t close s) := by simp [requestCoil]

@[simp] theorem calToOpen_paced (t cause) (s : State) : Paced s (calToOpen t cause s) := by simp [calToOpen]

@[simp] theorem calAnswer_paced (t rec) (s : State) : Paced s (calAnswer t rec s) := by simp [calAnswer]

@[simp] theorem setDue_paced (t) (s : State) : Paced s (setDue t s) := by simp [setDue]

@[simp] theorem calAbandoned_paced (t cause last) (s : State) :
    Paced s (calAbandoned t cause last s) := by simp [calAbandoned]

@[simp] theorem calComplete_paced (t cause last) (s : State) :
    Paced s (calComplete t cause last s) := by simp [calComplete]

@[simp] theorem lincalDrop_paced (t) (s : State) : Paced s (lincalDrop t s) := by simp [lincalDrop]

@[simp] theorem calLeave_paced (t cause) (s : State) : Paced s (calLeave t cause s) := by
  unfold calLeave; simp only []; split <;> simp

@[simp] theorem modMoves_paced (p f) (s : State) : Paced s (modMoves p f s) := by simp [modMoves]

@[simp] theorem dropRequests_paced (t) (s : State) : Paced s (dropRequests t s) := by simp [dropRequests]

@[simp] theorem groupIdle_paced (g) (s : State) : Paced s (groupIdle g s) := by simp [groupIdle]

@[simp] theorem beginRelease_paced (t) (s : State) : Paced s (beginRelease t s) := by simp [beginRelease]

@[simp] theorem releaseCoil_paced (t) (s : State) : Paced s (releaseCoil t s) := by
  unfold releaseCoil; simp only []; split <;> simp

@[simp] theorem portChange_paced {t} {f : State → State} (hf : ∀ s, Paced s (f s)) (s : State) :
    Paced s (portChange t f s) := by
  have := hf s
  unfold portChange; dsimp only; split <;> split <;> simp_all

@[simp] theorem parkPulse_paced (t) (s : State) : Paced s (parkPulse t s) := by simp [parkPulse]

@[simp] theorem enterPrepare_paced (t) (s : State) : Paced s (enterPrepare t s) := by simp [enterPrepare]

@[simp] theorem moveReplies_paced (s : State) : Paced s (moveReplies s) := by simp [moveReplies]

@[simp] theorem holdEnter_paced (st) (s : State) : Paced s (holdEnter st s) := by simp [holdEnter]

@[simp] theorem hkRun_paced (s : State) : Paced s (hkRun s) := by simp [hkRun]

@[simp] theorem hkInject_paced (s : State) : Paced s (hkInject s) := by simp [hkInject]

@[simp] theorem hkStart_paced (s : State) : Paced s (hkStart s) := by simp [hkStart]

@[simp] theorem fillCredits_paced (s : State) : Paced s (fillCredits s) := by
  unfold fillCredits; split <;> simp

@[simp] theorem enterImaging_paced (t) (s : State) : Paced s (enterImaging t s) := by simp [enterImaging]

@[simp] theorem endReplay_paced (s : State) : Paced s (endReplay s) := by
  unfold endReplay; split <;> simp

@[simp] theorem portToReady_paced (cause t) (s : State) : Paced s (portToReady cause t s) := by simp [portToReady]

@[simp] theorem dramPut_paced (a bs) (s : State) : Paced s (dramPut a bs s) := by simp [dramPut]

@[simp] theorem takeCredit_paced (port cost) (s : State) : Paced s (takeCredit port cost s) := by simp [takeCredit]

@[simp] theorem traceCmd_paced (cmd p port) (s : State) : Paced s (traceCmd cmd p port s) := by simp [traceCmd]

@[simp] theorem cutHost_paced (s : State) : Paced s (cutHost s) := by simp [cutHost]

@[simp] theorem undoWrites_paced (s : State) : Paced s (undoWrites s) := by simp [undoWrites]

@[simp] theorem cutDest_paced (p) (s : State) : Paced s (cutDest p s) := by simp [cutDest]

@[simp] theorem cutSaves_paced (s : State) : Paced s (cutSaves s) := by simp [cutSaves]

@[simp] theorem freezeDue_paced (c) (s : State) : Paced s (freezeDue c s) := by
  simp [freezeDue]

@[simp] theorem memFreeze_paced (cause channel port syndrome wordIx addr) (s : State) :
    Paced s (memFreeze cause channel port syndrome wordIx addr s) := by
  unfold memFreeze; split <;> simp

@[simp] theorem eccCheck_paced (line port hits) (s : State) : Paced s (eccCheck line port hits s) := by
  unfold eccCheck; split <;> simp

@[simp] theorem accessLine_paced (port line k hits) (s : State) : Paced s (accessLine port line k hits s) := by
  unfold accessLine; split <;> simp

@[simp] theorem hostLine_paced (line) (s : State) : Paced s (hostLine line s) := by
  unfold hostLine; split <;> simp

@[simp] theorem putLine_paced (q d) (s : State) : Paced s (putLine q d s) := by simp [putLine]

@[simp] theorem issue_paced (q hits) (s : State) : Paced s (issue q hits s) := by
  unfold issue
  dsimp only
  generalize hu : accessLine _ _ _ _ _ = u
  have h : Paced s u := by
    rw [← hu]
    exact (modMemc_paced _ s).trans ((takeCredit_paced _ _ _).trans (accessLine_paced ..))
  refine h.trans ?_
  clear hu h
  split
  · split
    · exact modMemc_paced ..
    · exact Paced.refl _
  · split
    · split
      · exact hostLine_paced ..
      · exact Paced.refl _
    · split
      · exact Paced.refl _
      · exact putLine_paced ..

@[simp] theorem serveFirst_paced (line read) (s : State) : Paced s (serveFirst line read s) := by simp [serveFirst]

@[simp] theorem stageLine_paced (port k hits line) (s : State) :
    Paced s (stageLine port k hits line s) := by simp [stageLine]

@[simp] theorem traffic_paced (port hits l) (s : State) : Paced s (traffic port hits l s) := by simp [traffic]

@[simp] theorem replayPlay_paced (r f) (s : State) : Paced s (replayPlay r f s) := by simp [replayPlay]

@[simp] theorem traceRanks_paced (cmd n) (s : State) : Paced s (traceRanks cmd n s) := by simp [traceRanks]

@[simp] theorem writeIndex_paced (b) (s : State) : Paced s (writeIndex b s) := by simp [writeIndex]

/-- A fall into HOLDOVER keeps the same, but it drops a tick to be adopted. -/
theorem enterHoldover_eqs (cause) (s : State) : (enterHoldover cause s).clock = s.clock ∧
    (enterHoldover cause s).tick.sfn = s.tick.sfn ∧ (enterHoldover cause s).tick.queue = s.tick.queue ∧
    (enterHoldover cause s).cfg.n = s.cfg.n ∧ (enterHoldover cause s).cfg.locked = s.cfg.locked := by
  simp [enterHoldover]

@[simp] theorem endTransition_paced (s : State) : Paced s (endTransition s) := by
  unfold endTransition; split <;> simp

@[simp] theorem traceSelf_paced (cmd) (s : State) : Paced s (traceSelf cmd s) := by simp [traceSelf]

@[simp] theorem leaveLow_paced (to_) (s : State) : Paced s (leaveLow to_ s) := by simp [leaveLow]

@[simp] theorem abandonSlot_paced (b i cause) (s : State) :
    Paced s (abandonSlot b i cause s) := by simp [abandonSlot]

@[simp] theorem finishPrepare_paced (t) (s : State) : Paced s (finishPrepare t s) := by simp [finishPrepare]

@[simp] theorem firstReadings_paced (t) (s : State) : Paced s (firstReadings t s) := by simp [firstReadings]

@[simp] theorem evalDue_paced (t) (s : State) : Paced s (evalDue t s) := by simp [evalDue]

@[simp] theorem calStart_paced (t) (s : State) : Paced s (calStart t s) := by simp [calStart]

@[simp] theorem calTry_paced (t) (s : State) : Paced s (calTry t s) := by simp [calTry]

@[simp] theorem rotate_paced (s : State) : Paced s (rotate s) := by simp [rotate]

@[simp] theorem driftTerms_paced (t) (s : State) : Paced s (driftTerms t s) := by simp [driftTerms]

@[simp] theorem sideStart_paced (s : State) : Paced s (sideStart s) := by
  unfold sideStart; split <;> simp

@[simp] theorem modWork_paced (t f) (s : State) : Paced s (modWork t f s) := by simp [modWork]

@[simp] theorem fetchAhead_paced (t r) (s : State) : Paced s (fetchAhead t r s) := by simp [fetchAhead]

@[simp] theorem laneStart_paced (t) (s : State) : Paced s (laneStart t s) := by
  unfold laneStart; dsimp only
  split
  · simp
  · split <;> simp

@[simp] theorem putStatus_paced (b t st hits) (s : State) : Paced s (putStatus b t st hits s) := by simp [putStatus]

@[simp] theorem clearStatus_paced (s : State) : Paced s (clearStatus s) := by
  unfold clearStatus
  split
  · exact .ite (forEach_paced (fun t s => putStatus_paced _ t 0 [] s) _ s) (Paced.refl s)
  · exact Paced.refl s

@[simp] theorem beginFrame_paced (s : State) : Paced s (beginFrame s) := by simp [beginFrame]

@[simp] theorem extentWrite_paced (b m ro w bs) (s : State) :
    Paced s (extentWrite b m ro w bs s) := by simp [extentWrite]

@[simp] theorem postExtent_paced (b m h start len) (s : State) :
    Paced s (postExtent b m h start len s) := by simp [postExtent]

@[simp] theorem counterAppend_paced (s : State) : Paced s (counterAppend s) := by simp [counterAppend]

@[simp] theorem counterEntry_paced (s : State) : Paced s (counterEntry s) := by simp [counterEntry]

@[simp] theorem noteEntry_paced (was) (s : State) : Paced s (noteEntry was s) := by simp [noteEntry]

@[simp] theorem hkTickOver_paced (s : State) : Paced s (hkTickOver s) := by simp [hkTickOver]

@[simp] theorem enterFault_paced (t cause) (s : State) : Paced s (enterFault t cause s) := by simp [enterFault]

@[simp] theorem portTick_paced (t) (s : State) : Paced s (portTick t s) := by
  unfold portTick; dsimp only; split
  · simp
  · split
    · split <;> simp
    · simp

@[simp] theorem enterCompute_paced (t) (s : State) : Paced s (enterCompute t s) := by simp [enterCompute]

@[simp] theorem imageFault_paced (t code) (s : State) : Paced s (imageFault t code s) := by simp [imageFault]

@[simp] theorem applyMove_paced (t m) (s : State) : Paced s (applyMove t m s).1 := by
  unfold applyMove; dsimp only; split
  case h_8 => split <;> simp
  case h_9 =>
    split
    · simp
    · split
      · simp
      · split <;> simp
  all_goals simp

@[simp] theorem decideCal_paced (t) (s : State) : Paced s (decideCal t s) := by
  unfold decideCal; split
  · exact (applyMove_paced ..).trans (raiseErrs_paced ..)
  · simp

@[simp] theorem dropAll_paced (m) (s : State) : Paced s (dropAll m s) := by simp [dropAll]

@[simp] theorem freezeChecks_paced (s : State) : Paced s (freezeChecks s) := by simp [freezeChecks]

@[simp] theorem unredirect_paced (p) (s : State) : Paced s (unredirect p s) := by simp [unredirect]

@[simp] theorem dropSave_paced (p) (s : State) : Paced s (dropSave p s) := by simp [dropSave]

@[simp] theorem failSave_paced (st p) (s : State) : Paced s (failSave st p s) := by simp [failSave]

@[simp] theorem freezeSaves_paced (s : State) : Paced s (freezeSaves s) := by simp [freezeSaves]

@[simp] theorem enterFrozen_paced (s : State) : Paced s (enterFrozen s) := by simp [enterFrozen]

@[simp] theorem settleLane_paced (t) (s : State) : Paced s (settleLane t s) := by simp [settleLane]

@[simp] theorem overrunStream_paced (m) (s : State) : Paced s (overrunStream m s) := by
  unfold overrunStream; (repeat' split) <;> simp

@[simp] theorem holdShow_paced (s : State) : Paced s (holdShow s) := by simp [holdShow]

@[simp] theorem recordFrame_paced (b t los causes ovr) (s : State) :
    Paced s (recordFrame b t los causes ovr s) := by simp [recordFrame]

@[simp] theorem tstatJudge_paced (t) (s : State) : Paced s (tstatJudge t s) := by simp [tstatJudge]

@[simp] theorem putSide_paced (b t st) (s : State) : Paced s (putSide b t st s) := by simp [putSide]

@[simp] theorem laneCut_paced (t) (s : State) : Paced s (laneCut t s) := by
  unfold laneCut; split <;> simp

@[simp] theorem startDelivery_paced (m) (s : State) : Paced s (startDelivery m s) := by
  unfold startDelivery; split <;> simp

@[simp] theorem serveHost_paced (x0) (s : State) : Paced s (serveHost x0 s) := by
  induction x0 generalizing s with
  | zero => simp [serveHost]
  | succ n ih =>
    unfold serveHost
    split
    · split <;> simp [ih]
    · simp

@[simp] theorem pumpHost_paced (s : State) : Paced s (pumpHost s) := by simp [pumpHost]

@[simp] theorem startStages_paced (s : State) : Paced s (startStages s) := by simp [startStages]

@[simp] theorem stopSlot_paced (b marked i) (s : State) : Paced s (stopSlot b marked i s) := by simp [stopSlot]

@[simp] theorem openBatch_paced (s : State) : Paced s (openBatch s) := by simp [openBatch]

@[simp] theorem writeEvents_paced (m b before) (s : State) : Paced s (writeEvents m b before s) := by
  unfold writeEvents; split <;> simp

@[simp] theorem eventsAtSlotEnd_paced (b before) (s : State) :
    Paced s (eventsAtSlotEnd b before s) := by simp [eventsAtSlotEnd]

@[simp] theorem afterSlots_paced (b before) (s : State) : Paced s (afterSlots b before s) := by simp [afterSlots]

@[simp] theorem stopEngine_paced (b marked e) (s : State) : Paced s (stopEngine b marked e s) := by simp [stopEngine]

@[simp] theorem stopEngines_paced (s : State) : Paced s (stopEngines s) := by
  unfold stopEngines; split <;> simp

@[simp] theorem copyUnread_paced (p) (s : State) : Paced s (copyUnread p s) := by simp [copyUnread]

@[simp] theorem endLaneSave_paced (p) (s : State) : Paced s (endLaneSave p s) := by simp [endLaneSave]

@[simp] theorem laneSavesEnd_paced (s : State) : Paced s (laneSavesEnd s) := by simp [laneSavesEnd]

@[simp] theorem latchEngines_paced (s : State) : Paced s (latchEngines s) := by simp [latchEngines]

@[simp] theorem countOverruns_paced (lane eng dma) (s : State) :
    Paced s (countOverruns lane eng dma s) := by simp [countOverruns]

@[simp] theorem retain_paced (b) (s : State) : Paced s (retain b s) := by simp [retain]

@[simp] theorem holdFrameEnd_paced (s : State) : Paced s (holdFrameEnd s) := by
  unfold holdFrameEnd; split <;> simp

@[simp] theorem endPeriod_paced (s : State) : Paced s (endPeriod s) := by simp [endPeriod]

@[simp] theorem turnTile_paced (t) (s : State) : Paced s (turnTile t s) := by simp [turnTile]

@[simp] theorem endSave_paced (p) (s : State) : Paced s (endSave p s) := by simp [endSave]

@[simp] theorem settleDbufs_paced (s : State) : Paced s (settleDbufs s) := by simp [settleDbufs]

@[simp] theorem parkCoil_paced (t) (s : State) : Paced s (parkCoil t s) := by
  unfold parkCoil; simp only []; split <;> simp

@[simp] theorem parkTick_paced (s : State) : Paced s (parkTick s) := by
  unfold parkTick; split <;> simp

@[simp] theorem releaseBatch_paced (s : State) : Paced s (releaseBatch s) := by
  unfold releaseBatch; dsimp only; split <;> simp

@[simp] theorem replayMoves_paced (s : State) : Paced s (replayMoves s) := by
  unfold replayMoves; split <;> simp

@[simp] theorem replayTick_paced (s : State) : Paced s (replayTick s) := by
  unfold replayTick; split <;> simp

@[simp] theorem hkTick_paced (s : State) : Paced s (hkTick s) := by simp [hkTick]

@[simp] theorem coilTick_paced (t) (s : State) : Paced s (coilTick t s) := by simp [coilTick]

@[simp] theorem latchBlanking_paced (t) (s : State) : Paced s (latchBlanking t s) := by simp [latchBlanking]

@[simp] theorem turnPort_paced (t) (s : State) : Paced s (turnPort t s) := by simp [turnPort]

@[simp] theorem holdFreezeDue_paced (s : State) : Paced s (holdFreezeDue s) := by simp [holdFreezeDue]

@[simp] theorem decideTick_paced (s : State) : Paced s (decideTick s) := by simp [decideTick]

@[simp] theorem startFrame_paced (park late missed skipped) (s : State) :
    Paced s (startFrame park late missed skipped s) := by simp [startFrame]

end Sys2Proof.Proofs
end

section
/-! PROOFS. The frame of every command, and of a step: who writes the keeping array, the banks and the firmware window (14 R333;
18 R393, R398, R399; 20 R436, R441), and which command stops the machine (log entry 27). -/
namespace Sys2Proof.Proofs

open Sys2Proof Sys2Proof.Machine Sys2Proof.Laws

/-- Both configuration banks and the firmware window are in canonical form. -/
def BanksWf (s : State) : Prop :=
  Memory.wf zeroByte s.cfg.active = true ∧ Memory.wf zeroByte s.cfg.shadow = true ∧
    Memory.wf zeroByte s.dev.fwWindow = true

/-- The queue of waiting commands, the board and the keeping array are the same, and the banks stay canonical. -/
def Steady (s t : State) : Prop :=
  t.pending = s.pending ∧ t.board = s.board ∧ t.keep.array = s.keep.array ∧ (BanksWf s → BanksWf t)

/-- The same, and the active bank keeps every byte. -/
def SteadyActive (s t : State) : Prop := Steady s t ∧ t.cfg.active = s.cfg.active

theorem Kept.steadyActive {s t : State} (h : Kept s t) : SteadyActive s t := by
  obtain ⟨hp, hb, ha, hac, hsh, hw⟩ := h
  exact ⟨⟨hp, hb, ha, fun w => by unfold BanksWf; rwa [hac, hsh, hw]⟩, hac⟩

theorem Kept.steady {s t : State} (h : Kept s t) : Steady s t := h.steadyActive.1

theorem Steady.trans {s t u : State} (a : Steady s t) (b : Steady t u) : Steady s u := by
  obtain ⟨hp, hb, ha, hw⟩ := a
  obtain ⟨hp', hb', ha', hw'⟩ := b
  exact ⟨hp'.trans hp, hb'.trans hb, ha'.trans ha, hw' ∘ hw⟩

theorem SteadyActive.trans {s t u : State} (a : SteadyActive s t) (b : SteadyActive t u) : SteadyActive s u :=
  ⟨a.1.trans b.1, b.2.trans a.2⟩

theorem forEach_steady {α : Type} {f : α → State → State} {l : List α} (h : ∀ a ∈ l, ∀ s, Steady s (f a s)) (s : State) :
    Steady s (forEach l f s) := by
  induction l generalizing s with
  | nil => exact (Kept.refl s).steady
  | cons a l ih =>
    exact (h a List.mem_cons_self s).trans (ih (fun b hb => h b (List.mem_cons_of_mem a hb)) (f a s))

/-! ### Writes of the shadow bank and of the firmware window (14 R333; 20 R441) -/

theorem writeShadow_steadyActive (ofs : Nat) (bs : List Byte) (s : State) : SteadyActive s (writeShadow ofs bs s) :=
  ⟨⟨rfl, rfl, rfl, fun ⟨ha, hs, hw⟩ => ⟨ha, writeCells_wf ofs bs hs, hw⟩⟩, rfl⟩

theorem shadowWord_steadyActive (ofs : Nat) (v : Word) (s : State) : SteadyActive s (shadowWord ofs v s) := by
  unfold shadowWord
  split
  · exact Kept.steadyActive ⟨rfl, rfl, rfl, rfl, rfl, rfl⟩
  · exact writeShadow_steadyActive ..

theorem fwWrite_steadyActive (ofs : Nat) (v : Word) (s : State) : SteadyActive s (fwWrite ofs v s) := by
  refine ⟨⟨rfl, rfl, rfl, fun ⟨ha, hs, hw⟩ => ⟨ha, hs, ?_⟩⟩, rfl⟩
  unfold fwWrite
  rw [modDev_dev]
  split
  · exact writeCells_wf ofs _ hw
  · exact hw

theorem regWrite_steadyActive (ty i o : Nat) (v : Word) (s : State) : SteadyActive s (regWrite ty i o v s) := by
  unfold regWrite
  split
  case h_16 => exact shadowWord_steadyActive ..
  case h_17 => exact fwWrite_steadyActive ..
  all_goals exact Kept.steadyActive (by simp)

theorem bar0Write_steadyActive (a : Nat) (v : Word) (be : BitVec 4) (s : State) : SteadyActive s (bar0Write a v be s) := by
  unfold bar0Write
  split
  · exact (bar0Miss_kept ..).1.steadyActive
  · dsimp only
    split
    · exact (bar0Miss_kept ..).1.steadyActive
    · split
      · split
        · exact Kept.steadyActive (by simp)
        · exact (bar0Miss_kept ..).1.steadyActive
      · split
        · exact regWrite_steadyActive ..
        · exact (Kept.refl s).steadyActive

theorem writeWords_steadyActive (a : Nat) (l : List Word) (s : State) : SteadyActive s (writeWords a l s) := by
  induction l generalizing a s with
  | nil => exact (Kept.refl s).steadyActive
  | cons v l ih => exact (bar0Write_steadyActive a v 0xF s).trans (ih (a + 4) _)

/-- A command whose own effect is steady is steady. -/
theorem runAtTick_steadyActive (h : Hdr) (op : Nat) {f : State → State} (hf : ∀ s, SteadyActive s (f s)) (s : State) :
    SteadyActive s (runAtTick h op f s) := by
  rcases runAtTick_cases h op f s with e | e | e <;> rw [e]
  · exact (Kept.refl s).steadyActive
  · exact Kept.steadyActive (by simp)
  · exact (Kept.steadyActive ⟨rfl, rfl, rfl, rfl, rfl, rfl⟩).trans (hf _)

theorem runAtTick_steady (h : Hdr) (op : Nat) {f : State → State} (hf : ∀ s, Steady s (f s)) (s : State) :
    Steady s (runAtTick h op f s) := by
  rcases runAtTick_cases h op f s with e | e | e <;> rw [e]
  · exact (Kept.refl s).steady
  · exact Kept.steady (by simp)
  · exact (Kept.steady ⟨rfl, rfl, rfl, rfl, rfl, rfl⟩).trans (hf _)

theorem reply_kept (h : Hdr) (op : Nat) (st : BitVec 16) (ws : List Word) (s : State) :
    KeptDram s (reply h op st ws s) := by simp

theorem writeRegs_steadyActive (h : Hdr) (a : Nat) (l : List Word) (s : State) : SteadyActive s (writeRegs h a l s) := by
  refine runAtTick_steadyActive h 0x02 (fun s => ?_) s
  split
  · exact (reply_kept ..).1.steadyActive
  · exact (writeWords_steadyActive a l s).trans (reply_kept ..).1.steadyActive

theorem writeCfg_steadyActive (h : Hdr) (o : Word) (l : List Word) (s : State) : SteadyActive s (writeCfg h o l s) := by
  refine runAtTick_steadyActive h 0x10 (fun s => ?_) s
  split
  · exact (reply_kept ..).1.steadyActive
  · exact (writeShadow_steadyActive ..).trans (reply_kept ..).1.steadyActive

theorem bar0HostDrop_steadyActive (a : Nat) (be : BitVec 4) (s : State) : SteadyActive s (bar0HostDrop a be s) := by
  unfold bar0HostDrop
  split
  · exact (Kept.refl s).steadyActive
  · exact bar0Write_steadyActive ..

theorem sptWrite_steadyActive (cmd : Word) (l : List Word) (p : Bool) (s : State) : SteadyActive s (sptWrite cmd l p s) := by
  unfold sptWrite sptFrame
  split
  · exact (Kept.refl s).steadyActive
  · split
    · exact Kept.steadyActive (by simp)
    · dsimp only
      refine (writeWords_steadyActive (sptAddr cmd) (l.take (sptCount cmd)) s).trans ?_
      split
      · exact Kept.steadyActive (by simp)
      · exact (Kept.refl _).steadyActive

/-! ### SWAP_CONFIG (R339) -/

theorem exchangeBanks_steady (s : State) : Steady s (exchangeBanks s) :=
  ⟨rfl, rfl, rfl, fun ⟨ha, hs, hw⟩ => ⟨hs, ha, hw⟩⟩

/-- What a swap does before the banks are exchanged. -/
def swapBefore (s : State) : State :=
  let old := activeSet s
  let new := s.cfg.shadow
  let s := forEach (Bank.enabledTiles new) (fun t s => match old with
    | some o => if calChanged o new t then calSwap t s else s
    | none => s) s
  forEach (List.range 4) (fun q => modQuad q fun x => { x with ptr := 0 }) (forEach (List.range 64) (swapPort old new) s)

/-- What a swap does once the banks are exchanged. -/
def swapAfter (old : Option Bank) (new : Bank) (s : State) : State :=
  let ts := List.range 64
  let s := forEach (Bank.enabledTiles new) (swapLane old new) s
  let s := forEach ts (fun t s => modLane t (fun l => { l with prevSameSet := false }) s) s
  let s := forEach (((s.cfg.dbufBase ++ s.cfg.dbufNext).map fun p => p.1).dedup) (swapBuffer old new) s
  let s := moveReplies (forEach (List.range 16) (swapGroup old new) s)
  let s := forEach (List.range 32) (swapStream old new) s
  let s := swapHold old new (swapHk old new (swapDue old (swapRotation old new s)))
  let s := fillCredits (modMemc (fun m => { m with mapLock := true }) (swapThaw s))
  modTick (fun t => { t with period := periodNow s }) s

theorem swapNow_eq (s : State) : swapNow s = swapAfter (activeSet s) s.cfg.shadow (exchangeBanks (swapBefore s)) := rfl

theorem swapBefore_kept (s : State) : KeptDram s (swapBefore s) := by
  unfold swapBefore
  dsimp only
  generalize hu : forEach (Bank.enabledTiles s.cfg.shadow) _ s = u
  have h : KeptDram s u := by
    rw [← hu]
    refine forEach_keptDram (fun t s => ?_) _ s
    split
    · exact KeptDram.ite (by simp) (KeptDram.refl _)
    · exact KeptDram.refl _
  exact h.trans (by simp)

theorem swapAfter_kept (old : Option Bank) (new : Bank) (s : State) : KeptDram s (swapAfter old new s) := by
  simp [swapAfter]
  
theorem swapNow_steady (s : State) : Steady s (swapNow s) := by
  rw [swapNow_eq]
  exact (swapBefore_kept s).1.steady.trans ((exchangeBanks_steady _).trans (swapAfter_kept ..).1.steady)

theorem swapConfig_steady (h : Hdr) (s : State) : Steady s (swapConfig h s) := by
  refine runAtTick_steady h 0x12 (fun s => ?_) s
  split
  · exact (reply_kept ..).1.steady
  · split
    · exact (reply_kept ..).1.steady
    · exact (swapNow_steady s).trans (reply_kept ..).1.steady

/-! ### The commands of the timed queue -/

theorem runQueued_steadyActive {q : Queued} (hq : q.opcode ≠ 0x12) (s : State) : SteadyActive s (runQueued q s) := by
  unfold runQueued
  dsimp only
  split
  case h_3 => exact writeRegs_steadyActive ..
  case h_6 => exact writeCfg_steadyActive ..
  case h_8 e => exact absurd (BitVec.eq_of_toNat_eq e) hq
  all_goals exact Kept.steadyActive (by simp)

theorem runQueued_steady (q : Queued) (s : State) : Steady s (runQueued q s) := by
  by_cases hq : q.opcode = 0x12
  · simpa [runQueued, hq] using swapConfig_steady q.hdr s
  · exact (runQueued_steadyActive hq s).1

/-! ### The tick -/

/-- The end of the period at a tick. -/
def tickEnd (s : State) : State :=
  endPeriod (openBatch (modTick (fun t => { t with lateNext := false, missedNext := false, skippedNext := false }) s))

/-- The time of the tick noted (02 R33). -/
def stampTick (s : State) : State := { s with clock := { s.clock with lastTick := s.clock.now } }

/-- A tick up to the commands that are due at it. -/
def tickBefore (s : State) : State :=
  releaseBatch (decideTick (turnPeriod (parkTick (enterFrozen (syncTick (stampTick (tickEnd s)))))))

/-- What a tick begins once the commands due at it have run; `s` is the state before the tick. -/
def tickAfter (s u : State) : State :=
  noteEntry s.dev.power (hkTickOver (startStages
    (startFrame s.tick.parkPeriod s.tick.lateNext s.tick.missedNext s.tick.skippedNext u)))

theorem tickStep_eq (s : State) :
    tickStep s = if !s.tick.running then s else tickAfter s (runDue (tickBefore s)) := by
  simp only [tickStep, tickAfter, tickBefore, stampTick, tickEnd]

theorem tickEnd_kept (s : State) : Kept s (tickEnd s) := by simp [tickEnd]

theorem stampTick_tick (s : State) : (stampTick s).tick = s.tick := rfl

theorem stampTick_kept (s : State) : KeptDram s (stampTick s) := KeptDram.refl s

theorem tickBefore_kept (s : State) : Kept s (tickBefore s) :=
  (tickEnd_kept s).trans ((stampTick_kept _).1.trans (by simp [tickBefore]))

theorem tickAfter_kept (s u : State) : Kept u (tickAfter s u) := by simp [tickAfter]

theorem jumpSfn_queue_subset (n p : Sfn) (s : State) : (jumpSfn n p s).tick.queue ⊆ s.tick.queue := by
  unfold jumpSfn
  extract_lets d forward gone s₁ s₂ s₃
  clear_value forward
  have h : s₃.tick.queue ⊆ s.tick.queue := by
    cases forward
    · exact List.Subset.refl _
    · exact List.filter_subset_self _
  clear_value s₃ gone
  rw [forEach_keeps (g := fun s => s.tick.queue) (fun q s => by rw [reply_tick]; simp [lateEvent])]
  exact h

theorem syncTick_queue_subset (s : State) : (syncTick s).tick.queue ⊆ s.tick.queue := by
  unfold syncTick
  extract_lets y next t placed s₁ run s₂
  have h : s₂.tick.queue = s.tick.queue := rfl
  clear_value s₂
  rw [← h]
  split
  · split
    · rw [raiseErr_tick, modSync_tick]
      split
      · rw [(sendVector_paced ..).2.2.1]; exact List.Subset.refl _
      · refine List.Subset.trans (jumpSfn_queue_subset ..) ?_
        rw [(sendVector_paced ..).2.2.1]; exact List.Subset.refl _
    · rw [(sendVector_paced ..).2.2.1]; exact List.Subset.refl _
  · rw [(enterHoldover_eqs ..).2.2.1]; exact List.Subset.refl _
  · exact List.Subset.refl _

@[simp] theorem modHost_paced (f) (s : State) : Paced s (modHost f s) := Paced.refl s

/-- The lock of the shadow bank ends with the second tick of the active set (R59). -/
theorem endLock_eqs (s : State) : (endLock s).clock = s.clock ∧ (endLock s).tick = s.tick ∧ (endLock s).cfg.n = s.cfg.n ∧
    (endLock s).cfg.locked = (s.cfg.locked && !decide (2 ≤ s.cfg.n)) ∧ (endLock s).sync = s.sync := by
  unfold endLock
  split <;> simp [*]

/-- Of the time, the timed queue, and the count and lock of the active set a new period changes the last two. -/
theorem turnPeriod_paced (s : State) : Paced (endLock (modCfg (fun c => { c with n := c.n + 1 }) s)) (turnPeriod s) := by
  unfold turnPeriod
  extract_lets s₁ s₂ s₃ s₄ s₅
  have h₂ : Paced (endLock (modCfg (fun c => { c with n := c.n + 1 }) s)) s₂ := by
    simp [s₂, s₁, endLock_eqs]
  have h₃ : Paced s₂ s₃ := Paced.trans (settleDbufs_paced s₂) (forEach_paced (fun t s => (turnTile_paced ..).trans (settleLane_paced ..)) _ _)
  have h₄ : Paced s₃ s₄ := forEach_paced (fun q s => by simp) _ _
  exact h₂.trans (h₃.trans (h₄.trans ((modMemc_paced _ _).trans (modHost_paced _ _))))

theorem turnPeriod_queue (s : State) : (turnPeriod s).tick.queue = s.tick.queue := by
  rw [(turnPeriod_paced s).2.2.1, (endLock_eqs _).2.1, modCfg_tick]

/-- A tick brings no command into the timed queue before it runs those due. -/
theorem tickBefore_queue_subset (s : State) : (tickBefore s).tick.queue ⊆ s.tick.queue := by
  have hu : (tickEnd s).tick.queue = s.tick.queue := by
    simp only [tickEnd, (endPeriod_paced _).2.2.1, (openBatch_paced _).2.2.1, modTick_tick]
  have hv : (syncTick (stampTick (tickEnd s))).tick.queue ⊆ (stampTick (tickEnd s)).tick.queue := syncTick_queue_subset _
  rw [stampTick_tick] at hv
  rw [tickBefore, (releaseBatch_paced _).2.2.1, (decideTick_paced _).2.2.1, turnPeriod_queue, (parkTick_paced _).2.2.1,
    (enterFrozen_paced _).2.2.1, ← hu]
  exact hv

theorem modTick_kept (f) (s : State) : Kept s (modTick f s) := ⟨rfl, rfl, rfl, rfl, rfl, rfl⟩

theorem runDue_steady (s : State) : Steady s (runDue s) := by
  refine ((modTick_kept _ s).steady.trans (forEach_steady (fun q _ s => ?_) _)).trans (modTick_kept _ _).steady
  exact (modTick_kept _ s).steady.trans (runQueued_steady q _)

theorem tickStep_steady (s : State) : Steady s (tickStep s) := by
  rw [tickStep_eq]
  split
  · exact (Kept.refl s).steady
  · exact (tickBefore_kept s).steady.trans ((runDue_steady _).trans (tickAfter_kept ..).steady)

theorem barAccess_steadyActive {f : State → State} (hf : ∀ s, SteadyActive s (f s)) (s : State) :
    SteadyActive s (barAccess f s) := by
  unfold barAccess
  split
  · exact (Kept.refl s).steadyActive
  · exact hf s

theorem indexBuilt_kept (l : List Nat) (s : State) :
    KeptDram s (keepPump (modKeep (fun k => { k with ready := true }) (loadTotals (forEach l indexRing s)))) := by
  generalize hu : loadTotals (forEach l indexRing s) = u
  have h : KeptDram s u := by
    rw [← hu]
    exact KeptDram.trans (forEach_keptDram (fun r s => indexRing_kept r s) l s) (loadTotals_kept _)
  exact h.trans (by simp)

theorem forEach_steadyActive {α : Type} {f : α → State → State} {l : List α}
    (h : ∀ a ∈ l, ∀ s, SteadyActive s (f a s)) (s : State) : SteadyActive s (forEach l f s) := by
  induction l generalizing s with
  | nil => exact (Kept.refl s).steadyActive
  | cons a l ih =>
    exact (h a List.mem_cons_self s).trans (ih (fun b hb => h b (List.mem_cons_of_mem a hb)) (f a s))

/-- A command is steady and leaves the active bank as it is, unless it is one of nine. -/
theorem exec_steadyActive_or (c : Instr) (s t : State) (e : exec c s = .next t) :
    SteadyActive s t ∨ c = .tick ∨ (∃ h, c = .swapConfig h) ∨ c = .keepPageWriteEnd ∨ c = .keepSettlement ∨
      c = .perstAssert ∨ c = .resetNAssert ∨ c = .brownout ∨ ∃ k, c = .supplyLoss k := by
  cases c
  case tick | swapConfig | keepPageWriteEnd | keepSettlement | perstAssert | resetNAssert | brownout | supplyLoss => simp
  all_goals left
  case memAccessIssue l hits =>
    change execMemAccessIssue l hits s = _ at e
    unfold execMemAccessIssue at e
    split at e
    · exact absurd e (by simp)
    · obtain rfl := Host.Outcome.next.inj e
      split <;> exact Kept.steadyActive (by simp)
  case keepScrubEnd =>
    change execKeepScrubEnd s = _ at e
    unfold execKeepScrubEnd at e
    split at e
    · split at e <;> obtain rfl := Host.Outcome.next.inj e <;> exact Kept.steadyActive (by simp)
    · obtain rfl := Host.Outcome.next.inj e
      exact (Kept.refl s).steadyActive
  case missedTick =>
    change execMissedTick s = _ at e
    unfold execMissedTick at e
    split at e
    · obtain rfl := Host.Outcome.next.inj e
      split <;> exact Kept.steadyActive (by simp)
    · obtain rfl := Host.Outcome.next.inj e
      exact (Kept.refl s).steadyActive
  all_goals obtain rfl := Host.Outcome.next.inj e
  case writeRegs => exact writeRegs_steadyActive ..
  case writeCfg => exact writeCfg_steadyActive ..
  case registerWrite => exact barAccess_steadyActive (bar0Write_steadyActive _ _ _) s
  case shadowWindowWrite => exact barAccess_steadyActive (bar0Write_steadyActive _ _ _) s
  case tickParkPeriodWrite => exact barAccess_steadyActive (bar0Write_steadyActive _ _ _) s
  case firmwareWindowWrite => exact barAccess_steadyActive (fwWrite_steadyActive _ _) s
  case bar0UnimplementedAccess a w be =>
    refine barAccess_steadyActive (fun s => ?_) s
    split
    · exact bar0HostDrop_steadyActive ..
    · exact Kept.steadyActive (by simp)
  case sptWrite => exact sptWrite_steadyActive ..
  case quietWindowOpen =>
    refine Kept.steadyActive ?_
    split
    · exact Kept.refl s
    · split
      · split
        · exact (modMemc_kept ..).1
        · exact Kept.refl s
      · exact Kept.refl s
  case dlyRsp =>
    refine Kept.steadyActive (lineOk_kept (fun s => ?_) s)
    split
    · exact .ite (by simp) (Kept.refl s)
    · exact Kept.refl s
  case assignTimeout =>
    refine Kept.steadyActive ?_
    split
    · split
      · exact Kept.trans (by simp) (assignOn_kept ..).1
      · exact Kept.refl s
    · exact Kept.refl s
  case keepRingIndexBuilt =>
    exact Kept.steadyActive (.ite (indexBuilt_kept _ s).1 (Kept.refl s))
  case replayEnd =>
    refine Kept.steadyActive ?_
    split
    · exact .ite (Kept.refl s) (endReplay_kept s).1
    · exact Kept.refl s
  case idDone =>
    refine Kept.steadyActive ?_
    split
    · exact .ite (assignOn_kept ..).1 (Kept.refl s)
    · exact Kept.refl s
  all_goals exact Kept.steadyActive (by simp)

/-! ### The memories the nine commands leave -/

theorem runDue_steadyActive {s : State} (hq : ∀ q ∈ s.tick.queue, q.opcode ≠ 0x12) : SteadyActive s (runDue s) := by
  have hl : ∀ q ∈ dueCommands s, q.opcode ≠ 0x12 := fun q h => hq q (List.mem_of_mem_filter h)
  refine ((modTick_kept _ s).steadyActive.trans (forEach_steadyActive (fun q h s => ?_) _)).trans
    (modTick_kept _ _).steadyActive
  exact (modTick_kept _ s).steadyActive.trans (runQueued_steadyActive (hl q h) _)

theorem tickStep_steadyActive {s : State} (hq : ∀ q ∈ s.tick.queue, q.opcode ≠ 0x12) : SteadyActive s (tickStep s) := by
  rw [tickStep_eq]
  split
  · exact (Kept.refl s).steadyActive
  · exact (tickBefore_kept s).steadyActive.trans
      ((runDue_steadyActive fun q h => hq q (tickBefore_queue_subset s h)).trans (tickAfter_kept ..).steadyActive)

/-- A fundamental reset keeps the queue, the board and the keeping array; its banks are empty. -/
theorem fundamental_steady (i : Nat) (s : State) : Steady s (fundamental i s) :=
  ⟨rfl, rfl, rfl, fun _ => ⟨rfl, rfl, rfl⟩⟩

/-- A supply loss keeps the queue and the board; its banks are empty. -/
theorem supplyLoss_banksWf (cut : KeepCut) (s : State) : (supplyLoss cut s).pending = s.pending ∧
    (supplyLoss cut s).board = s.board ∧ BanksWf (supplyLoss cut s) := ⟨rfl, rfl, rfl, rfl, rfl⟩

theorem exec_steady {c : Instr} {s t : State} (hp : c ≠ .keepPageWriteEnd) (hs : c ≠ .keepSettlement)
    (hl : ∀ k, c ≠ .supplyLoss k) (e : exec c s = .next t) : Steady s t := by
  rcases exec_steadyActive_or c s t e with h | rfl | ⟨h, rfl⟩ | rfl | rfl | rfl | rfl | rfl | ⟨k, rfl⟩
  case inl => exact h.1
  all_goals obtain rfl := Host.Outcome.next.inj e
  · exact tickStep_steady s
  · exact (swapConfig_steady h s).trans (noteEntry_kept ..).1.steady
  · exact absurd rfl hp
  · exact absurd rfl hs
  · exact fundamental_steady 3 s
  · exact fundamental_steady _ s
  · exact fundamental_steady _ s
  · exact absurd rfl (hl k)


/-- The end of a page write puts at most one page into the keeping store. -/
theorem endPage_landed (s : State) : ∃ u, (u = s ∨ ∃ p, u = landPage p s) ∧ Kept u (endPage s) := by
  unfold endPage
  split
  · exact ⟨s, .inl rfl, Kept.refl s⟩
  · split
    · exact ⟨s, .inl rfl, Kept.refl s⟩
    · next p _ =>
      refine ⟨landPage p s, .inr ⟨p, rfl⟩, ?_⟩
      generalize landPage p s = u
      dsimp only
      split
      · simp
      · split
        · simp
        · split <;> simp

theorem landPage_array_wf (p : Nat × List Byte) {s : State} (w : Memory.wf erasedByte s.keep.array = true) :
    Memory.wf erasedByte (landPage p s).keep.array = true := by
  simp only [landPage, modKeep_keep]
  split
  · exact w
  · exact writeCells_wf _ _ w

theorem endPage_array_wf {s : State} (w : Memory.wf erasedByte s.keep.array = true) :
    Memory.wf erasedByte (endPage s).keep.array = true := by
  obtain ⟨u, rfl | ⟨p, rfl⟩, h⟩ := endPage_landed s
  · rw [h.2.2.1]; exact w
  · rw [h.2.2.1]; exact landPage_array_wf p w

theorem endPage_banks (s : State) : (endPage s).pending = s.pending ∧ (endPage s).board = s.board ∧
    (BanksWf s → BanksWf (endPage s)) := by
  obtain ⟨u, rfl | ⟨p, rfl⟩, h⟩ := endPage_landed s
  · obtain ⟨hp, hb, -, hw⟩ := h.steady
    exact ⟨hp, hb, hw⟩
  · obtain ⟨hp, hb, -, hw⟩ := h.steady
    exact ⟨hp, hb, hw⟩

theorem settle_array_wf {k : Keep} (w : Memory.wf erasedByte k.array = true) :
    Memory.wf erasedByte (settle k).array = true := by
  unfold settle
  dsimp only
  split
  · split <;> exact w
  · split
    · split
      · exact w
      · exact writeCells_wf _ _ w
    · exact w

theorem keepPowerLoss_array_wf (cut : KeepCut) {k : Keep} (w : Memory.wf erasedByte k.array = true) :
    Memory.wf erasedByte (keepPowerLoss cut k).array = true := by
  unfold keepPowerLoss
  dsimp only
  split
  · exact w
  · exact w
  · split
    · exact w
    · split
      · exact w
      · exact w
      · exact w
      · exact w
      · split
        · exact w
        · exact writeCells_wf _ _ w

theorem supplyLoss_array_wf (cut : KeepCut) {s : State} (w : Memory.wf erasedByte s.keep.array = true) :
    Memory.wf erasedByte (supplyLoss cut s).keep.array = true := by
  simp only [supplyLoss, modDev_keep, mainReset]
  split
  · exact w
  · exact keepPowerLoss_array_wf cut w

theorem exec_array_wf {c : Instr} {s t : State} (e : exec c s = .next t) (w : Memory.wf erasedByte s.keep.array = true) :
    Memory.wf erasedByte t.keep.array = true := by
  by_cases hp : c = .keepPageWriteEnd
  · subst hp
    obtain rfl := Host.Outcome.next.inj e
    exact endPage_array_wf w
  by_cases hs : c = .keepSettlement
  · subst hs
    obtain rfl := Host.Outcome.next.inj e
    split
    · exact w
    · exact settle_array_wf w
  by_cases hl : ∃ k, c = .supplyLoss k
  · obtain ⟨k, rfl⟩ := hl
    obtain rfl := Host.Outcome.next.inj e
    exact supplyLoss_array_wf k w
  · rw [(exec_steady hp hs (fun k h => hl ⟨k, h⟩) e).2.2.1]
    exact w


/-- No command changes the queue behind it or the board, and the banks stay in their canonical form. -/
theorem exec_queue_board_banks {c : Instr} {s t : State} (e : exec c s = .next t) :
    t.pending = s.pending ∧ t.board = s.board ∧ (BanksWf s → BanksWf t) := by
  by_cases hp : c = .keepPageWriteEnd
  · subst hp
    obtain rfl := Host.Outcome.next.inj e
    exact endPage_banks s
  by_cases hs : c = .keepSettlement
  · subst hs
    obtain rfl := Host.Outcome.next.inj e
    split
    · exact ⟨rfl, rfl, id⟩
    · exact ⟨rfl, rfl, id⟩
  by_cases hl : ∃ k, c = .supplyLoss k
  · obtain ⟨k, rfl⟩ := hl
    obtain rfl := Host.Outcome.next.inj e
    obtain ⟨h, h', w⟩ := supplyLoss_banksWf k s
    exact ⟨h, h', fun _ => w⟩
  · obtain ⟨h, h', -, w⟩ := exec_steady hp hs (fun k h => hl ⟨k, h⟩) e
    exact ⟨h, h', w⟩

/-- Settles O10: no command of the model writes either. -/
theorem execKeepsQueueAndBoard : Obligations.ExecKeepsQueueAndBoard := by
  intro c s t e
  obtain ⟨hp, hb, -⟩ := exec_queue_board_banks e
  exact ⟨hp, hb⟩

/-- Settles O5: the array is written by canonical writes alone. -/
theorem stepKeepsKeepingArrayCanonical : Obligations.StepKeepsKeepingArrayCanonical := by
  intro s t w e
  unfold step at e
  split at e
  · obtain rfl := Host.Outcome.next.inj e
    rw [(clockTick_kept s).2.2.1]
    exact w
  · exact exec_array_wf e w

/-- Settles O6: a bank or the window is kept, written canonically, exchanged for the other bank, or emptied. -/
theorem stepKeepsBanksCanonical : Obligations.StepKeepsBanksCanonical := by
  intro s t ha hs hw e
  have w : BanksWf s := ⟨ha, hs, hw⟩
  unfold step at e
  split at e
  · obtain rfl := Host.Outcome.next.inj e
    exact (clockTick_kept s).steady.2.2.2 w
  · exact (exec_queue_board_banks e).2.2 w

/-- Settles O8: every other command is steady. -/
theorem keepingArrayChangesOnlyByPages : Obligations.KeepingArrayChangesOnlyByPages := by
  intro c s t hp hs hl e
  exact (exec_steady hp hs hl e).2.2.1

/-- Settles O9: the commands that reach the active bank are those excepted, and a tick runs those due at it alone. -/
theorem activeBankChangesOnlyBySwap : Obligations.ActiveBankChangesOnlyBySwap := by
  intro c s t hswap htick hperst hresetN hbrown hloss e
  rcases exec_steadyActive_or c s t e with h | rfl | ⟨h, rfl⟩ | rfl | rfl | rfl | rfl | rfl | ⟨k, rfl⟩
  case inl => exact h.2
  · obtain rfl := Host.Outcome.next.inj e
    exact (tickStep_steadyActive (htick rfl)).2
  · exact absurd rfl (hswap h)
  · obtain rfl := Host.Outcome.next.inj e
    obtain ⟨u, rfl | ⟨p, rfl⟩, h⟩ := endPage_landed s
    · exact h.2.2.2.1
    · exact h.2.2.2.1
  · obtain rfl := Host.Outcome.next.inj e
    split <;> rfl
  · exact absurd rfl hperst
  · exact absurd rfl hresetN
  · exact absurd rfl hbrown
  · exact absurd rfl (hloss k)

/-! ### Where a command stops -/

theorem execMemAccessIssue_of_outside {l : List MemReq} {s : State} (hits : List EccHit)
    (h : ∃ r ∈ l, capacity s ≤ 64 * r.line) : execMemAccessIssue l hits s = .fault .lineOutsideCapacity :=
  if_pos (by simpa [List.any_eq_true] using h)

theorem execMemAccessIssue_of_within {l : List MemReq} {s : State} (hits : List EccHit)
    (h : ∀ r ∈ l, 64 * r.line < capacity s) : ∃ t, execMemAccessIssue l hits s = .next t :=
  ⟨_, if_neg (by simpa [List.any_eq_true] using h)⟩

/-- Settles O11: the arm of every other command is a next state. -/
theorem onlyOutsideLinesStop : Obligations.OnlyOutsideLinesStop := by
  refine ⟨fun l h s => ⟨execMemAccessIssue_of_outside h, execMemAccessIssue_of_within h⟩, fun c s hc => ?_⟩
  cases c
  case memAccessIssue l h => exact absurd rfl (hc l h)
  case missedTick =>
    change ∃ t, execMissedTick s = .next t
    unfold execMissedTick
    split <;> exact ⟨_, rfl⟩
  case keepScrubEnd =>
    change ∃ t, execKeepScrubEnd s = .next t
    unfold execKeepScrubEnd
    split
    · split <;> exact ⟨_, rfl⟩
    · exact ⟨_, rfl⟩
  all_goals exact ⟨_, rfl⟩

end Sys2Proof.Proofs
end

section
/-! PROOFS. Every step keeps DRAM in canonical form: each operation that writes DRAM or makes its content undefined, said once. -/
namespace Sys2Proof.Proofs

open Sys2Proof Sys2Proof.Machine Sys2Proof.Laws

/-- DRAM lists its bytes in canonical form, at the default of its epoch. -/
def dramWf (d : Dram) : Prop := Memory.wf (dramByteOf d.epoch) d.cells = true

theorem dramWf_iff (s : State) : dramWf s.dram ↔ Memory.wf (dramDflt s) s.dram.cells = true := Iff.rfl

/-- Memory whose content has become undefined lists nothing. -/
@[simp] theorem dramWf_nil (e : Nat) : dramWf { cells := [], epoch := e } := rfl

@[simp] theorem dramWf_ite (c : Prop) [Decidable c] (d e : Dram) :
    dramWf (if c then d else e) ↔ if c then dramWf d else dramWf e := by
  split <;> rfl

theorem forEach_dramWf {α : Type} {f : α → State → State} (h : ∀ a s, dramWf s.dram → dramWf (f a s).dram)
    (l : List α) {s : State} (hs : dramWf s.dram) : dramWf (forEach l f s).dram :=
  forEach_invariant (P := fun s => dramWf s.dram) h l s hs

theorem foldl_dramWf {α : Type} {f : State → α → State} (h : ∀ s a, dramWf s.dram → dramWf (f s a).dram)
    (l : List α) {s : State} (hs : dramWf s.dram) : dramWf (l.foldl f s).dram :=
  forEach_dramWf (f := fun a s => f s a) (fun a s => h s a) l hs

theorem runAtTick_dramWf {h : Hdr} {op : Nat} {f : State → State} (hf : ∀ s, dramWf s.dram → dramWf (f s).dram) {s : State}
    (hs : dramWf s.dram) : dramWf (runAtTick h op f s).dram := by
  rcases runAtTick_cases h op f s with e | e | e <;> rw [e]
  · exact hs
  · simpa using hs
  · exact hf _ hs

theorem ite_wf {c : Prop} [Decidable c] {s t : State} (hs : dramWf s.dram) (ht : dramWf t.dram) :
    dramWf (if c then s else t).dram := by
  split
  · exact hs
  · exact ht

theorem KeptDram.dramWf {s t : State} (h : KeptDram s t) (hs : dramWf s.dram) : dramWf t.dram := by
  rwa [h.2]

theorem modTick_keptDram (f : TickBlk → TickBlk) (s : State) : KeptDram s (modTick f s) := KeptDram.refl s

theorem writeCfg_dramWf (h : Hdr) (o : Word) (l : List Word) {s : State} (hs : dramWf s.dram) :
    dramWf (writeCfg h o l s).dram := by
  refine runAtTick_dramWf (fun s hs => ?_) hs
  split
  · exact (reply_kept ..).dramWf hs
  · exact (reply_kept ..).dramWf hs

theorem swapNow_dram (s : State) : (swapNow s).dram = s.dram := by
  rw [swapNow_eq, (swapAfter_kept ..).2]
  exact (swapBefore_kept s).2

theorem swapConfig_dramWf (h : Hdr) {s : State} (hs : dramWf s.dram) : dramWf (swapConfig h s).dram := by
  refine runAtTick_dramWf (fun s hs => ?_) hs
  split
  · exact (reply_kept ..).dramWf hs
  · split
    · exact (reply_kept ..).dramWf hs
    · refine (reply_kept ..).dramWf ?_
      rwa [swapNow_dram]

@[simp] theorem hashWrite_dramWf (i w) {s : State} (hs : dramWf s.dram) :
    dramWf (hashWrite i w s).dram := by simp [hashWrite, hs]

@[simp] theorem writeMemc_dramWf (o v) {s : State} (hs : dramWf s.dram) :
    dramWf (writeMemc o v s).dram := by simp [writeMemc, hs]

@[simp] theorem regWrite_dramWf (ty i o v) {s : State} (hs : dramWf s.dram) : dramWf (regWrite ty i o v s).dram := by
  unfold regWrite
  split
  case h_16 =>
    unfold shadowWord
    split
    · exact hs
    · exact hs
  case h_17 =>
    unfold fwWrite
    rwa [modDev_dram]
  all_goals simp [hs]

@[simp] theorem bar0Write_dramWf (a v be) {s : State} (hs : dramWf s.dram) : dramWf (bar0Write a v be s).dram := by
  unfold bar0Write
  split <;> simp [hs]

@[simp] theorem writeWords_dramWf (x0 x1) {s : State} (hs : dramWf s.dram) : dramWf (writeWords x0 x1 s).dram := by
  induction x1 generalizing x0 s with
  | nil => exact hs
  | cons v l ih => exact ih _ (bar0Write_dramWf x0 v 0xF hs)

@[simp] theorem writeRegs_dramWf (h addr vals) {s : State} (hs : dramWf s.dram) :
    dramWf (writeRegs h addr vals s).dram := by
  refine runAtTick_dramWf (fun s hs => ?_) hs
  split
  · simpa using hs
  · simpa using writeWords_dramWf addr vals hs

@[simp] theorem dramPut_dramWf (a bs) {s : State} (hs : dramWf s.dram) :
    dramWf (dramPut a bs s).dram := writeCells_wf a bs hs

@[simp] theorem dramWrite_dramWf (a bs) {s : State} (hs : dramWf s.dram) :
    dramWf (dramWrite a bs s).dram := by simp [dramWrite, hs]

@[simp] theorem tableSave_dramWf (h w dest withCrc) {s : State} (hs : dramWf s.dram) :
    dramWf (tableSave h w dest withCrc s).dram := by
  refine runAtTick_dramWf (fun s hs => ?_) hs
  split
  · simpa using hs
  · split
    · simpa using hs
    · (repeat' split) <;> simp [hs]

@[simp] theorem undoWrites_dramWf {s : State} (hs : dramWf s.dram) : dramWf (undoWrites s).dram := by
  unfold undoWrites
  simp only [bumpFree_dram, modMemc_dram]
  refine foldl_dramWf (fun s p hs => ?_) _ hs
  split
  · exact hs
  · exact dramPut_dramWf _ _ hs

@[simp] theorem cutDest_dramWf (p) {s : State} (hs : dramWf s.dram) : dramWf (cutDest p s).dram := by simp [cutDest, hs]

@[simp] theorem cutSaves_dramWf {s : State} (hs : dramWf s.dram) : dramWf (cutSaves s).dram := by
  unfold cutSaves
  exact forEach_dramWf (fun p s hs => by simp [hs]) _ (by simpa using hs)

@[simp] theorem memFreeze_dramWf (cause channel port syndrome wordIx addr) {s : State} (hs : dramWf s.dram) :
    dramWf (memFreeze cause channel port syndrome wordIx addr s).dram := by simp [memFreeze, hs]

@[simp] theorem eccCheck_dramWf (line port hits) {s : State} (hs : dramWf s.dram) :
    dramWf (eccCheck line port hits s).dram := by
  unfold eccCheck
  dsimp only
  split
  · exact memFreeze_dramWf _ _ _ _ _ _ (by simpa using hs)
  · split <;> simpa using hs

@[simp] theorem accessLine_dramWf (port line k hits) {s : State} (hs : dramWf s.dram) :
    dramWf (accessLine port line k hits s).dram := by
  unfold accessLine
  split <;> simp [hs]

@[simp] theorem putLine_dramWf (q d) {s : State} (hs : dramWf s.dram) : dramWf (putLine q d s).dram := by
  unfold putLine
  extract_lets a s₁ s₂
  have h₂ : s₂.dram = s.dram := by
    simp only [s₂, s₁]
    split <;> split <;> rfl
  have h : dramWf s₂.dram := by rwa [h₂]
  exact writeEnabled_wf a d h

@[simp] theorem issue_dramWf (q hits) {s : State} (hs : dramWf s.dram) : dramWf (issue q hits s).dram := by
  unfold issue
  extract_lets r port k hits' cls s₁ was s₂
  have h₂ : dramWf s₂.dram := accessLine_dramWf _ _ _ _ (by simpa [s₁] using hs)
  clear_value s₂
  split
  · split <;> simpa using h₂
  · split
    · split <;> simpa using h₂
    · split
      · exact h₂
      · exact putLine_dramWf _ _ h₂

@[simp] theorem serveFirst_dramWf (line read) {s : State} (hs : dramWf s.dram) :
    dramWf (serveFirst line read s).dram := by
  unfold serveFirst
  refine forEach_dramWf (fun q s hs => ?_) _ ?_
  · split
    · exact issue_dramWf _ _ hs
    · exact hs
  · split <;> simpa using hs

@[simp] theorem stageLine_dramWf (port k hits line) {s : State} (hs : dramWf s.dram) :
    dramWf (stageLine port k hits line s).dram := by simp [stageLine, hs]

@[simp] theorem traffic_dramWf (port hits l) {s : State} (hs : dramWf s.dram) :
    dramWf (traffic port hits l s).dram := by
  unfold traffic
  exact forEach_dramWf (fun x s hs => forEach_dramWf (fun n s hs => stageLine_dramWf _ _ _ _ hs) _ hs) _ hs

@[simp] theorem replayPlay_dramWf (r f) {s : State} (hs : dramWf s.dram) :
    dramWf (replayPlay r f s).dram := by simp [replayPlay, hs]

@[simp] theorem replayCmd_dramWf (h rawBase rawStride sideBase n loop) {s : State} (hs : dramWf s.dram) :
    dramWf (replayCmd h rawBase rawStride sideBase n loop s).dram := by
  refine runAtTick_dramWf (fun s hs => ?_) hs
  iterate 3
    refine ite_wf (by simpa using hs) ?_
  extract_lets charge rawEnd r first s₁
  refine ite_wf (by simpa using hs) ?_
  have h₁ : dramWf s₁.dram :=
    (forEach_keptDram (fun t s => releaseCoil_kept t s) _ _).dramWf (replayPlay_dramWf _ _ hs)
  exact (modTick_keptDram _ s₁).dramWf h₁

@[simp] theorem dramLost_dramWf (s : State) : dramWf (dramLost s).dram := by simp [dramLost]

@[simp] theorem trainStart_dramWf (mask) (s : State) :
    dramWf (trainStart mask s).dram := by simp [trainStart]

@[simp] theorem memTrain_dramWf (h mode mask eyeMin mts period) {s : State} (hs : dramWf s.dram) :
    dramWf (memTrain h mode mask eyeMin mts period s).dram := by
  refine runAtTick_dramWf (fun u hu => ?_) hs
  extract_lets full eye quiet on s₁
  iterate 5
    refine ite_wf (by simpa using hu) ?_
  refine ite_wf (by simpa [s₁] using hu) (ite_wf ?_ ?_)
  · exact trainStart_dramWf ..
  · exact (setBusy_kept ..).dramWf ((modMemc_kept ..).dramWf hu)

@[simp] theorem writeIndex_dramWf (b) {s : State} (hs : dramWf s.dram) : dramWf (writeIndex b s).dram := by
  unfold writeIndex
  split
  · rw [modHold_dram]
    exact forEach_dramWf (fun f s hs => by simp [hs]) _ hs
  · exact hs

@[simp] theorem memUnfreeze_dramWf {s : State} (hs : dramWf s.dram) : dramWf (memUnfreeze s).dram := by
  unfold memUnfreeze
  dsimp only
  split <;> simp [hs]

@[simp] theorem memResume_dramWf (h mode) {s : State} (hs : dramWf s.dram) : dramWf (memResume h mode s).dram := by
  refine runAtTick_dramWf (fun s hs => ?_) hs
  iterate 3
    refine ite_wf (by simpa using hs) ?_
  have h := memUnfreeze_dramWf hs
  extract_lets image s₁
  rw [reply_dram]
  split
  · simpa using h
  · exact h

@[simp] theorem drainReqs_dramWf (x0) {s : State} (hs : dramWf s.dram) : dramWf (drainReqs x0 s).dram := by
  induction x0 generalizing s with
  | zero => exact hs
  | succ n ih =>
    unfold drainReqs
    split
    · exact ih (issue_dramWf _ _ hs)
    · exact hs

@[simp] theorem enterLow_dramWf (h) {s : State} (hs : dramWf s.dram) :
    dramWf (enterLow h s).dram := by simp [enterLow, hs]

@[simp] theorem powerState_dramWf (h low) {s : State} (hs : dramWf s.dram) : dramWf (powerState h low s).dram := by
  refine runAtTick_dramWf (fun s hs => ?_) hs
  split
  · split <;> simp [hs]
  all_goals simpa using hs

@[simp] theorem resetMemc_dramWf {s : State} (hs : dramWf s.dram) : dramWf (resetMemc s).dram := by simp [resetMemc, hs]

theorem blockReset_dramWf (ty i : Nat) (s : State) (f : State → State) (hf : blockReset ty i s = some f) {u : State} (hu : dramWf u.dram) :
    dramWf (f u).dram := by
  unfold blockReset at hf
  split at hf
  case h_8 =>
    split at hf
    · cases hf
      exact resetMemc_dramWf hu
    · cases hf
  case h_9 => cases hf
  case h_1 => obtain rfl := Option.some.inj hf; exact (resetTile_kept ..).dramWf hu
  case h_2 => obtain rfl := Option.some.inj hf; exact (resetEng_kept ..).dramWf hu
  case h_3 => obtain rfl := Option.some.inj hf; exact (resetShut_kept ..).dramWf hu
  case h_4 => obtain rfl := Option.some.inj hf; exact (resetHost_kept ..).dramWf hu
  case h_5 => obtain rfl := Option.some.inj hf; exact (hkReset_kept ..).dramWf hu
  case h_6 => obtain rfl := Option.some.inj hf; exact (spcReset_kept ..).dramWf hu
  case h_7 => obtain rfl := Option.some.inj hf; exact hu

@[simp] theorem resetBlock_dramWf (h ty i) {s : State} (hs : dramWf s.dram) : dramWf (resetBlock h ty i s).dram := by
  refine runAtTick_dramWf (fun s hs => ?_) hs
  split
  next f hf =>
    split
    · simpa using blockReset_dramWf _ _ _ _ hf hs
    · simpa using hs
  · simpa using hs

@[simp] theorem runQueued_dramWf (q) {s : State} (hs : dramWf s.dram) : dramWf (runQueued q s).dram := by
  unfold runQueued
  extract_lets h p
  split
  case h_3 => exact writeRegs_dramWf _ _ _ hs
  case h_6 => exact writeCfg_dramWf _ _ _ hs
  case h_8 => exact swapConfig_dramWf _ hs
  case h_13 => exact tableSave_dramWf _ _ _ _ hs
  all_goals simp [hs]

@[simp] theorem runDue_dramWf {s : State} (hs : dramWf s.dram) : dramWf (runDue s).dram := by
  unfold runDue
  rw [modTick_dram]
  refine forEach_dramWf (fun q s hs => runQueued_dramWf q (by simpa using hs)) _ (by simpa using hs)

@[simp] theorem stageWrite_dramWf (a bs) {s : State} (hs : dramWf s.dram) : dramWf (stageWrite a bs s).dram := by
  unfold stageWrite
  split
  · exact dramPut_dramWf _ _ (by simpa using hs)
  · exact hs

@[simp] theorem putStatus_dramWf (b t st hits) {s : State} (hs : dramWf s.dram) :
    dramWf (putStatus b t st hits s).dram := by simp [putStatus, hs]

@[simp] theorem clearStatus_dramWf {s : State} (hs : dramWf s.dram) : dramWf (clearStatus s).dram := by
  unfold clearStatus
  split
  · split
    · exact forEach_dramWf (fun t s hs => putStatus_dramWf _ t 0 [] hs) _ hs
    · exact hs
  · exact hs

@[simp] theorem beginFrame_dramWf {s : State} (hs : dramWf s.dram) :
    dramWf (beginFrame s).dram := by simp [beginFrame, hs]

@[simp] theorem diagLine_dramWf (k hits d) {s : State} (hs : dramWf s.dram) :
    dramWf (diagLine k hits d s).dram := by simp [diagLine, hs]

@[simp] theorem diagPut_dramWf (a bs) {s : State} (hs : dramWf s.dram) :
    dramWf (diagPut a bs s).dram := by simp [diagPut, hs]

@[simp] theorem scanPass_dramWf (r p) {s : State} (hs : dramWf s.dram) : dramWf (scanPass s r p).dram := by
  unfold scanPass
  refine forEach_dramWf (fun x s hs => diagLine_dramWf _ _ _ hs) _ ?_
  exact forEach_dramWf (fun x s hs => diagPut_dramWf _ _ hs) _ hs

theorem readLines_dramWf (hits : List (Nat × Nat × EccHit)) (l : List (Nat × Nat)) (c : DiagCount) {s : State} (hs : dramWf s.dram) :
    dramWf (readLines hits l c s).2.2.dram := by
  induction l generalizing c s with
  | nil => exact hs
  | cons x l ih =>
    have h := diagLine_dramWf .read (hitsAt hits x.1 x.2) x.2 hs
    unfold readLines
    dsimp only
    split
    · exact h
    · exact ih _ h

@[simp] theorem diagEnd_dramWf (failed hits) {s : State} (hs : dramWf s.dram) :
    dramWf (diagEnd failed hits s).dram := by
  unfold diagEnd
  split
  · exact hs
  · extract_lets ds order
    split
    · refine (diagReply_kept ..).dramWf ?_
      refine forEach_dramWf (fun x s hs => by simpa using hs) _ ?_
      exact forEach_dramWf (fun p s hs => scanPass_dramWf _ _ hs) _ hs
    · exact (diagReply_kept ..).dramWf (readLines_dramWf _ _ _ hs)
    · refine (diagReply_kept ..).dramWf ?_
      exact forEach_dramWf (fun d s hs => diagPut_dramWf _ _ hs) _ hs

@[simp] theorem storeRect_dramWf (x m) {s : State} (hs : dramWf s.dram) : dramWf (storeRect x m s).dram := by
  unfold storeRect
  refine forEach_dramWf (fun y s hs => forEach_dramWf (fun k s hs => ?_) _ hs) _ hs
  dsimp only
  split <;> exact stageWrite_dramWf _ _ hs

@[simp] theorem writeRow_dramWf (a size vals) {s : State} (hs : dramWf s.dram) :
    dramWf (writeRow a size vals s).dram := foldl_dramWf (fun _ _ hs => stageWrite_dramWf _ _ hs) _ hs

@[simp] theorem targetBlind_dramWf (t r) {s : State} (hs : dramWf s.dram) : dramWf (targetBlind t r s).dram := by
  unfold targetBlind
  dsimp only
  split
  · exact writeRow_dramWf _ _ _ hs
  · exact hs

@[simp] theorem stateBack_dramWf (t r) {s : State} (hs : dramWf s.dram) : dramWf (stateBack t r s).dram := by
  unfold stateBack
  dsimp only
  split
  · exact hs
  · exact foldl_dramWf (fun s c hs => stageWrite_dramWf _ _ hs) _ hs

@[simp] theorem blindRow_dramWf (b t r px) {s : State} (hs : dramWf s.dram) : dramWf (blindRow b t r px s).dram := by
  unfold blindRow
  extract_lets x gBase usable s₁ s₂
  have h₂ : dramWf s₂.dram := stateBack_dramWf _ _ (by simpa [s₁] using hs)
  clear_value s₂
  split
  · split
    exact foldl_dramWf (fun s row hs => writeRow_dramWf _ _ _ hs) _ (by simpa using h₂)
  · exact h₂

@[simp] theorem flatField_dramWf (t r c p v) {s : State} (hs : dramWf s.dram) :
    dramWf (flatField t r c p v s).dram := by
  unfold flatField
  extract_lets x slotA
  split
  · exact stageWrite_dramWf _ _ (by simpa using hs)
  · exact stageWrite_dramWf _ _ hs
  · exact hs

@[simp] theorem heldRow_dramWf (b t r px) {s : State} (hs : dramWf s.dram) : dramWf (heldRow b t r px s).dram := by
  simp only [heldRow]
  refine stateBack_dramWf _ _ (foldl_dramWf (fun s p hs => flatField_dramWf _ _ _ _ _ ?_) _
    ((modWork_kept ..).dramWf (writeRow_dramWf _ _ _ hs)))
  exact ite_wf hs ((modWork_kept ..).dramWf hs)

@[simp] theorem finishRow_dramWf (b t r above mid below) {s : State} (hs : dramWf s.dram) :
    dramWf (finishRow b t r above mid below s).dram := by
  unfold finishRow
  refine foldl_dramWf (fun s c hs => ?_) _ hs
  dsimp only
  have h := stageWrite_dramWf (corrAddr b (s.cfg.n % Bank.nCorr b) t r + 2 * c) [] hs
  split <;> simp [hs]

@[simp] theorem activeRow_dramWf (b t r px) {s : State} (hs : dramWf s.dram) :
    dramWf (activeRow b t r px s).dram := by simp [activeRow, hs]

@[simp] theorem readRow_dramWf (b t r codesA codesB late) {s : State} (hs : dramWf s.dram) :
    dramWf (readRow b t r codesA codesB late s).dram := by
  unfold readRow
  split
  next px da db _ =>
  extract_lets x s₁ s₂ s₃ active cnt s₄ s₅
  have h₂ : dramWf s₂.dram := writeRow_dramWf _ _ _ (by simpa [s₁] using hs)
  have h₃ : dramWf s₃.dram := by
    simp only [s₃]
    split
    · exact h₂
    · exact writeRow_dramWf _ _ _ h₂
  have h₅ : dramWf s₅.dram := by simpa [s₅, s₄] using h₃
  clear_value s₅
  split
  · exact targetBlind_dramWf _ _ (blindRow_dramWf _ _ _ _ h₅)
  · split
    · exact heldRow_dramWf _ _ _ _ h₅
    · exact activeRow_dramWf _ _ _ _ h₅

@[simp] theorem placeholderRow_dramWf (b t r) {s : State} (hs : dramWf s.dram) :
    dramWf (placeholderRow b t r s).dram := writeRow_dramWf _ _ _ hs

@[simp] theorem laneRow_dramWf (t codesA codesB rstA rstB tstat late full hits) {s : State} (hs : dramWf s.dram) :
    dramWf (laneRow t codesA codesB rstA rstB tstat late full hits s).dram := by
  unfold laneRow
  dsimp only
  split <;> simp [hs]

@[simp] theorem holdPart_dramWf (hits) {s : State} (hs : dramWf s.dram) : dramWf (holdPart hits s).dram := by
  unfold holdPart
  (repeat' split) <;> simp [hs]

@[simp] theorem trainResults_dramWf (mask : BitVec 8) (eyeMin rate : Nat) (steps : Bool) (l : List (List ChannelResult)) (s : State) :
    dramWf (trainResults mask eyeMin rate steps l s).2.dram := (memcFollow_kept ..).dramWf (dramWf_nil _)

@[simp] theorem endLoadCheck_dramWf (hits) {s : State} (hs : dramWf s.dram) : dramWf (endLoadCheck hits s).dram := by
  unfold endLoadCheck
  split <;> simp [hs]

@[simp] theorem laneCut_dramWf (t) {s : State} (hs : dramWf s.dram) : dramWf (laneCut t s).dram := by
  unfold laneCut
  split <;> simp [hs]

@[simp] theorem mainReset_dramWf (keep pend) (s : State) : dramWf (mainReset keep pend s).dram := dramWf_nil _

@[simp] theorem fundamental_dramWf (i) (s : State) :
    dramWf (fundamental i s).dram := by simp [fundamental]

@[simp] theorem serveHost_dramWf (x0) {s : State} (hs : dramWf s.dram) : dramWf (serveHost x0 s).dram := by
  induction x0 generalizing s with
  | zero => exact hs
  | succ n ih =>
    unfold serveHost
    split
    · split
      · exact ih (issue_dramWf _ _ hs)
      · exact hs
    · exact hs

@[simp] theorem pumpHost_dramWf {s : State} (hs : dramWf s.dram) : dramWf (pumpHost s).dram := by simp [pumpHost, hs]

@[simp] theorem startStages_dramWf {s : State} (hs : dramWf s.dram) :
    dramWf (startStages s).dram := by simp [startStages, hs]

@[simp] theorem supplyLoss_dramWf (cut) (s : State) :
    dramWf (supplyLoss cut s).dram := by simp [supplyLoss]

@[simp] theorem bar2_dramWf (d write len hits) {s : State} (hs : dramWf s.dram) :
    dramWf (bar2 d write len hits s).dram := by
  unfold bar2
  (repeat' split) <;> simp [hs]

@[simp] theorem copyUnread_dramWf (p) {s : State} (hs : dramWf s.dram) : dramWf (copyUnread p s).dram := by
  unfold copyUnread
  extract_lets t x stride
  split
  · exact hs
  · exact forEach_dramWf (fun r s hs => stageWrite_dramWf _ _ (traffic_dramWf _ _ _ hs)) _ hs

@[simp] theorem endLaneSave_dramWf (p) {s : State} (hs : dramWf s.dram) :
    dramWf (endLaneSave p s).dram := by simp [endLaneSave, hs]

@[simp] theorem laneSavesEnd_dramWf {s : State} (hs : dramWf s.dram) : dramWf (laneSavesEnd s).dram := by
  unfold laneSavesEnd
  split
  · exact hs
  · exact forEach_dramWf (fun p s hs => endLaneSave_dramWf _ (traffic_dramWf _ _ _ hs)) _ hs

@[simp] theorem holdFrameEnd_dramWf {s : State} (hs : dramWf s.dram) : dramWf (holdFrameEnd s).dram := by
  unfold holdFrameEnd
  split <;> simp [hs]

@[simp] theorem endPeriod_dramWf {s : State} (hs : dramWf s.dram) : dramWf (endPeriod s).dram := by
  unfold endPeriod
  extract_lets s₁ s₂ s₃ dma lane eng s₄ s₅
  have h₁ : dramWf s₁.dram := forEach_dramWf (fun t s hs => laneCut_dramWf t hs) _ hs
  have h₂ : dramWf s₂.dram := by simpa [s₂] using laneSavesEnd_dramWf h₁
  have h₅ : dramWf s₅.dram := by
    simp only [s₅, s₄, s₃]
    split
    · refine (forEach_keptDram (fun m s => overrunStream_kept m s) _ _).dramWf ?_
      simpa using h₂
    · simpa using h₂
  clear_value s₅
  simpa using holdFrameEnd_dramWf h₅

@[simp] theorem settleDbufs_dramWf {s : State} (hs : dramWf s.dram) : dramWf (settleDbufs s).dram := by
  unfold settleDbufs
  refine forEach_dramWf (fun p s hs => ?_) _ (by simpa using hs)
  simpa using traffic_dramWf _ _ _ hs

@[simp] theorem turnPeriod_dramWf {s : State} (hs : dramWf s.dram) : dramWf (turnPeriod s).dram := by
  unfold turnPeriod
  extract_lets s₁ s₂ s₃ s₄ s₅
  have h₂ : dramWf s₂.dram := by simpa [s₂, s₁] using hs
  have h₃ : dramWf s₃.dram :=
    (forEach_keptDram (fun t s => (turnTile_kept t s).trans (settleLane_kept t _)) _ _).dramWf (settleDbufs_dramWf h₂)
  have h₄ : dramWf s₄.dram := (forEach_keptDram (fun q s => by simp) _ _).dramWf h₃
  exact ((modMemc_kept _ s₄).trans (modHost_kept _ _)).dramWf h₄

@[simp] theorem replayTick_dramWf {s : State} (hs : dramWf s.dram) : dramWf (replayTick s).dram := by
  unfold replayTick
  split <;> simp [hs]

@[simp] theorem decideTick_dramWf {s : State} (hs : dramWf s.dram) :
    dramWf (decideTick s).dram := by simp [decideTick, hs]

@[simp] theorem startFrame_dramWf (park late missed skipped) {s : State} (hs : dramWf s.dram) :
    dramWf (startFrame park late missed skipped s).dram := by
  unfold startFrame
  extract_lets s₁ s₂ p
  have h₂ : dramWf s₂.dram := beginFrame_dramWf ((modTick_keptDram _ s).dramWf hs)
  exact (modTick_keptDram _ s₂).dramWf h₂

@[simp] theorem tickStep_dramWf {s : State} (hs : dramWf s.dram) : dramWf (tickStep s).dram := by
  rw [tickStep_eq]
  split
  · exact hs
  · have h₁ : dramWf (tickEnd s).dram :=
      endPeriod_dramWf ((openBatch_kept _).dramWf ((modTick_keptDram _ s).dramWf hs))
    have h₂ : dramWf (enterFrozen (syncTick (stampTick (tickEnd s)))).dram :=
      (enterFrozen_kept _).dramWf ((syncTick_kept _).dramWf ((stampTick_kept _).dramWf h₁))
    have h₃ : dramWf (tickBefore s).dram :=
      (releaseBatch_kept _).dramWf (decideTick_dramWf (turnPeriod_dramWf ((parkTick_kept _).dramWf h₂)))
    exact (noteEntry_kept ..).dramWf ((hkTickOver_kept _).dramWf (startStages_dramWf
      (startFrame_dramWf _ _ _ _ (runDue_dramWf h₃))))

@[simp] theorem saveCopyEnd_dramWf (table hits) {s : State} (hs : dramWf s.dram) :
    dramWf (saveCopyEnd table hits s).dram := by
  unfold saveCopyEnd
  split <;> simp [hs]

@[simp] theorem trainEnd_dramWf (l) {s : State} (hs : dramWf s.dram) : dramWf (trainEnd l s).dram := by
  unfold trainEnd
  split
  · exact (hkAsk_kept ..).dramWf (trainResults_dramWf ..)
  · split
    · exact hs
    · next r _ =>
      have h := trainResults_dramWf r.mask r.eyeMin r.rate r.steps l s
      exact (reply_kept ..).dramWf h

@[simp] theorem bar0HostDrop_dramWf (a be) {s : State} (hs : dramWf s.dram) :
    dramWf (bar0HostDrop a be s).dram := by simp [bar0HostDrop, hs]

@[simp] theorem endDelivery_dramWf (m hits) {s : State} (hs : dramWf s.dram) : dramWf (endDelivery m hits s).dram := by
  unfold endDelivery
  split <;> simp [hs]

@[simp] theorem putStats_dramWf (b t st) {s : State} (hs : dramWf s.dram) :
    dramWf (putStats b t st s).dram := by simp [putStats, hs]

@[simp] theorem laneFrameEnd_dramWf (t hits) {s : State} (hs : dramWf s.dram) :
    dramWf (laneFrameEnd t hits s).dram := by
  unfold laneFrameEnd
  split <;> simp [hs]

@[simp] theorem eventAppend_dramWf (x data) {s : State} (hs : dramWf s.dram) :
    dramWf (eventAppend x data s).dram := by simp [eventAppend, hs]

@[simp] theorem holdRingWrite_dramWf (b h bs) {s : State} (hs : dramWf s.dram) :
    dramWf (holdRingWrite b h bs s).dram := by simp [holdRingWrite, hs]

@[simp] theorem holdAppend_dramWf (x data) {s : State} (hs : dramWf s.dram) :
    dramWf (holdAppend x data s).dram := by simp [holdAppend, hs]

@[simp] theorem storeOp_dramWf (x) {s : State} (hs : dramWf s.dram) : dramWf (storeOp x s).dram := by
  unfold storeOp
  extract_lets m data
  split
  · exact stageWrite_dramWf _ _ hs
  · exact ite_wf (eventAppend_dramWf _ _ hs) (holdAppend_dramWf _ _ hs)
  · exact storeRect_dramWf _ _ hs

@[simp] theorem endOperator_dramWf (e check hits) {s : State} (hs : dramWf s.dram) :
    dramWf (endOperator e check hits s).dram := by
  unfold endOperator
  split
  case h_2 => exact hs
  refine ite_wf hs ?_
  extract_lets x dma port s₁ before s₂ s₃ s₄ rest
  have h₁ : dramWf s₁.dram := by
    simp only [s₁]
    split <;> exact hs
  have h₂ : dramWf s₂.dram := traffic_dramWf _ _ _ h₁
  have h₃ : dramWf s₃.dram := ite_wf h₂ (ite_wf (storeOp_dramWf _ h₂) h₂)
  refine ite_wf hs (ite_wf ?_ (ite_wf ?_ (ite_wf ?_ h₃)))
  · exact (afterSlots_kept ..).dramWf ((faultSlot_kept ..).dramWf h₁)
  · exact (afterSlots_kept ..).dramWf ((faultSlot_kept ..).dramWf h₁)
  · exact (afterSlots_kept ..).dramWf ((faultSlot_kept ..).dramWf h₂)

@[simp] theorem sptWrite_dramWf (cmd data partialWord) {s : State} (hs : dramWf s.dram) :
    dramWf (sptWrite cmd data partialWord s).dram := by
  unfold sptWrite sptFrame
  split
  · exact hs
  · split
    · simpa using hs
    · have h := writeWords_dramWf (sptAddr cmd) (data.take (sptCount cmd)) hs
      dsimp only
      split
      · simpa using h
      · exact h

@[simp] theorem clockTick_dramWf {s : State} (hs : dramWf s.dram) : dramWf (clockTick s).dram := by
  unfold clockTick
  split
  · extract_lets c s₁
    have h₁ : dramWf s₁.dram := (countLife_kept _).dramWf (s := { s with clock := c }) hs
    split
    · exact pumpHost_dramWf ((modMemc_kept ..).dramWf h₁)
    · exact h₁
  · exact hs

theorem barAccess_dramWf {f : State → State} (hf : ∀ s, dramWf s.dram → dramWf (f s).dram) {s : State}
    (hs : dramWf s.dram) : dramWf (barAccess f s).dram := by
  unfold barAccess
  split
  · exact hs
  · exact hf s hs

theorem endPage_dramWf {s : State} (hs : dramWf s.dram) : dramWf (endPage s).dram := by
  unfold endPage
  split
  · exact hs
  · split
    · exact hs
    · next p _ =>
      have h : dramWf (landPage p s).dram := hs
      generalize landPage p s = u at h
      dsimp only
      split
      · exact h
      · split
        · exact h
        · split <;> simp [h]

/-! ### Every command keeps DRAM in canonical form -/

theorem exec_dramWf {c : Instr} {s t : State} (e : exec c s = .next t) (hs : dramWf s.dram) : dramWf t.dram := by
  cases c
  case memAccessIssue l hits =>
    change execMemAccessIssue l hits s = _ at e
    unfold execMemAccessIssue at e
    split at e
    · exact absurd e (by simp)
    · obtain rfl := Host.Outcome.next.inj e
      generalize hu : countWaits (forEach l arrive s) = u
      have h : dramWf u.dram := by
        rw [← hu]
        exact ((forEach_keptDram (fun r s => arrive_kept r s) l s).trans (countWaits_kept _)).dramWf hs
      split <;> simp [h]
  case keepScrubEnd =>
    change execKeepScrubEnd s = _ at e
    unfold execKeepScrubEnd at e
    split at e
    · split at e <;> obtain rfl := Host.Outcome.next.inj e
      · exact (keepDone_kept _).dramWf ((workReply_kept ..).dramWf hs)
      · exact hs
    · obtain rfl := Host.Outcome.next.inj e
      exact hs
  case missedTick =>
    change execMissedTick s = _ at e
    unfold execMissedTick at e
    split at e
    · obtain rfl := Host.Outcome.next.inj e
      split <;> simp [hs]
    · obtain rfl := Host.Outcome.next.inj e
      exact hs
  all_goals obtain rfl := Host.Outcome.next.inj e
  case quietWindowOpen =>
    split
    · exact hs
    · split
      · exact ite_wf ((modMemc_kept ..).dramWf hs) hs
      · exact hs
  case quietWindowClose => exact pumpHost_dramWf ((modMemc_kept ..).dramWf hs)
  case keepRingIndexBuilt => exact ite_wf ((indexBuilt_kept _ s).dramWf hs) hs
  case replayEnd =>
    split
    · exact ite_wf hs ((endReplay_kept s).dramWf hs)
    · exact hs
  case writeCfg => exact writeCfg_dramWf _ _ _ hs
  case swapConfig => exact (noteEntry_kept ..).dramWf (swapConfig_dramWf _ hs)
  case keepPageWriteEnd => exact endPage_dramWf hs
  case registerWrite => exact barAccess_dramWf (fun s hs => bar0Write_dramWf _ _ _ hs) hs
  case shadowWindowWrite => exact barAccess_dramWf (fun s hs => bar0Write_dramWf _ _ _ hs) hs
  case tickParkPeriodWrite => exact barAccess_dramWf (fun s hs => bar0Write_dramWf _ _ _ hs) hs
  case memcHashWrite => exact barAccess_dramWf (fun s hs => hashWrite_dramWf _ _ hs) hs
  case firmwareWindowWrite => exact barAccess_dramWf (fun s hs => by rwa [fwWrite, modDev_dram]) hs
  case bar0UnimplementedAccess =>
    refine barAccess_dramWf (fun s hs => ?_) hs
    split
    · exact bar0HostDrop_dramWf _ _ hs
    · exact (bar0HostRead_kept ..).dramWf hs
  case dramCaparError => exact memFreeze_dramWf _ _ _ _ _ _ (by rwa [modCh_dram])
  case dlyRsp =>
    refine (lineOk_keptDram (fun s => ?_) s).dramWf hs
    split
    · exact .ite (by simp) (KeptDram.refl s)
    · exact KeptDram.refl s
  case idDone =>
    split
    · exact ite_wf ((assignOn_kept ..).dramWf hs) hs
    · exact hs
  case assignTimeout =>
    split
    · split
      · exact (assignOn_kept ..).dramWf hs
      · exact hs
    · exact hs
  all_goals simp [hs]

/-- Settles O7: every write of DRAM is canonical, and an event that makes its content undefined leaves no byte listed. -/
theorem stepKeepsDramCanonical : Obligations.StepKeepsDramCanonical := by
  intro s t w e
  unfold step at e
  split at e
  · obtain rfl := Host.Outcome.next.inj e
    exact clockTick_dramWf w
  · exact exec_dramWf e w

end Sys2Proof.Proofs
end

section
/-! PROOFS. A tick with no command due (02 R34, R59). -/
namespace Sys2Proof.Proofs

open Sys2Proof Sys2Proof.Machine Sys2Proof.Laws

theorem syncTick_eqs (s : State) (ha : s.sync.adopt = none) : (syncTick s).clock = s.clock ∧
    (syncTick s).tick.sfn = sfnNext s.tick.sfn ∧ (syncTick s).tick.queue = s.tick.queue ∧
    (syncTick s).cfg.n = s.cfg.n ∧ (syncTick s).cfg.locked = s.cfg.locked := by
  unfold syncTick
  simp only [ha]
  split
  · next h => exact absurd h (by simp)
  · obtain ⟨hc, hs, hq, hn, hl⟩ := enterHoldover_eqs _ _
    rw [hc, hs, hq, hn, hl]
    exact ⟨rfl, rfl, rfl, rfl, rfl⟩
  · exact ⟨rfl, rfl, rfl, rfl, rfl⟩

theorem modTick_paced {f : TickBlk → TickBlk} (h : ∀ t, (f t).sfn = t.sfn ∧ (f t).queue = t.queue) (s : State) :
    Paced s (modTick f s) := by
  simp [h]

theorem stampTick_eqs (s : State) : (stampTick s).clock = { s.clock with lastTick := s.clock.now } ∧
    (stampTick s).tick = s.tick ∧ (stampTick s).cfg = s.cfg ∧ (stampTick s).sync = s.sync := ⟨rfl, rfl, rfl, rfl⟩

theorem tickEnd_paced (s : State) : Paced s (tickEnd s) := by
  unfold tickEnd
  exact (modTick_paced (by simp) s).trans ((openBatch_paced _).trans (endPeriod_paced _))

/-- Up to the commands due at it, a tick with no message to adopt carries the next SFN and counts a tick of the set. -/
theorem tickBefore_eqs (s : State) (ha : s.sync.adopt = none) :
    (tickBefore s).clock = { s.clock with lastTick := s.clock.now } ∧ (tickBefore s).tick.sfn = sfnNext s.tick.sfn ∧
    (tickBefore s).tick.queue = s.tick.queue ∧ (tickBefore s).cfg.n = s.cfg.n + 1 ∧
    (tickBefore s).cfg.locked = (s.cfg.locked && !decide (2 ≤ s.cfg.n + 1)) := by
  obtain ⟨ec, es, eq, en, el, ea⟩ := tickEnd_paced s
  obtain ⟨mc, mt, mf, ms⟩ := stampTick_eqs (tickEnd s)
  obtain ⟨yc, ys, yq, yn, yl⟩ := syncTick_eqs (stampTick (tickEnd s)) (by rw [ms, ea, ha])
  rw [mc, ec] at yc
  rw [mt, es] at ys
  rw [mt, eq] at yq
  rw [mf, en] at yn
  rw [mf, el] at yl
  generalize hu : syncTick (stampTick (tickEnd s)) = u at yc ys yq yn yl
  obtain ⟨pc, ps, pq, pn, pl, -⟩ := (enterFrozen_paced u).trans (parkTick_paced _)
  obtain ⟨tc, ts, tq, tn, tl, -⟩ := turnPeriod_paced (parkTick (enterFrozen u))
  obtain ⟨lc, lt, ln, ll, -⟩ := endLock_eqs (modCfg (fun c => { c with n := c.n + 1 }) (parkTick (enterFrozen u)))
  obtain ⟨rc, rs, rq, rn, rl, -⟩ := (decideTick_paced (turnPeriod (parkTick (enterFrozen u)))).trans (releaseBatch_paced _)
  rw [lc, modCfg_clock, pc, yc] at tc
  rw [lt, modCfg_tick] at ts tq
  rw [ln] at tn
  rw [ll] at tl
  rw [tickBefore, hu, rc, rs, rq, rn, rl, tc, ts, tq, tn, tl]
  rw [modCfg_cfg]
  refine ⟨rfl, ps.trans ys, pq.trans yq, ?_, ?_⟩
  · show (parkTick (enterFrozen u)).cfg.n + 1 = _
    rw [pn, yn]
  · show ((parkTick (enterFrozen u)).cfg.locked && !decide (2 ≤ (parkTick (enterFrozen u)).cfg.n + 1)) = _
    rw [pn, yn, pl, yl]

theorem runDue_of_nil {s : State} (h : dueCommands s = []) : Paced s (runDue s) ∧ Kept s (runDue s) := by
  have hq : s.tick.queue.filter (fun q => q.hdr.sfn ≠ s.tick.sfn) = s.tick.queue := by
    refine List.filter_eq_self.2 fun q hq => ?_
    have := List.filter_eq_nil_iff.1 h q hq
    simpa using this
  have hp : Paced s (runDue s) := by
    simp [runDue, h, forEach]
    simpa using hq
  have hk : Kept s (runDue s) := by simp [runDue, h, forEach]
  exact ⟨hp, hk⟩

theorem tickAfter_paced (s u : State) : Paced u (tickAfter s u) := by
  unfold tickAfter
  exact (startFrame_paced ..).trans ((startStages_paced _).trans ((hkTickOver_paced _).trans (noteEntry_paced ..)))

/-- Settles O12: the end of the period, the turn to the next and the decisions of a tick bring no command and no bank, and
none is due. -/
theorem tickCarriesNextSfn : Obligations.TickCarriesNextSfn := by
  intro s
  refine ⟨fun hr => ?_, fun hr ha hq => ?_⟩
  · show Host.Outcome.next (tickStep s) = _
    simp [tickStep_eq, hr]
  · obtain ⟨bc, bs, bq, bn, bl⟩ := tickBefore_eqs s ha
    have hd : dueCommands (tickBefore s) = [] := by
      refine List.filter_eq_nil_iff.2 fun q h => ?_
      rw [bs]
      simpa using hq q (bq ▸ h)
    obtain ⟨ac, as, aq, an, al, -⟩ := (runDue_of_nil hd).1.trans (tickAfter_paced s _)
    obtain ⟨-, -, -, ka, ks, -⟩ := (tickBefore_kept s).trans ((runDue_of_nil hd).2.trans (tickAfter_kept s _))
    have hl : (!decide (2 ≤ s.cfg.n + 1)) = decide (s.cfg.n = 0) := by
      by_cases hn : s.cfg.n = 0
      · simp [hn]
      · simp [hn]
        omega
    refine ⟨tickStep s, rfl, ?_⟩
    have e : tickStep s = tickAfter s (runDue (tickBefore s)) := by simp [tickStep_eq, hr]
    rw [e, as, ac, aq, an, al, bs, bc, bq, bn, bl, ka, ks, hl]
    exact ⟨rfl, rfl, rfl, rfl, rfl, rfl, rfl⟩

end Sys2Proof.Proofs
end

section
/-! PROOFS. Rules that the statements on single commands share: what a command does once it executes, and what a reply looks at. -/
namespace Sys2Proof.Proofs

open Sys2Proof Sys2Proof.Machine Sys2Proof.Laws

/-! ### Vectors indexed by a number, and the parts of the state -/

theorem vget_vmod_same {α : Type} {n i : Nat} (h : i < n) (v : Vector α n) (f : α → α) (d : α) :
    vget (vmod v i f) i d = f (vget v i d) := by
  simp [vget, vmod, h]

theorem vget_vmod_ne {α : Type} {n i j : Nat} (h : j ≠ i) (v : Vector α n) (f : α → α) (d : α) :
    vget (vmod v i f) j d = vget v j d := by
  unfold vget vmod
  split
  · rw [Vector.getElem?_set_ne _ h.symm]
  · rfl

@[simp] theorem tileOf_modTile_same {t : Nat} (h : t < 64) (f) (s : State) : tileOf (modTile t f s) t = f (tileOf s t) :=
  vget_vmod_same h _ f _
theorem tileOf_modTile_ne {t u : Nat} (h : u ≠ t) (f) (s : State) : tileOf (modTile t f s) u = tileOf s u :=
  vget_vmod_ne h _ f _
@[simp] theorem engOf_modEng_same {e : Nat} (h : e < 96) (f) (s : State) : engOf (modEng e f s) e = f (engOf s e) :=
  vget_vmod_same h _ f _
theorem engOf_modEng_ne {e u : Nat} (h : u ≠ e) (f) (s : State) : engOf (modEng e f s) u = engOf s u :=
  vget_vmod_ne h _ f _
@[simp] theorem chOf_modCh_same {n : Nat} (h : n < 8) (f) (s : State) : chOf (modCh n f s) n = f (chOf s n) :=
  vget_vmod_same h _ f _
theorem chOf_modCh_ne {n u : Nat} (h : u ≠ n) (f) (s : State) : chOf (modCh n f s) u = chOf s u :=
  vget_vmod_ne h _ f _
@[simp] theorem streamOf_modStream_same {m : Nat} (h : m < 32) (f) (s : State) : streamOf (modStream m f s) m = f (streamOf s m) :=
  vget_vmod_same h _ f _
theorem streamOf_modStream_ne {m u : Nat} (h : u ≠ m) (f) (s : State) : streamOf (modStream m f s) u = streamOf s u :=
  vget_vmod_ne h _ f _
@[simp] theorem coilOf_modCoil_same {t : Nat} (h : t < 64) (f) (s : State) : coilOf (modCoil t f s) t = f (coilOf s t) :=
  vget_vmod_same h _ f _
theorem coilOf_modCoil_ne {t u : Nat} (h : u ≠ t) (f) (s : State) : coilOf (modCoil t f s) u = coilOf s u :=
  vget_vmod_ne h _ f _
@[simp] theorem groupOf_modGroup_same {g : Nat} (h : g < 16) (f) (s : State) : groupOf (modGroup g f s) g = f (groupOf s g) :=
  vget_vmod_same h _ f _
theorem groupOf_modGroup_ne {g u : Nat} (h : u ≠ g) (f) (s : State) : groupOf (modGroup g f s) u = groupOf s u :=
  vget_vmod_ne h _ f _
@[simp] theorem quadOf_modQuad_same {q : Nat} (h : q < 4) (f) (s : State) : quadOf (modQuad q f s) q = f (quadOf s q) :=
  vget_vmod_same h _ f _
theorem quadOf_modQuad_ne {q u : Nat} (h : u ≠ q) (f) (s : State) : quadOf (modQuad q f s) u = quadOf s u :=
  vget_vmod_ne h _ f _


/-! ### A command at its tick -/

theorem runAtTick_of_live {h : Hdr} {op : Nat} {f : State → State} {s : State} (hoff : s.dev.power ≠ .off)
    (hfrozen : s.dev.power ≠ .frozen) : runAtTick h op f s = f (counted s) := by
  unfold runAtTick
  simp only [if_neg hoff, modCmdq_dev, hfrozen, decide_false, Bool.false_and]
  rfl

/-- A command that the frozen state lets run (R306) executes in every state but OFF. -/
theorem runAtTick_of_free {h : Hdr} {op : Nat} {f : State → State} {s : State} (hoff : s.dev.power ≠ .off)
    (hop : (decide (0x20 ≤ op) && decide (op ≤ 0x34) && decide (op ≠ 0x21) && decide (op ≠ 0x32)) = false) :
    runAtTick h op f s = f (counted s) := by
  unfold runAtTick
  simp only [if_neg hoff, Bool.and_assoc] at hop ⊢
  simp only [hop, Bool.and_false]
  rfl

/-! ### What a reply looks at -/

/-- The two states hold the same queues of replies and the same link to the host. -/
def SamePost (s t : State) : Prop := s.cmdq = t.cmdq ∧ s.host = t.host

theorem SamePost.rfl {s : State} : SamePost s s := ⟨Eq.refl _, Eq.refl _⟩

theorem modCmdq_samePost {s t : State} (h : SamePost s t) (f : Cmdq → Cmdq) : SamePost (modCmdq f s) (modCmdq f t) :=
  ⟨congrArg f h.1, h.2⟩

theorem hostWrite_samePost {s t : State} (h : SamePost s t) (a : Nat) (bs : List Byte) :
    SamePost (hostWrite a bs s) (hostWrite a bs t) :=
  ⟨by simpa using h.1, by simpa using h.2⟩

theorem sendVector_samePost {s t : State} (h : SamePost s t) (v : Nat) : SamePost (sendVector v s) (sendVector v t) := by
  obtain ⟨hc, hh⟩ := h
  have hb : msixBlocked v s = msixBlocked v t := by simp [msixBlocked, msixWord, canIssue, hh]
  unfold sendVector
  rw [hb]
  split
  · exact ⟨hc, by rw [modHost_host, modHost_host, hh]⟩
  · exact ⟨hc, hh⟩

theorem replyRoom_samePost {s t : State} (h : SamePost s t) : replyRoom s = replyRoom t := by
  simp [replyRoom, canIssue, h.1, h.2]

theorem postHeld_samePost {s t : State} (h : SamePost s t) : SamePost (postHeld s) (postHeld t) := by
  have hr := replyRoom_samePost h
  have hc := h.1
  unfold postHeld
  rw [hr, hc]
  split
  · exact h
  · split
    · have hw {a b a' b'} := hostWrite_samePost (hostWrite_samePost h a b) a' b'
      simp only [hostWrite_cmdq, hc]
      split
      · exact sendVector_samePost (modCmdq_samePost hw _) 3
      · exact modCmdq_samePost hw _
    · exact h

theorem postAll_samePost (n : Nat) {s t : State} (h : SamePost s t) : SamePost (postAll n s) (postAll n t) := by
  induction n generalizing s t with
  | zero => exact h
  | succ n ih =>
    unfold postAll
    rw [replyRoom_samePost h, h.1]
    split
    · exact h
    · exact ih (postHeld_samePost h)

theorem mboxShow_samePost (m : Bool) {s t : State} (h : SamePost s t) : SamePost (mboxShow m s) (mboxShow m t) := by
  have hm : mboxOf s m = mboxOf t m := by simp [mboxOf, h.1]
  unfold mboxShow
  rw [hm]
  split
  · exact h
  · simp only [modMbox, modCmdq_host, h.2]
    split
    · exact modCmdq_samePost h _
    · exact sendVector_samePost (modCmdq_samePost h _) 3

theorem sendParts_samePost (h : Hdr) (ps : List ReplyPart) {s t : State} (e : SamePost s t) :
    SamePost (sendParts h ps s) (sendParts h ps t) := by
  unfold sendParts
  split
  · rw [e.1]
    split
    · exact postAll_samePost _ (modCmdq_samePost e _)
    · exact modCmdq_samePost e _
  · exact mboxShow_samePost false (modCmdq_samePost e _)
  · exact mboxShow_samePost true (modCmdq_samePost e _)

theorem replyParts_samePost (h : Hdr) (op : Nat) (st : BitVec 16) (ws : List (List Word)) {s t : State}
    (e : SamePost s t) : SamePost (replyParts h op st ws s) (replyParts h op st ws t) := by
  unfold replyParts
  split
  · exact sendParts_samePost _ _ e
  · exact sendParts_samePost _ _ (modCmdq_samePost e _)

/-- A reply reads the queues of replies and the link to the host alone. -/
theorem reply_cmdq_congr {s t : State} (hc : s.cmdq = t.cmdq) (hh : s.host = t.host) (h : Hdr) (op : Nat)
    (st : BitVec 16) (ws : List Word) : (reply h op st ws s).cmdq = (reply h op st ws t).cmdq :=
  (replyParts_samePost h op st [ws] ⟨hc, hh⟩).1

/-! ### The note of an entry into PARKED or LOW -/

theorem forEach_onlyKeep {α : Type} {f : α → State → State} (h : ∀ a s, ∃ k, f a s = { s with keep := k }) (l : List α)
    (s : State) : ∃ k, forEach l f s = { s with keep := k } :=
  forEach_invariant (P := fun t => ∃ k, t = { s with keep := k }) (fun a t ⟨k, e⟩ => by
    obtain ⟨k', e'⟩ := h a t
    exact ⟨k', e'.trans (by rw [e])⟩) l s ⟨s.keep, rfl⟩

/-- An entry into PARKED or LOW writes the keeping store alone (R408). -/
theorem noteEntry_onlyKeep (was : Power) (s : State) : ∃ k, noteEntry was s = { s with keep := k } := by
  unfold noteEntry
  split
  · unfold counterEntry
    split
    · obtain ⟨k, e⟩ := forEach_onlyKeep (f := fun i s => keepOwn (64 + i) (coilPayload s i) s) (fun i s => ⟨_, rfl⟩)
        (List.range 4) s
      refine ⟨(counterAppend s).keep, ?_⟩
      unfold counterAppend
      extract_lets s'
      rw [show s' = _ from e]
      rfl
    · exact ⟨s.keep, rfl⟩
  · exact ⟨s.keep, rfl⟩

theorem noteEntry_same {was : Power} {s : State} (h : s.dev.power = was) : noteEntry was s = s := by
  simp [noteEntry, h]

end Sys2Proof.Proofs
end

section
/-! PROOFS. Commands that answer at their tick, configuration sets, and commands refused (13 R314 to R317; 14 R333 to R339). -/
namespace Sys2Proof.Proofs

open Sys2Proof Sys2Proof.Machine Sys2Proof.Laws

/-- Between the two states the banks with what they show, and the SFN, are the same. -/
@[simp] abbrev SetHeld (s t : State) : Prop :=
  t.cfg = s.cfg ∧ t.tick.sfn = s.tick.sfn

theorem SetHeld.refl (s : State) : SetHeld s s := ⟨rfl, rfl⟩

theorem SetHeld.trans {s t u : State} (a : SetHeld s t) (b : SetHeld t u) : SetHeld s u := by
  simp_all

theorem SetHeld.ite {c : Prop} [Decidable c] {s t u : State} (ht : SetHeld s t) (hu : SetHeld s u) :
    SetHeld s (if c then t else u) := by
  split
  · exact ht
  · exact hu

@[simp] theorem forEach_setHeld {α : Type} {f : α → State → State} (h : ∀ a s, SetHeld s (f a s)) (l : List α) (s : State) :
    SetHeld s (forEach l f s) :=
  forEach_invariant (P := SetHeld s) (fun a _ hs => hs.trans (h a _)) l s (SetHeld.refl s)

@[simp] theorem foldl_setHeld {α : Type} {f : State → α → State} (h : ∀ s a, SetHeld s (f s a)) (l : List α) (s : State) :
    SetHeld s (l.foldl f s) := forEach_setHeld (f := fun a s => f s a) (fun a s => h s a) l s

@[simp] theorem modMemc_setHeld (f) (s : State) : SetHeld s (modMemc f s) := SetHeld.refl s

@[simp] theorem modHold_setHeld (f) (s : State) : SetHeld s (modHold f s) := SetHeld.refl s

@[simp] theorem hostWriteRo_setHeld (ro a bs) (s : State) : SetHeld s (hostWriteRo ro a bs s) := by simp [hostWriteRo]

@[simp] theorem emitMsix_setHeld (v) (s : State) : SetHeld s (emitMsix v s) := by simp [emitMsix]

@[simp] theorem sendVector_setHeld (v) (s : State) : SetHeld s (sendVector v s) := by simp [sendVector]

@[simp] theorem postHeld_setHeld (s : State) : SetHeld s (postHeld s) := by
  unfold postHeld; split <;> simp

@[simp] theorem postAll_setHeld (x0) (s : State) : SetHeld s (postAll x0 s) := by
  induction x0 generalizing s with
  | zero => simp [postAll]
  | succ n ih => unfold postAll; split <;> simp [ih]

@[simp] theorem modMbox_setHeld (mgmt f) (s : State) : SetHeld s (modMbox mgmt f s) := by simp [modMbox]

@[simp] theorem mboxShow_setHeld (mgmt) (s : State) : SetHeld s (mboxShow mgmt s) := by
  unfold mboxShow; split <;> simp

@[simp] theorem sendParts_setHeld (h ps) (s : State) : SetHeld s (sendParts h ps s) := by
  unfold sendParts; split <;> simp

@[simp] theorem keepOwn_setHeld (ring payload) (s : State) : SetHeld s (keepOwn ring payload s) := by simp [keepOwn]

@[simp] theorem logCapture_setHeld (c) (s : State) : SetHeld s (logCapture c s) := by simp [logCapture]

@[simp] theorem raiseOne_setHeld (r) (s : State) : SetHeld s (raiseOne r s) := by simp [raiseOne]

@[simp] theorem raiseErrs_setHeld (l) (s : State) : SetHeld s (raiseErrs l s) := by
  unfold raiseErrs; dsimp only; split <;> simp

@[simp] theorem raiseErr_setHeld (e) (s : State) : SetHeld s (raiseErr e s) := by simp [raiseErr]

@[simp] theorem modConv_setHeld (c f) (s : State) : SetHeld s (modConv c f s) := by simp [modConv]

@[simp] theorem hkGo_setHeld (c i) (s : State) : SetHeld s (hkGo c i s) := by
  unfold hkGo; split <;> simp

@[simp] theorem hkStartPass_setHeld (s : State) : SetHeld s (hkStartPass s) := by simp [hkStartPass]

@[simp] theorem hkTrigger_setHeld (s : State) : SetHeld s (hkTrigger s) := by simp [hkTrigger]

@[simp] theorem countAbandon_setHeld (t) (s : State) : SetHeld s (countAbandon t s) := by simp [countAbandon]

@[simp] theorem requestCoil_setHeld (t close) (s : State) : SetHeld s (requestCoil t close s) := by simp [requestCoil]

@[simp] theorem calToOpen_setHeld (t cause) (s : State) : SetHeld s (calToOpen t cause s) := by simp [calToOpen]

@[simp] theorem calAnswer_setHeld (t rec) (s : State) : SetHeld s (calAnswer t rec s) := by simp [calAnswer]

@[simp] theorem setDue_setHeld (t) (s : State) : SetHeld s (setDue t s) := by simp [setDue]

@[simp] theorem calAbandoned_setHeld (t cause last) (s : State) :
    SetHeld s (calAbandoned t cause last s) := by simp [calAbandoned]

@[simp] theorem calComplete_setHeld (t cause last) (s : State) :
    SetHeld s (calComplete t cause last s) := by simp [calComplete]

@[simp] theorem calSwap_setHeld (t) (s : State) : SetHeld s (calSwap t s) := by
  unfold calSwap; simp only []; split <;> simp

@[simp] theorem lincalDrop_setHeld (t) (s : State) : SetHeld s (lincalDrop t s) := by simp [lincalDrop]

@[simp] theorem calLeave_setHeld (t cause) (s : State) : SetHeld s (calLeave t cause s) := by
  unfold calLeave; simp only []; split <;> simp

@[simp] theorem modMoves_setHeld (p f) (s : State) : SetHeld s (modMoves p f s) := by simp [modMoves]

@[simp] theorem dropRequests_setHeld (t) (s : State) : SetHeld s (dropRequests t s) := by simp [dropRequests]

@[simp] theorem groupIdle_setHeld (g) (s : State) : SetHeld s (groupIdle g s) := by simp [groupIdle]

@[simp] theorem beginRelease_setHeld (t) (s : State) : SetHeld s (beginRelease t s) := by simp [beginRelease]

@[simp] theorem releaseCoil_setHeld (t) (s : State) : SetHeld s (releaseCoil t s) := by
  unfold releaseCoil; simp only []; split <;> simp

@[simp] theorem portChange_setHeld {t} {f : State → State} (hf : ∀ s, SetHeld s (f s)) (s : State) :
    SetHeld s (portChange t f s) := by
  have := hf s
  unfold portChange; dsimp only; split <;> split <;> simp_all

@[simp] theorem parkPulse_setHeld (t) (s : State) : SetHeld s (parkPulse t s) := by simp [parkPulse]

@[simp] theorem shutPort_setHeld (t) (s : State) : SetHeld s (shutPort t s) := by simp [shutPort]

@[simp] theorem enterPrepare_setHeld (t) (s : State) : SetHeld s (enterPrepare t s) := by simp [enterPrepare]

@[simp] theorem swapPort_setHeld (old new t) (s : State) : SetHeld s (swapPort old new t s) := by
  unfold swapPort; (repeat' split) <;> simp

@[simp] theorem swapTables_setHeld (old new t) (s : State) : SetHeld s (swapTables old new t s) := by simp [swapTables]

@[simp] theorem reloadTaps_setHeld (t) (s : State) : SetHeld s (reloadTaps t s) := by simp [reloadTaps]

@[simp] theorem swapLane_setHeld (old new t) (s : State) : SetHeld s (swapLane old new t s) := by simp [swapLane]

@[simp] theorem moveReplies_setHeld (s : State) : SetHeld s (moveReplies s) := by simp [moveReplies]

@[simp] theorem swapGroup_setHeld (old new g) (s : State) : SetHeld s (swapGroup old new g s) := by simp [swapGroup]

@[simp] theorem swapStream_setHeld (old new m) (s : State) : SetHeld s (swapStream old new m s) := by simp [swapStream]

@[simp] theorem holdEnter_setHeld (st) (s : State) : SetHeld s (holdEnter st s) := by simp [holdEnter]

@[simp] theorem holdNoWait_setHeld (s : State) : SetHeld s (holdNoWait s) := by simp [holdNoWait]

@[simp] theorem holdRestart_setHeld (has) (s : State) : SetHeld s (holdRestart has s) := by simp [holdRestart]

@[simp] theorem holdUndelivered_setHeld (s : State) : SetHeld s (holdUndelivered s) := by simp [holdUndelivered]

@[simp] theorem swapHold_setHeld (old new) (s : State) : SetHeld s (swapHold old new s) := by simp [swapHold]

@[simp] theorem hkRun_setHeld (s : State) : SetHeld s (hkRun s) := by simp [hkRun]

@[simp] theorem hkInject_setHeld (s : State) : SetHeld s (hkInject s) := by simp [hkInject]

@[simp] theorem hkStart_setHeld (s : State) : SetHeld s (hkStart s) := by simp [hkStart]

@[simp] theorem hkStop_setHeld (s : State) : SetHeld s (hkStop s) := by simp [hkStop]

@[simp] theorem swapHk_setHeld (old new) (s : State) : SetHeld s (swapHk old new s) := by simp [swapHk]

@[simp] theorem swapDue_setHeld (old) (s : State) : SetHeld s (swapDue old s) := by
  unfold swapDue; split <;> simp

@[simp] theorem swapRotation_setHeld (old new) (s : State) :
    SetHeld s (swapRotation old new s) := by simp [swapRotation]

@[simp] theorem fillCredits_setHeld (s : State) : SetHeld s (fillCredits s) := by
  unfold fillCredits; split <;> simp

@[simp] theorem swapThaw_setHeld (s : State) : SetHeld s (swapThaw s) := by simp [swapThaw]

@[simp] theorem modHost_setHeld (f) (s : State) : SetHeld s (modHost f s) := SetHeld.refl s

/-! ### Commands that answer at their tick -/

theorem word_toNat (n : Word) : word n.toNat = n := BitVec.ofNat_toNat 32 n |>.trans (BitVec.setWidth_eq n)

theorem nop_eq (h : Hdr) {s : State} (hoff : s.dev.power ≠ .off) : nop h s = reply h 0x00 stOk [] (counted s) :=
  runAtTick_of_free hoff rfl

theorem readMap_eq (h : Hdr) (o n : Word) {s : State} (hoff : s.dev.power ≠ .off) (hn : n.toNat ≤ (mapBytes - o.toNat) / 4) :
    readMap h o.toNat n.toNat s = reply h 0x03 stOk
      (n :: (List.range n.toNat).map fun i => mapWord (o.toNat + 4 * i)) (counted s) := by
  refine (runAtTick_of_free hoff rfl).trans ?_
  simp only [Nat.min_eq_left hn, Nat.lt_irrefl, if_false, word_toNat]

theorem readRegs_eq (h : Hdr) (a n : Word) {s : State} (hoff : s.dev.power ≠ .off) (hn : n.toNat ≤ wordsLeft a.toNat) :
    readRegs h a.toNat n.toNat s = reply h 0x01 stOk
      (n :: (readWords n.toNat a.toNat (counted s)).1) (readWords n.toNat a.toNat (counted s)).2 := by
  refine (runAtTick_of_free hoff rfl).trans ?_
  simp only [Nat.min_eq_left hn, Nat.lt_irrefl, if_false, word_toNat]

theorem writeRegs_eq (h : Hdr) (a : Word) (l : List Word) {s : State} (hoff : s.dev.power ≠ .off)
    (hn : l.length ≤ wordsLeft a.toNat) :
    writeRegs h a.toNat l s = reply h 0x02 stOk [word l.length] (writeWords a.toNat l (counted s)) := by
  refine (runAtTick_of_free hoff rfl).trans ?_
  rw [if_neg (Nat.not_lt.2 hn)]

/-- Settles O19: none of these commands is barred in a frozen device, and each is its own effect on the counted state. -/
theorem immediateCommandsReply : Obligations.ImmediateCommandsReply := by
  refine ⟨fun h s hoff => ⟨?_, fun v => ?_, fun o n hn => ?_, ?_⟩, fun h a s hoff => ⟨fun n hn => ?_, fun l hl => ?_⟩⟩
  · exact congrArg Host.Outcome.next (nop_eq h hoff)
  · exact congrArg Host.Outcome.next (runAtTick_of_free hoff rfl)
  · exact congrArg Host.Outcome.next (readMap_eq h o n hoff hn)
  · exact congrArg Host.Outcome.next (runAtTick_of_free hoff rfl)
  · exact congrArg Host.Outcome.next (readRegs_eq h a n hoff hn)
  · exact congrArg Host.Outcome.next (writeRegs_eq h a l hoff hl)

/-! ### The shadow bank -/

theorem writeCfg_of_locked (h : Hdr) (o : Word) (l : List Word) {s : State} (hoff : s.dev.power ≠ .off)
    (hl : s.cfg.locked = true) : writeCfg h o l s = reply h 0x10 stBusy [] (counted s) :=
  (runAtTick_of_free hoff rfl).trans (if_pos hl)

theorem writeCfg_of_unlocked (h : Hdr) (o : Word) (l : List Word) {s : State} (hoff : s.dev.power ≠ .off)
    (hl : s.cfg.locked = false) : writeCfg h o l s =
      reply h 0x10 stOk [word l.length] (writeShadow o.toNat (wordsBytes l) (counted s)) :=
  (runAtTick_of_free hoff rfl).trans (if_neg (by simp [counted, hl]))

theorem commitShadow_of_busy (h : Hdr) (n crc : Word) {s : State} (hoff : s.dev.power ≠ .off)
    (hb : (s.cfg.locked || s.cfg.commit.isSome) = true) : commitShadow h n crc s = reply h 0x11 stBusy [] (counted s) :=
  (runAtTick_of_free hoff rfl).trans (if_pos hb)

/-- An address that lies in a type's blocks and above those of the types before it names a block of that type. -/
theorem blockAt_of_split {a : Nat} {l r : List BlockType} {t : BlockType} (h : blockTypes = l ++ t :: r)
    (hl : ∀ u ∈ l, u.base + u.count * u.size ≤ a) (hlo : t.base ≤ a) (hhi : a < t.base + t.count * t.size) :
    blockAt a = some ⟨t, (a - t.base) / t.size⟩ := by
  have hf : blockTypes.find? (fun t => decide (t.base ≤ a) && decide (a < t.base + t.count * t.size)) = some t := by
    refine List.find?_eq_some_iff_append.2 ⟨by simp [hlo, hhi], l, r, h, fun u hu => ?_⟩
    simp [Nat.not_lt.2 (hl u hu)]
  rw [blockAt, hf]

theorem blockAt_shadow {o : Nat} (ho : o < 0x800000) :
    blockAt (0x01000000 + o) = some ⟨⟨0x80, 1, 0x01000000, 0x800000, 1⟩, 0⟩ := by
  have hl : ∀ u ∈ blockTypes.take 17, u.base + u.count * u.size ≤ 0x01000000 := by decide
  rw [blockAt_of_split (l := blockTypes.take 17) (t := ⟨0x80, 1, 0x01000000, 0x800000, 1⟩) (r := blockTypes.drop 18) rfl
    (fun u hu => (hl u hu).trans (Nat.le_add_right ..)) (Nat.le_add_right ..)
    (show 0x01000000 + o < 0x01000000 + 1 * 0x800000 by omega)]
  simp only [Nat.add_sub_cancel_left, Nat.div_eq_of_lt ho]

/-- A full word written to an implemented register of a block that is served is that register's write. -/
theorem bar0Write_of_block {a : Nat} {b : Block} (hb : blockAt a = some b)
    (himp : isImplemented b.type.ty (a - b.base) = true) {s : State} (hs : blockServed s b.type.ty = true) (v : Word) :
    bar0Write a v 0xF s = regWrite b.type.ty b.inst (a - b.base) v s := by
  unfold bar0Write
  rw [hb]
  simp [himp, hs]

/-- A full word at an offset of the shadow window is the word of the shadow bank there. -/
theorem bar0Write_shadow (v : Word) {o : Nat} (ho : o ≤ 0x7FFFFC) {s : State} (hoff : s.dev.power ≠ .off) :
    bar0Write (0x01000000 + o) v 0xF s = shadowWord o v s := by
  have hb := blockAt_shadow (o := o) (by omega)
  have ho' : 0x01000000 + o - 0x01000000 = o := Nat.add_sub_cancel_left ..
  have himp : isImplemented 0x80 o = true := by simp [isImplemented, implemented, ho]
  rw [bar0Write_of_block hb (by rwa [← ho'] at himp) (by simp [blockServed, hoff])]
  exact congrArg (fun n => shadowWord n v s) ho'

theorem wordAddr_eq (a : Word) : wordAddr a = a.toNat - a.toNat % 4 := by
  unfold wordAddr
  omega

theorem shadowWindowWrite_eq (o v : Word) (ho : o.toNat < 0x800000) {s : State} (hoff : s.dev.power ≠ .off)
    (hflr : s.host.flr = false) : exec (.shadowWindowWrite o v 0xF) s = .next (shadowWord (o.toNat - o.toNat % 4) v s) := by
  have hm : wordAddr o % 0x800000 = o.toNat - o.toNat % 4 := by
    rw [wordAddr_eq]
    omega
  refine congrArg Host.Outcome.next ?_
  simp only [barAccess, hflr, hm, Bool.false_eq_true, if_false]
  exact bar0Write_shadow v (by omega) hoff

/-! ### SWAP_CONFIG -/

theorem swapBefore_setHeld (s : State) : SetHeld s (swapBefore s) := by
  unfold swapBefore
  dsimp only
  generalize hu : forEach (Bank.enabledTiles s.cfg.shadow) _ s = u
  have h : SetHeld s u := by
    rw [← hu]
    refine forEach_setHeld (fun t s => ?_) _ s
    split
    · exact .ite (by simp) (SetHeld.refl _)
    · exact SetHeld.refl _
  exact h.trans (by simp)

/-- A table that a set moves is noted in `dbufNext` alone. -/
theorem swapBuffer_cfg (old : Option Bank) (new : Bank) (k : Nat) (s : State) :
    ∃ d, (swapBuffer old new k s).cfg = { s.cfg with dbufNext := d } := by
  unfold swapBuffer
  extract_lets b same
  split
  · exact ⟨_, rfl⟩
  · exact ⟨_, rfl⟩

/-- Once the banks are exchanged, a swap notes the moves of tables, thaws, and locks the masks of the address mapping. -/
theorem swapAfter_cfg (old : Option Bank) (new : Bank) (s : State) :
    (∃ d, (swapAfter old new s).cfg = { s.cfg with dbufNext := d }) ∧ (swapAfter old new s).memc.mapLock = true := by
  unfold swapAfter
  extract_lets ts s₁ s₂ s₃ s₄ s₅ s₆ s₇
  have h₂ : SetHeld s s₂ := (forEach_setHeld (fun t s => swapLane_setHeld old new t s) _ s).trans
    (forEach_setHeld (fun t s => by simp) _ _)
  have h₃ : ∃ d, s₃.cfg = { s₂.cfg with dbufNext := d } :=
    forEach_invariant (P := fun t => ∃ d, t.cfg = { s₂.cfg with dbufNext := d }) (fun k t ⟨d, e⟩ => by
      obtain ⟨d', e'⟩ := swapBuffer_cfg old new k t
      exact ⟨d', e'.trans (by rw [e])⟩) _ _ ⟨_, rfl⟩
  have h₆ : SetHeld s₃ s₆ := by simp [s₆, s₅, s₄]
  have h₇ : SetHeld s₆ s₇ := by simp [s₇]
  have hl : s₇.memc.mapLock = true := by
    simp only [s₇, fillCredits]
    split <;> rfl
  obtain ⟨d, e⟩ := h₃
  refine ⟨⟨d, ?_⟩, hl⟩
  rw [modTick_cfg, h₇.1, h₆.1, e, h₂.1]

/-- What a swap leaves of the banks and of what they show (R58, R339). -/
theorem swapNow_cfg (s : State) :
    (∃ d, (swapNow s).cfg = { (exchangeBanks s).cfg with dbufNext := d }) ∧ (swapNow s).memc.mapLock = true := by
  obtain ⟨hc, hs⟩ := swapBefore_setHeld s
  obtain ⟨⟨d, e⟩, hl⟩ := swapAfter_cfg (activeSet s) s.cfg.shadow (exchangeBanks (swapBefore s))
  rw [← swapNow_eq] at e hl
  refine ⟨⟨d, ?_⟩, hl⟩
  rw [e, exchangeBanks, exchangeBanks, modCfg_cfg, modCfg_cfg, hc, hs]

theorem swapConfig_of_commit (h : Hdr) {s : State} (hoff : s.dev.power ≠ .off) (hc : s.cfg.commit.isSome = true) :
    swapConfig h s = reply h 0x12 stBusy [] (counted s) :=
  (runAtTick_of_free hoff rfl).trans (if_pos hc)

theorem swapConfig_of_refused (h : Hdr) {s : State} (hoff : s.dev.power ≠ .off) (hc : s.cfg.commit = none)
    (hr : swapRefused s = true) : swapConfig h s = reply h 0x12 stRefused [] (counted s) :=
  (runAtTick_of_free hoff rfl).trans ((if_neg (by simp [counted, hc])).trans (if_pos hr))

theorem swapConfig_of_accepted (h : Hdr) {s : State} (hoff : s.dev.power ≠ .off) (hc : s.cfg.commit = none)
    (hr : swapRefused s = false) :
    swapConfig h s = reply h 0x12 stOk [(swapNow (counted s)).cfg.activeCrc] (swapNow (counted s)) :=
  (runAtTick_of_free hoff rfl).trans ((if_neg (by simp [counted, hc])).trans
    (if_neg (by rw [Bool.not_eq_true]; exact hr)))

/-- An accepted swap leaves the banks exchanged, with what the new set shows. -/
theorem exec_swapConfig_of_accepted (h : Hdr) {s : State} (hoff : s.dev.power ≠ .off) (hc : s.cfg.commit = none)
    (hr : swapRefused s = false) : ∃ t, exec (.swapConfig h) s = .next t ∧
      (∃ d, t.cfg = { (exchangeBanks s).cfg with dbufNext := d }) ∧ t.memc.mapLock = true := by
  refine ⟨_, rfl, ?_⟩
  obtain ⟨k, e⟩ := noteEntry_onlyKeep s.dev.power (swapConfig h s)
  rw [e, swapConfig_of_accepted h hoff hc hr]
  show (∃ d, (reply _ _ _ _ _).cfg = _) ∧ (reply _ _ _ _ _).memc.mapLock = true
  rw [reply_cfg, reply_memc]
  exact swapNow_cfg (counted s)

/-- A swap that is answered with a refusal changes the queues of replies alone. -/
theorem exec_swapConfig_of_reply (h : Hdr) {s : State} {st : BitVec 16}
    (e : swapConfig h s = reply h 0x12 st [] (counted s)) :
    ∃ t, exec (.swapConfig h) s = .next t ∧ t.cfg = s.cfg ∧ t.tiles = s.tiles ∧ t.dram = s.dram ∧
      t.cmdq = (reply h 0x12 st [] (counted s)).cmdq := by
  refine ⟨_, rfl, ?_⟩
  rw [e, noteEntry_same (by simp [counted])]
  simp [counted]

/-- Settles O20: a swap notes the exchange, and each of the three writers tests the lock first. -/
theorem shadowLocked : Obligations.ShadowLocked := by
  refine ⟨⟨fun h s hoff hc hr => ?_, fun h o v n crc l s hl hoff ho => ⟨fun hflr => ?_, ?_, ?_⟩⟩, fun s => ⟨fun hn => ?_, fun hn => ?_⟩⟩
  · obtain ⟨t, e, ⟨d, hd⟩, -⟩ := exec_swapConfig_of_accepted h hoff hc hr
    exact ⟨t, e, by rw [hd]; rfl, by rw [hd]; rfl, by rw [hd]; rfl⟩
  · rw [shadowWindowWrite_eq o v ho hoff hflr, shadowWord, if_pos hl]
    rfl
  · exact congrArg Host.Outcome.next (writeCfg_of_locked h o l hoff hl)
  · exact congrArg Host.Outcome.next (commitShadow_of_busy h n crc hoff (by simp [hl]))
  · exact congrArg Host.Outcome.next (if_pos hn)
  · exact congrArg Host.Outcome.next (if_neg (Nat.not_le.2 hn))

/-- Settles O21: the unlocked bank takes the words at their offset. -/
theorem shadowWritten : Obligations.ShadowWritten := by
  intro h o v l s hl hoff ho
  refine ⟨⟨_, congrArg Host.Outcome.next (writeCfg_of_unlocked h o l hoff hl), ?_⟩, fun hflr => ?_⟩
  · simp [writeShadow, counted]
  · rw [shadowWindowWrite_eq o v ho hoff hflr, shadowWord, if_neg (by simp [hl])]
    rfl

/-- Settles O23: a committed set is accepted, and every other swap is answered with the banks as they are. -/
theorem swapExchangesBanks : Obligations.SwapExchangesBanks := by
  refine ⟨fun h s hoff hc hcom hgen hhold => ?_, fun h s c hoff hc => ?_, fun h s hoff hc hbad => ?_⟩
  · have hr : swapRefused s = false := by
      simp only [swapRefused, hcom, hgen, Bool.not_true, ne_eq, not_true_eq_false, decide_false, Bool.false_or,
        Bool.and_eq_false_iff]
      by_cases hp : s.hold.state = .pending ∨ s.hold.state = .frozen
      · right
        split
        · next b hb => simp [hhold hp b hb]
        · rfl
      · left
        simpa using hp
    obtain ⟨t, e, ⟨d, hd⟩, hm⟩ := exec_swapConfig_of_accepted h hoff hc hr
    refine ⟨t, e, ?_⟩
    rw [hd, hm]
    exact ⟨rfl, rfl, rfl, rfl, rfl, rfl, rfl, rfl⟩
  · exact exec_swapConfig_of_reply h (swapConfig_of_commit h hoff (by simp [hc]))
  · have hr : swapRefused s = true := by
      rcases hbad with h | h <;> simp [swapRefused, h]
    exact exec_swapConfig_of_reply h (swapConfig_of_refused h hoff hc hr)

/-! ### COMMIT_SHADOW and its checks (R334 to R338) -/

theorem commitShadow_of_free (h : Hdr) (n crc : Word) {s : State} (hoff : s.dev.power ≠ .off)
    (hl : s.cfg.locked = false) (hc : s.cfg.commit = none) :
    commitShadow h n crc s = { counted s with cfg := { s.cfg with commit := some {
      hdr := h, bytes := n.toNat, crc := crc, against := s.cfg.generation, changed := false,
      trained := s.memc.trained, mts := s.memc.mts.toNat, rate := linkRate s } } } :=
  (runAtTick_of_free hoff rfl).trans (if_neg (by simp [counted, hl, hc]))

/-- The reasons that the checks try first, in their order. -/
theorem commitResult_reason_first (s : State) (c : Commit) (p : Option (BitVec 17)) :
    (c.changed = true → (commitResult s c p).reason = 0x1A) ∧
    (c.changed = false → c.trained = false → (commitResult s c p).reason = 0x01) ∧
    (c.changed = false → c.trained = true → p.isSome = true → (commitResult s c p).reason = 0x02) ∧
    (c.changed = false → c.trained = true → p = none → crc32 (readCells zeroByte s.cfg.shadow 0 c.bytes) ≠ c.crc →
      (commitResult s c p).reason = 0x03) := by
  refine ⟨fun h => ?_, fun h ht => ?_, fun h ht hp => ?_, fun h ht hp hcrc => ?_⟩
  · simp [commitResult, h]
  · simp [commitResult, h, ht, faultResult]
  · obtain ⟨x, rfl⟩ := Option.isSome_iff_exists.1 hp
    simp [commitResult, h, ht]
  · simp [commitResult, h, ht, hp, hcrc]

/-- Settles O22: the end of the checks writes the bank's record and the reply that the result gives. -/
theorem commitChecked : Obligations.CommitChecked := by
  refine ⟨fun h n crc s hl hoff => ⟨fun hc => ?_, fun c hc => ?_⟩, fun p s c hc => ⟨_, rfl, ?_⟩⟩
  · exact congrArg Host.Outcome.next (commitShadow_of_free h n crc hoff hl hc)
  · exact congrArg Host.Outcome.next (commitShadow_of_busy h n crc hoff (by simp [hc]))
  · have e : commitEnd p s = reply c.hdr 0x11 (if (commitResult s c p).reason = 0 then stOk else stRefused)
        [word (commitResult s c p).reason, (commitResult s c p).detail,
          lo32 (BitVec.ofNat 64 (commitResult s c p).rt), hi32 (BitVec.ofNat 64 (commitResult s c p).rt),
          lo32 (BitVec.ofNat 64 (commitResult s c p).all), hi32 (BitVec.ofNat 64 (commitResult s c p).all)]
        (modCfg (fun g => { g with
          commit := none, lastReason := BitVec.ofNat 8 (commitResult s c p).reason,
          committed := decide ((commitResult s c p).reason = 0),
          committedCrc := if (commitResult s c p).reason = 0 then c.crc else g.committedCrc,
          committedBytes := if (commitResult s c p).reason = 0 then c.bytes else g.committedBytes,
          committedAgainst := if (commitResult s c p).reason = 0 then c.against else g.committedAgainst })
          { s with free := s.free + 4 }) := by
      unfold commitEnd
      rw [hc]
    rw [e]
    simp only [reply_dram, reply_tiles, reply_tick, reply_cfg]
    refine ⟨rfl, rfl, rfl, ?_, rfl, commitResult_reason_first s c p⟩
    apply reply_cmdq_congr
    · rfl
    · rfl

/-! ### Commands refused in LOW, and START with no active set -/

theorem startCmd_of_low (h : Hdr) {s : State} (hp : s.dev.power = .low) :
    startCmd h s = reply h 0x20 stRefused [] (counted s) :=
  (runAtTick_of_live (by simp [hp]) (by simp [hp])).trans (if_pos hp)

theorem startCmd_of_noSet (h : Hdr) {s : State} (hp : s.dev.power = .parked) (hs : s.cfg.hasActive = false) :
    startCmd h s = reply h 0x20 stNotReady [] (counted s) :=
  (runAtTick_of_live (by simp [hp]) (by simp [hp])).trans
    ((if_neg (by simp [counted, hp])).trans (if_pos (by simp [counted, hs])))

/-- START that starts no frame is the command's own effect. -/
theorem exec_start_of_notImaging (h : Hdr) {s : State} (hi : (startCmd h s).tick.imaging = false) :
    exec (.start h) s = .next (startCmd h s) :=
  congrArg Host.Outcome.next (if_neg (by simp [hi]))

/-- Settles O25: each of the commands tests the state of the device, and START the active set, first. -/
theorem refusedCommands : Obligations.RefusedCommands := by
  refine ⟨fun h w a b c crc n f s hp => ⟨?_, ?_, ?_, fun hi => ?_⟩, fun h s hp hs hi => ?_⟩
  · exact congrArg Host.Outcome.next ((runAtTick_of_live (by simp [hp]) (by simp [hp])).trans (if_pos hp))
  · exact congrArg Host.Outcome.next ((runAtTick_of_live (by simp [hp]) (by simp [hp])).trans (if_pos hp))
  · exact congrArg Host.Outcome.next ((runAtTick_of_live (by simp [hp]) (by simp [hp])).trans (if_pos hp))
  · have e := startCmd_of_low h hp
    rw [exec_start_of_notImaging h (by rw [e]; simpa [counted] using hi), e]
  · have e := startCmd_of_noSet h hp hs
    rw [exec_start_of_notImaging h (by rw [e]; simpa [counted] using hi), e]

end Sys2Proof.Proofs
end

section
/-! PROOFS. A step as a whole and the state after reset; the quiet windows and the refresh (02 R44, R45; 10 R253, R266). -/
namespace Sys2Proof.Proofs

open Sys2Proof Sys2Proof.Machine Sys2Proof.Laws

/-- Settles O1: `step` takes the command at the front. -/
theorem stepRunsFrontCommand : Obligations.StepRunsFrontCommand := fun _ _ _ => rfl

/-! ### An idle step -/

theorem pumpHost_of_idle {s : State} (h : s.memc.reqs = []) : pumpHost s = s := by
  simp [pumpHost, h]

theorem clockTick_of_stopped {s : State} (h : s.tick.running = false) : clockTick s = s := by
  simp [clockTick, h]

/-- The state one nanosecond on. -/
def clocked (s : State) : State :=
  countLife { s with clock := { s.clock with now := s.clock.now + 1, devTime := s.clock.devTime + 1 } }

theorem clockTick_of_set {s : State} {b : Bank} (h : s.tick.running = true) (hr : s.memc.reqs = [])
    (hb : activeSet s = some b) : clockTick s =
      modMemc (fun m => { m with ports := Vector.ofFn fun i => accrue b i.val m.ports[i] }) (clocked s) := by
  have hb' : activeSet (clocked s) = some b := hb
  simp only [clockTick, h, if_true]
  rw [show activeSet (countLife _) = some b from hb']
  exact pumpHost_of_idle hr

theorem clockTick_of_noSet {s : State} (h : s.tick.running = true) (hb : activeSet s = none) :
    clockTick s = clocked s := by
  have hb' : activeSet (clocked s) = none := hb
  simp only [clockTick, h, if_true]
  rw [show activeSet (countLife _) = none from hb']
  rfl

theorem accrue_credit (b : Bank) (p : Nat) (x : ReqPort) : (accrue b p x).credit =
    min (x.credit + Bank.u32 b (Bank.secOfs b 9 + 8 * p)) (regBurst b p * 1000 : Nat) := by
  simp [accrue, regBurst]

/-- Settles O2: with no command waiting a step is `clockTick`, which with no memory request waiting serves none. -/
theorem idleStepCounts : Obligations.IdleStepCounts := by
  intro s hp
  have hstep : step s = .next (clockTick s) := by simp [step, hp]
  rw [hstep]
  refine ⟨fun h => by rw [clockTick_of_stopped h], fun h hr => ⟨_, rfl, ?_⟩⟩
  cases hb : activeSet s with
  | none =>
    rw [clockTick_of_noSet h hb]
    exact ⟨rfl, rfl, rfl, rfl, rfl, rfl, rfl, rfl, rfl, fun b p e => absurd e (by simp)⟩
  | some b =>
    rw [clockTick_of_set h hr hb]
    refine ⟨rfl, rfl, rfl, rfl, rfl, rfl, rfl, rfl, rfl, fun b' p e => ?_⟩
    obtain rfl := Option.some.inj e
    have hport : (modMemc (fun m => { m with ports := Vector.ofFn fun i => accrue b i.val m.ports[i] })
        (clocked s)).memc.ports[p] = accrue b p.val s.memc.ports[p] := by
      simp [clocked, countLife]
    rw [hport, accrue_credit]

/-! ### The state after reset -/

/-- Settles O3: the reset state is written out. -/
theorem resetValues : Obligations.ResetValues := by
  refine ⟨rfl, rfl, rfl, rfl, rfl, rfl, rfl, rfl, rfl, rfl, rfl, rfl, rfl, rfl, rfl, rfl, rfl, rfl, fun t => ?_,
    fun e => ?_, fun c => ?_⟩
  · simp [State.reset, Tile.reset, Shut.reset, Coil.reset, Port.reset, Cal.reset]
  · simp [State.reset, Eng.reset]
  · simp [State.reset, Err.reset, ErrClass.reset]

/-- Settles O4: no sparse memory lists a byte after reset. -/
theorem resetMemoriesCanonical : Obligations.ResetMemoriesCanonical := ⟨rfl, rfl, rfl, rfl, rfl⟩

/-! ### Quiet windows -/

theorem execQuietWindowOpen_of_window {s : State} {b : Bank} {w : Nat × Nat} (hb : activeSet s = some b)
    (hp : s.dev.power = .imaging) (hw : windowAt b (s.clock.now - s.clock.lastTick) = some w) :
    execQuietWindowOpen s = .next { s with memc := { s.memc with
      quiet := true, quietOpenedAt := s.clock.lastTick + w.1, quietLen := w.2, sweptWindow := false } } := by
  simp only [execQuietWindowOpen, hb, hw, hp, if_true]
  rfl

theorem portServed_of_quiet {s : State} (hq : s.memc.quiet = true) {p : Nat} (hp : p ≠ 11) : portServed s p = false := by
  simp [portServed, hq, hp]

/-! ### Refresh -/

theorem refIndex_lt (sc rk : Bool) : refIndex sc rk < 4 := by cases sc <;> cases rk <;> decide

theorem maskList_eq_nil {w : Nat} {m : BitVec w} : maskList m = [] ↔ m = 0 := by
  unfold maskList
  rw [List.filter_eq_nil_iff]
  constructor
  · intro h
    ext i hi
    simpa [BitVec.getLsbD_eq_getElem hi] using h i (List.mem_range.2 hi)
  · rintro rfl
    simp

theorem waitingBanks_of_idle {s : State} (h : s.memc.reqs = []) (ch : Nat) (sc rk : Bool) : waitingBanks s ch sc rk = 0 := by
  simp [waitingBanks, h]

/-- A refresh of a bank of a rank lowers the rank's debt by 1 and leaves its count of forced refreshes. -/
theorem refreshBank_eqs {ch : Nat} (h : ch < 8) (sc rk : Bool) (bank : Nat) (s : State) :
    (refreshBank ch sc rk bank s).memc = s.memc ∧ (refreshBank ch sc rk bank s).dram = s.dram ∧
    vget (chOf (refreshBank ch sc rk bank s) ch).debt (refIndex sc rk) 0 = vget (chOf s ch).debt (refIndex sc rk) 0 - 1 ∧
    (chOf (refreshBank ch sc rk bank s) ch).forced = (chOf s ch).forced := by
  refine ⟨rfl, rfl, ?_, ?_⟩
  · simp [refreshBank, traceCmd, h, vget_vmod_same (refIndex_lt sc rk)]
  · simp [refreshBank, traceCmd, h]

/-- The state in which a tREFIpb has raised a rank's debt (R253). -/
def owe (ch i : Nat) (s : State) : State := modCh ch (fun c => { c with debt := vmod c.debt i (fun d => min 8 (d + 1)) }) s

theorem owe_debt {ch i : Nat} (h : ch < 8) (hi : i < 4) (s : State) :
    vget (chOf (owe ch i s) ch).debt i 0 = min 8 (vget (chOf s ch).debt i 0 + 1) := by
  simp [owe, h, vget_vmod_same hi]

theorem owe_forced {ch i : Nat} (h : ch < 8) (s : State) : (chOf (owe ch i s) ch).forced = (chOf s ch).forced := by
  simp [owe, h]

theorem refreshDue_of_below {ch : Nat} (h : ch < 8) (sc rk : Bool) {s : State}
    (hd : vget (chOf s ch).debt (refIndex sc rk) 0 < 7) : refreshDue ch sc rk s = owe ch (refIndex sc rk) s := by
  have h8 : vget (chOf (owe ch (refIndex sc rk) s) ch).debt (refIndex sc rk) 0 ≠ 8 := by
    rw [owe_debt h (refIndex_lt sc rk)]
    omega
  exact if_neg h8

theorem refreshDue_of_full {ch : Nat} (h : ch < 8) (sc rk : Bool) {s : State}
    (hd : 7 ≤ vget (chOf s ch).debt (refIndex sc rk) 0) : ∃ bank, refreshDue ch sc rk s =
      modMemc (fun m => { m with forcedRef := true }) (modCh ch (fun c => { c with forced := satInc c.forced })
        (refreshBank ch sc rk bank (owe ch (refIndex sc rk) s))) := by
  have h8 : vget (chOf (owe ch (refIndex sc rk) s) ch).debt (refIndex sc rk) 0 = 8 := by
    rw [owe_debt h (refIndex_lt sc rk)]
    omega
  exact ⟨_, if_pos h8⟩

theorem refreshIssue_of_free {ch : Nat} (sc rk : Bool) {busy busyRt : BitVec 16} {s : State} (hr : s.memc.reqs = [])
    (hf : s.memc.frozen = false) (hd : 1 ≤ vget (chOf s ch).debt (refIndex sc rk) 0)
    (hb : remaining (chOf s ch) (refIndex sc rk) &&& ~~~(busy ||| busyRt) ≠ 0) :
    ∃ bank, refreshIssue ch sc rk busy busyRt s = refreshBank ch sc rk bank s := by
  obtain ⟨bank, l, e⟩ := List.exists_cons_of_ne_nil (mt maskList_eq_nil.1 hb)
  refine ⟨bank, ?_⟩
  simp [refreshIssue, hf, waitingBanks_of_idle hr, e, hd]

theorem refreshIssue_of_busy {ch : Nat} (sc rk : Bool) {busy busyRt : BitVec 16} {s : State} (hr : s.memc.reqs = [])
    (hf : s.memc.frozen = false) (hb : remaining (chOf s ch) (refIndex sc rk) &&& ~~~(busy ||| busyRt) = 0) :
    refreshIssue ch sc rk busy busyRt s = s := by
  simp [refreshIssue, hf, waitingBanks_of_idle hr, maskList_eq_nil.2 hb]

/-! ### A temperature reading -/

theorem traceRanks_ne {cmd n k : Nat} (h : k ≠ n) (s : State) : chOf (traceRanks cmd n s) k = chOf s k :=
  forEach_keeps (g := fun s => chOf s k) (fun _ s => forEach_keeps (g := fun s => chOf s k)
    (fun _ s => chOf_modCh_ne h _ s) _ s) _ s

theorem traceRanks_memc (cmd n : Nat) (s : State) : (traceRanks cmd n s).memc = s.memc :=
  forEach_keeps (g := fun s => s.memc) (fun _ s => forEach_keeps (g := fun s => s.memc) (fun _ s => modCh_memc _ _ s) _ s) _ s

/-- Settles O13: a window sets its marks alone, the debt is one entry of its channel, and a reading two fields of it. -/
theorem windowsAndRefresh : Obligations.WindowsAndRefresh := by
  refine ⟨⟨fun s b w hb hp hw => ⟨_, execQuietWindowOpen_of_window hb hp hw, rfl, fun p hne => portServed_of_quiet rfl hne⟩,
    fun s hr => ?_⟩, fun ch sc rk s hsr => ⟨fun hd => ?_, fun hd => ?_, fun busy busyRt hr hf => ⟨fun hd hb => ?_, fun hb => ?_⟩⟩,
    fun ch range tref s hsr hf => ⟨_, rfl, ?_⟩⟩
  · exact congrArg Host.Outcome.next (pumpHost_of_idle hr)
  · refine ⟨_, rfl, ?_⟩
    rw [if_neg (by simp [hsr]), refreshDue_of_below ch.isLt sc rk hd]
    refine ⟨rfl, rfl, ?_, owe_forced ch.isLt s⟩
    rw [owe_debt ch.isLt (refIndex_lt sc rk)]
    omega
  · refine ⟨_, rfl, ?_⟩
    obtain ⟨bank, e⟩ := refreshDue_of_full ch.isLt sc rk hd
    obtain ⟨hm, hr, hb, hfo⟩ := refreshBank_eqs ch.isLt sc rk bank (owe ch.val (refIndex sc rk) s)
    rw [if_neg (by simp [hsr]), e]
    refine ⟨?_, hr, ?_, ?_⟩
    · rw [modMemc_memc, modCh_memc, hm]
      rfl
    · show vget (chOf (modCh _ _ _) _).debt _ 0 = 7
      rw [chOf_modCh_same ch.isLt, hb, owe_debt ch.isLt (refIndex_lt sc rk)]
      omega
    · show (chOf (modCh _ _ _) _).forced = _
      rw [chOf_modCh_same ch.isLt, hfo, owe_forced ch.isLt]
  · obtain ⟨bank, e⟩ := refreshIssue_of_free sc rk hr hf hd hb
    obtain ⟨hm, hdr, hde, -⟩ := refreshBank_eqs ch.isLt sc rk bank s
    refine ⟨_, rfl, ?_⟩
    rw [if_neg (by simp [hsr]), e]
    exact ⟨hm, hdr, hde⟩
  · exact congrArg Host.Outcome.next ((if_neg (by simp [hsr])).trans (refreshIssue_of_busy sc rk hr hf hb))
  · rw [if_neg (by simp [hsr, hf]), chOf_modCh_same ch.isLt]
    refine ⟨rfl, rfl, ?_, ?_, fun n hn => ?_⟩
    · rw [modCh_memc, traceRanks_memc]
    · rw [modCh_dram, (traceRanks_kept ..).2]
    · have hne : n.val ≠ ch.val := fun e => hn (Fin.ext e)
      rw [chOf_modCh_ne hne, traceRanks_ne hne]

end Sys2Proof.Proofs
end

section
/-! PROOFS. The Caravan's rings, the mailboxes, a held reply part and a pending vector (12 R300; 13 R310 to R313). -/
namespace Sys2Proof.Proofs

open Sys2Proof Sys2Proof.Machine Sys2Proof.Laws

/-! ### Fetches -/

theorem readBytes_of_zero {s : State} (h : s.host.mrrs = 0) : readBytes s = 128 := by
  simp [readBytes, h]

theorem readBytes_of_ne {s : State} (h : s.host.mrrs ≠ 0) : readBytes s = 256 := by
  have hpos : 0 < s.host.mrrs.toNat := Nat.pos_of_ne_zero fun e => h (BitVec.eq_of_toNat_eq e)
  have hpow : 2 ≤ 2 ^ s.host.mrrs.toNat := Nat.le_self_pow hpos.ne' 2
  unfold readBytes
  omega

theorem caravanFetch_of_may {s : State} (h : mayFetch s = true) :
    caravanFetch s = { s with
      cmdq := { s.cmdq with fetching := true },
      out := (if s.host.mrrs = 0 then
          [.hostRead (s.cmdq.ringBase.toNat + 256 * (s.cmdq.head.toNat % s.cmdq.ringSize.toNat) + 128) 128,
            .hostRead (s.cmdq.ringBase.toNat + 256 * (s.cmdq.head.toNat % s.cmdq.ringSize.toNat)) 128]
        else [.hostRead (s.cmdq.ringBase.toNat + 256 * (s.cmdq.head.toNat % s.cmdq.ringSize.toNat)) 256]) ++ s.out } := by
  simp only [caravanFetch, h, if_true]
  by_cases hm : s.host.mrrs = 0
  · rw [readBytes_of_zero hm, if_pos hm]
    rfl
  · rw [readBytes_of_ne hm, if_neg hm]
    rfl

/-- The state in which the entry fetched has left the ring. -/
def fetched (s : State) : State := { s with cmdq := { s.cmdq with fetching := false, head := s.cmdq.head + 1 } }

theorem exec_caravanFetchDone_of_ok {ws : List Word} {s : State} (h : s.cmdq.fetching = true) :
    exec (.caravanFetchDone true ws) s = exec (.packetArrival .caravan ws) (fetched s) := by
  refine congrArg Host.Outcome.next ?_
  simp only [caravanFetchDone, h, Bool.not_true, Bool.false_eq_true, if_false, if_true]
  rfl

theorem caravanFetchDone_of_fail {ws : List Word} {s : State} (h : s.cmdq.fetching = true) :
    caravanFetchDone false ws s = raiseErr (mkErr 2 0x2C 0xFF 0 s.cmdq.head)
      (caravanClear (modCmdq (fun c => { c with fetching := false, fetchErr := true }) s)) := by
  simp only [caravanFetchDone, h, Bool.not_true, Bool.false_eq_true, if_false]

theorem packetFault_of_unknown {ws : List Word} (hl : packetLen ws ≤ 62) (h : opcodeRow (packetOp ws) = none) :
    packetFault (packetLen ws) (packetOp ws) (packetPars ws) = some stBadOpcode := by
  simp only [packetFault, if_neg (Nat.not_lt.2 hl), h]

theorem packetArrival_of_fault {path : Path} {ws : List Word} {s : State} {st : BitVec 16} (hr : s.dev.phase = .ready)
    (hp : s.dev.power ≠ .off) (hf : packetFault (packetLen ws) (packetOp ws) (packetPars ws) = some st) :
    packetArrival path ws s = replyReject (packetHdr path ws) (packetOp ws) st s := by
  simp [packetArrival, hr, hp, hf]

/-- A packet for the next tick that passes its checks enters the timed queue with room. -/
theorem exec_packetArrival_atOnce {path : Path} {ws : List Word} {s : State} (hr : s.dev.phase = .ready)
    (hp : s.dev.power ≠ .off) (hc : packetFault (packetLen ws) (packetOp ws) (packetPars ws) = none)
    (hl : packetOp ws ≠ 0x22 ∨ packetLen ws ≠ 5) (he : packetEff ws = 0xFFFFFFFF#32) (hq : s.tick.queue.length < 256) :
    exec (.packetArrival path ws) s =
      .next (enqueue (packetCmd path ws) (sfnAdd s.tick.sfn (if pastCutoff s then 2 else 1)) s) := by
  have hf : resolveFrame s (packetEff ws) = some (sfnAdd s.tick.sfn (if pastCutoff s then 2 else 1)) := by
    simp [resolveFrame, he]
  rw [exec_packetArrival_of_checked hr hp hc hl, takeIn_of_room hf hq]

/-- Settles O16: the guard of a fetch holds, and each pointer is tested against its bound. -/
theorem caravanRings : Obligations.CaravanRings := by
  refine ⟨⟨fun s hr hen hi ht hh hf => ?_, fun ws s hf hr hp => ⟨fun hl ho => ?_, fun hc hl he hq => ?_⟩, fun ws s hf => ?_⟩,
    fun v s hflr => ⟨fun h => ?_, fun h => ?_, fun h => ?_, fun h => ?_⟩, fun s hen hg => ?_, fun s hen hg => ?_, fun s => ?_⟩
  · exact congrArg Host.Outcome.next (caravanFetch_of_may (by simp [mayFetch, hr, hen, hi, ht, hh, hf]))
  · rw [exec_caravanFetchDone_of_ok hf]
    exact congrArg Host.Outcome.next (packetArrival_of_fault hr hp (packetFault_of_unknown hl ho))
  · rw [exec_caravanFetchDone_of_ok hf]
    exact ⟨_, exec_packetArrival_atOnce hr hp hc hl he hq, rfl, rfl⟩
  · refine ⟨_, rfl, ?_⟩
    rw [caravanFetchDone_of_fail hf, raiseErr_cmdq, raiseErr_dram]
    exact ⟨rfl, rfl, rfl, rfl, rfl, rfl⟩
  · exact congrArg Host.Outcome.next ((if_neg (by simp [hflr])).trans (if_pos h))
  · exact congrArg Host.Outcome.next ((if_neg (by simp [hflr])).trans (if_neg (Nat.not_le.2 h)))
  · exact congrArg Host.Outcome.next ((if_neg (by simp [hflr])).trans (if_pos h))
  · exact congrArg Host.Outcome.next ((if_neg (by simp [hflr])).trans (if_neg (Nat.not_le.2 h)))
  · exact congrArg Host.Outcome.next ((if_neg (by simp [hen])).trans (if_pos hg))
  · exact congrArg Host.Outcome.next ((if_neg (by simp [hen])).trans (if_neg (by simp [hg])))
  · rfl

/-! ### The mailboxes -/

theorem mboxOf_modMbox (m : Bool) (f : Mbox → Mbox) (s : State) : mboxOf (modMbox m f s) m = f (mboxOf s m) := by
  cases m <;> rfl

theorem mboxOf_sendVector (m : Bool) (v : Nat) (s : State) : mboxOf (sendVector v s) m = mboxOf s m := by
  unfold mboxOf
  rw [sendVector_only (g := fun s => s.cmdq) (fun _ _ => rfl) (fun _ _ => rfl)]

theorem mboxOf_enqueue (m : Bool) (q : Queued) (f : Sfn) (s : State) : mboxOf (enqueue q f s) m = mboxOf s m := rfl

theorem mboxGo_of_idle {m : Bool} {s : State} (hr : s.dev.phase = .ready) (hp : s.dev.power ≠ .off)
    (hb : (mboxOf s m).busy = false) : mboxGo m s = packetArrival (mboxPath m) (mboxOf s m).cmd.toList
      (modMbox m (fun m => { m with busy := true, done := false, parts := [] }) s) := by
  simp [mboxGo, hr, hp, hb]

theorem mboxGo_of_busy {m : Bool} {s : State} (hb : (mboxOf s m).busy = true) :
    mboxGo m s = modCmdq (fun c => { c with mboxBusy := true }) s := by
  simp [mboxGo, hb]

theorem mboxShow_of_nil {m : Bool} {s : State} (h : (mboxOf s m).parts = []) : mboxShow m s = s := by
  simp [mboxShow, h]

/-- The next part of a reply on a mailbox, as its registers show it. -/
def showPart (p : ReplyPart) (r : List ReplyPart) (b : Mbox) : Mbox :=
  { b with rpl := Vector.ofFn fun i : Fin 64 => (replyWords p 0).getD i.val 0, done := true, parts := r,
           busy := b.busy && !p.last }

theorem mboxShow_of_cons {m : Bool} {s : State} {p : ReplyPart} {r : List ReplyPart} (h : (mboxOf s m).parts = p :: r) :
    mboxShow m s = if m || !s.host.msixEn then modMbox m (showPart p r) s else sendVector 3 (modMbox m (showPart p r) s) := by
  simp only [mboxShow, h]
  rfl

theorem mboxOf_mboxShow {m : Bool} {s : State} {p : ReplyPart} {r : List ReplyPart} (h : (mboxOf s m).parts = p :: r) :
    mboxOf (mboxShow m s) m = showPart p r (mboxOf s m) := by
  rw [mboxShow_of_cons h]
  split
  · exact mboxOf_modMbox ..
  · rw [mboxOf_sendVector, mboxOf_modMbox]

theorem packetFault_nop {ws : List Word} (ho : packetOp ws = 0) (hl : packetLen ws = 0) :
    packetFault (packetLen ws) (packetOp ws) (packetPars ws) = none := by
  rw [ho, hl]
  rfl

/-- The part of a reply that has one. -/
def onePart (h : Hdr) (op : Nat) (st : BitVec 16) (ws : List Word) : ReplyPart :=
  { hdr := h, opcode := BitVec.ofNat 8 op, status := st, part := 0, last := true, words := ws }

theorem mkParts_one (h : Hdr) (op : Nat) (st : BitVec 16) (ws : List Word) : mkParts h op st [ws] = [onePart h op st ws] := rfl

/-- The one part of a reply on the management mailbox is shown as it is sent. -/
theorem reply_of_mgmt {h : Hdr} (hh : h.path = .mgmt) (op : Nat) {st : BitVec 16} (ws : List Word) {s : State}
    (hparts : s.cmdq.spt.parts = []) (hst : (decide (st = stOk) || decide (st = stTruncated)) = true) :
    reply h op st ws s = modMbox true (showPart (onePart h op st ws) []) s := by
  unfold reply replyParts sendParts
  simp only [hst, if_true, hh, mkParts_one]
  rw [mboxShow_of_cons (m := true) (p := onePart h op st ws) (r := []) (by rw [mboxOf_modMbox]; simp [mboxOf, hparts])]
  rfl

/-- Settles O17: a GO is the arrival of a packet, and a part of a reply is the mailbox's alone. -/
theorem mailboxesServe : Obligations.MailboxesServe := by
  refine ⟨⟨fun m s hr hp hb hq ho hl he => ?_, fun m s hb => ?_, fun m s h => ?_, fun m s p r h => ?_⟩,
    fun tag sfn op st ws s hparts hst => ?_⟩
  · have hpars : packetPars (mboxOf s m).cmd.toList = [] := by simp [packetPars, hl]
    refine ⟨_, (congrArg Host.Outcome.next (mboxGo_of_idle hr hp hb)).trans
      (exec_packetArrival_atOnce (s := modMbox m (fun m => { m with busy := true, done := false, parts := [] }) s)
        hr hp (packetFault_nop ho hl) (.inl (by simp [ho])) he hq), ?_, ?_, ?_⟩
    · rw [mboxOf_enqueue, mboxOf_modMbox]
    · rw [mboxOf_enqueue, mboxOf_modMbox]
    · simp only [enqueue, packetCmd, hpars, ho]
      rfl
  · exact congrArg Host.Outcome.next (mboxGo_of_busy hb)
  · exact congrArg Host.Outcome.next (mboxShow_of_nil h)
  · refine ⟨_, rfl, ?_⟩
    rw [show mboxNext m s = mboxShow m s from rfl, mboxOf_mboxShow h]
    exact ⟨rfl, rfl, rfl, rfl⟩
  · refine (reply_of_mgmt rfl op ws hparts (by simpa using hst)).trans ?_
    simp [modMbox, modCmdq, showPart, onePart]

/-! ### A held part and a pending vector -/

theorem postHeld_of_room {s : State} {p : ReplyPart} {r : List ReplyPart} (h : s.cmdq.held = p :: r)
    (hr : replyRoom s = true) : (postHeld s).cmdq.held = (r ++ s.cmdq.behind).take 64 ∧
      (postHeld s).cmdq.behind = (r ++ s.cmdq.behind).drop 64 ∧ (postHeld s).cmdq.rplProd = s.cmdq.rplProd + 1 ∧
      (postHeld s).cmdq.head = s.cmdq.head ∧ (postHeld s).cmdq.tail = s.cmdq.tail ∧
      (postHeld s).cmdq.rplCons = s.cmdq.rplCons := by
  unfold postHeld
  rw [h]
  simp only [hr, if_true]
  split
  · rw [sendVector_only (g := fun s => s.cmdq) (fun _ _ => rfl) (fun _ _ => rfl)]
    simp [Cmdq.hold]
  · simp [Cmdq.hold]

/-- Settles O18: the oldest held part leaves with the PROD it takes, and a vector waits for what blocks it alone. -/
theorem repliesAndVectorsSent : Obligations.RepliesAndVectorsSent := by
  refine ⟨fun s p r h hr => ⟨_, rfl, ?_⟩, fun v s hv hb => ?_, fun v s hb => ?_⟩
  · obtain ⟨h₁, h₂, h₃, h₄, h₅, h₆⟩ := postHeld_of_room h hr
    refine ⟨h₁, h₂, h₃, h₄, h₅, h₆, ?_, (postHeld_kept s).2⟩
    exact postHeld_only (g := fun s => s.tick) (fun _ _ _ _ => rfl) s
  · exact congrArg Host.Outcome.next (if_pos (by rw [hv, hb]; rfl))
  · exact congrArg Host.Outcome.next (if_neg (by rw [hb, Bool.not_true, Bool.and_false]; decide))

end Sys2Proof.Proofs
end

section
/-! PROOFS. START with a memory request waiting (02 R60; 10 R246, R260): why its statement fails. -/
namespace Sys2Proof.Proofs

open Sys2Proof Sys2Proof.Machine Sys2Proof.Laws

/-- A read that waits for the line of the status bytes, in which an uncorrectable word was found. -/
def waitingRead : PendReq :=
  { req := { port := 0, line := 2178, data := none, waited := false }, host := false, touch := false,
    hits := [{ word := 0, syndrome := 0, correctable := false }] }

/-- A copy of a table under way, of no bytes. -/
def copyUnderWay : Save :=
  { hdr := Tests.header, at_ := 0, table := 0, base := 0, dest := 0, bytes := 0, copy := true, crc := false }

/-- PARKED under the empty set, with a copy under way and that read waiting. -/
def startStopped : State :=
  { Tests.withSet [] with
    cfg := { (Tests.withSet []).cfg with saves := [copyUnderWay] }
    memc := { (Tests.withSet []).memc with reqs := [waitingRead] } }

/-- The status byte that START writes for a tile without a set's enable serves the waiting read first; its uncorrectable
word freezes the memory controller, which cuts the copy short. -/
theorem start_startStopped_saves : (beginFrame (startCmd Tests.header startStopped)).cfg.saves = [] := by decide +kernel

theorem start_startStopped_imaging : (startCmd Tests.header startStopped).tick.imaging = true := by decide +kernel

/-- Refutes O24: START begins a frame, whose accesses serve a waiting read; where that finds an uncorrectable word the freeze
ends the copies of TABLE_SAVE, which `cfg` holds. -/
theorem not_imagingStartsAndStops : ¬ Obligations.ImagingStartsAndStops := by
  rintro ⟨start, -⟩
  obtain ⟨t, e, -, -, hcfg, -⟩ := start Tests.header startStopped rfl rfl (.inl rfl)
  have he : exec (.start Tests.header) startStopped = .next (beginFrame (startCmd Tests.header startStopped)) :=
    congrArg Host.Outcome.next (if_pos (by rw [start_startStopped_imaging]; rfl))
  obtain rfl := Host.Outcome.next.inj (he.symm.trans e)
  have hs : (beginFrame (startCmd Tests.header startStopped)).cfg.saves = [copyUnderWay] := by rw [hcfg]; rfl
  rw [start_startStopped_saves] at hs
  exact absurd hs (by simp)

end Sys2Proof.Proofs
end

section
/-! PROOFS. A replay of recorded frames (02 R68, R69; 13 R320). -/
namespace Sys2Proof.Proofs

open Sys2Proof Sys2Proof.Machine Sys2Proof.Laws

/-! ### What releases a coil writes -/

/-- The two states differ in the shutter drive at most. -/
def OnlyShut (s t : State) : Prop := ∃ x, t = { s with shut := x }

theorem OnlyShut.refl (s : State) : OnlyShut s s := ⟨s.shut, rfl⟩

theorem OnlyShut.trans {s t u : State} (a : OnlyShut s t) (b : OnlyShut t u) : OnlyShut s u := by
  obtain ⟨x, rfl⟩ := a
  obtain ⟨y, rfl⟩ := b
  exact ⟨y, rfl⟩

theorem onlyShut_modCoil (t : Nat) (f : Coil → Coil) (s : State) : OnlyShut s (modCoil t f s) := ⟨_, rfl⟩

theorem onlyShut_groupIdle (g : Nat) (s : State) : OnlyShut s (groupIdle g s) := by
  unfold groupIdle
  split
  · exact OnlyShut.refl s
  · exact ⟨_, rfl⟩

theorem onlyShut_dropRequests (t : Nat) (s : State) : OnlyShut s (dropRequests t s) := ⟨_, rfl⟩

theorem onlyShut_beginRelease (t : Nat) (s : State) : OnlyShut s (beginRelease t s) :=
  (onlyShut_modCoil t _ s).trans (onlyShut_groupIdle _ _)

theorem onlyShut_releaseCoil (t : Nat) (s : State) : OnlyShut s (releaseCoil t s) := by
  refine (onlyShut_dropRequests t s).trans ?_
  simp only [releaseCoil]
  split
  · exact onlyShut_beginRelease ..
  · exact onlyShut_beginRelease ..
  · exact onlyShut_modCoil ..
  · exact onlyShut_modCoil ..
  · exact OnlyShut.refl _

theorem onlyShut_forEach {α : Type} {f : α → State → State} (h : ∀ a s, OnlyShut s (f a s)) (l : List α) (s : State) :
    OnlyShut s (forEach l f s) :=
  forEach_invariant (P := OnlyShut s) (fun a t ht => ht.trans (h a t)) l s (OnlyShut.refl s)

/-! ### No released coil is driven -/

/-- A coil that is neither pulled in nor held. -/
def Undriven (s : State) (t : Nat) : Prop := (coilOf s t).state ≠ .pullin ∧ (coilOf s t).state ≠ .hold

theorem groupIdle_coil (g t : Nat) (s : State) : coilOf (groupIdle g s) t = coilOf s t := by
  unfold groupIdle
  split <;> rfl

theorem coilOf_dropRequests_state (t u : Nat) (s : State) : (coilOf (dropRequests t s) u).state = (coilOf s u).state := by
  show (coilOf (modCoil t _ s) u).state = _
  by_cases h : u = t
  · subst h
    by_cases hu : u < 64
    · rw [coilOf_modCoil_same hu]
    · simp [coilOf, modCoil, vmod, hu]
  · rw [coilOf_modCoil_ne h]

theorem releaseCoil_undriven {t : Nat} (ht : t < 64) (s : State) : Undriven (releaseCoil t s) t := by
  unfold releaseCoil Undriven
  dsimp only
  split
  · simp [beginRelease, groupIdle_coil, ht]
  · simp [beginRelease, groupIdle_coil, ht]
  · simp [ht]
  · simp [ht]
  · next h₁ h₂ _ _ => exact ⟨h₁, h₂⟩

theorem releaseCoil_keeps_undriven {t u : Nat} (hu : u < 64) {s : State} (h : Undriven s u) : Undriven (releaseCoil t s) u := by
  by_cases e : u = t
  · subst e
    exact releaseCoil_undriven hu s
  · have hd : Undriven (dropRequests t s) u := by
      rw [Undriven, coilOf_dropRequests_state]
      exact h
    unfold releaseCoil
    dsimp only
    unfold Undriven
    split
    · rwa [beginRelease, groupIdle_coil, coilOf_modCoil_ne e]
    · rwa [beginRelease, groupIdle_coil, coilOf_modCoil_ne e]
    · rwa [coilOf_modCoil_ne e]
    · rwa [coilOf_modCoil_ne e]
    · exact hd

theorem forEach_releaseCoil_undriven {l : List Nat} {u : Nat} (hu : u < 64) (hl : u ∈ l) (s : State) :
    Undriven (forEach l releaseCoil s) u := by
  induction l generalizing s with
  | nil => exact absurd hl (by simp)
  | cons t l ih =>
    rcases List.mem_cons.1 hl with rfl | h
    · exact forEach_invariant (P := fun s => Undriven s u) (fun _ _ => releaseCoil_keeps_undriven hu) l _
        (releaseCoil_undriven hu s)
    · exact ih h _

/-! ### REPLAY -/

/-- What REPLAY plays, before its first frame. -/
def replayOf (h : Hdr) (raw stride side : BitVec 64) (n : Word) (loop : Bool) (first : Sfn) : ReplaySrc :=
  { hdr := h, rawBase := raw.toNat, rawStride := stride.toNat, sideBase := side.toNat, n := n.toNat, loop, at_ := 0,
    played := 0, badMagic := 0, firstSfn := first, side := [] }

/-- A replay of a recorded frame with no request waiting reads its side record alone. -/
theorem replayPlay_of_idle (r : ReplaySrc) (f : Nat) {s : State} (hr : s.memc.reqs = []) : ∃ p c,
    replayPlay r f s = { setPorts p c s with replay := some { r with
      at_ := f, side := replaySide s r f, played := r.played + 1,
      badMagic := r.badMagic + (!sideGood (replaySide s r f)).toNat } } := by
  obtain ⟨p, c, e⟩ := onlyPorts_traffic 10 [] [reads (r.sideBase + 4096 * f) 4096] s hr (fun h hh => absurd hh (by simp))
  refine ⟨p, c, ?_⟩
  unfold replayPlay
  rw [e]
  rfl

/-- REPLAY plays its first frame and then releases every coil. -/
def startReplay (r : ReplaySrc) (s : State) : State :=
  modTick (fun t => { t with replaying := true, replayOfs := word (sfnDiff s.tick.sfn r.firstSfn) })
    (forEach (List.range 64) releaseCoil (replayPlay r 0 s))

/-- Playing a frame and releasing the coils leaves the SFN. -/
theorem sfn_after_replayPlay (r : ReplaySrc) (s : State) :
    (forEach (List.range 64) releaseCoil (replayPlay r 0 s)).tick.sfn = s.tick.sfn := by
  obtain ⟨x, ex⟩ := onlyShut_forEach onlyShut_releaseCoil (List.range 64) (replayPlay r 0 s)
  rw [ex]
  exact (replayPlay_paced r 0 s).2.1

/-- REPLAY in IMAGING of regions within the capacity plays its first frame and releases every coil. -/
theorem replayCmd_of_ready (h : Hdr) (raw stride side : BitVec 64) (n : Word) (loop : Bool) {s : State} {b : Bank}
    (hp : s.dev.power = .imaging) (hi : s.tick.imaging = true) (hn : s.replay = none) (hb : activeSet s = some b)
    (hc : Bank.replayCharge b = true) (hraw : raw.toNat + (n.toNat - 1) * stride.toNat + 203423744 ≤ capacity s)
    (hside : side.toNat + 4096 * n.toNat ≤ capacity s) :
    replayCmd h raw stride side n loop s =
      startReplay (replayOf h raw stride side n loop (word (sideU32 (dramRead s side.toNat 4096) 4))) (counted s) := by
  have hb' : activeSet (counted s) = some b := hb
  unfold replayCmd
  rw [runAtTick_of_live (by simp [hp]) (by simp [hp]), if_neg (by simp [counted, hp]), if_neg (by simp [counted, hi]),
    if_neg (by simp [counted, hn])]
  have hd (r : ReplaySrc) (hr : r.sideBase = side.toNat) : replaySide (counted s) r 0 = dramRead s side.toNat 4096 := by
    rw [replaySide, hr, Nat.mul_zero, Nat.add_zero]
    rfl
  have hcap : capacity (counted s) = capacity s := rfl
  dsimp only
  rw [hd _ rfl, hb', hcap, if_neg]
  · have e := sfn_after_replayPlay
      (replayOf h raw stride side n loop (word (sideU32 (dramRead s side.toNat 4096) 4))) (counted s)
    rw [startReplay, ← e]
    simp only [replayOf]
  · simp [hc, Nat.not_lt.2 hraw, Nat.not_lt.2 hside]

/-- A started replay plays its first frame, reads its side record and no other memory, and drives no coil. -/
theorem startReplay_eqs (r : ReplaySrc) {s : State} (hr : s.memc.reqs = []) :
    ∃ x p c, startReplay r s = { setPorts p c s with
      tick := { s.tick with replaying := true, replayOfs := word (sfnDiff s.tick.sfn r.firstSfn) },
      shut := x,
      replay := some { r with
        at_ := 0, side := replaySide s r 0, played := r.played + 1,
        badMagic := r.badMagic + (!sideGood (replaySide s r 0)).toNat } } := by
  obtain ⟨p, c, e⟩ := replayPlay_of_idle r 0 hr
  obtain ⟨x, ex⟩ := onlyShut_forEach onlyShut_releaseCoil (List.range 64) (replayPlay r 0 s)
  refine ⟨x, p, c, ?_⟩
  rw [startReplay, ex, e]
  rfl

theorem coilOf_modTick (f : TickBlk → TickBlk) (s : State) (t : Nat) : coilOf (modTick f s) t = coilOf s t := rfl

theorem startReplay_undriven (r : ReplaySrc) (s : State) (i : Fin 64) : Undriven (startReplay r s) i.val := by
  rw [startReplay, Undriven, coilOf_modTick]
  exact forEach_releaseCoil_undriven i.isLt (List.mem_range.2 i.isLt) (replayPlay r 0 s)

/-- Settles O26: the first frame is played before the coils are released, and the end of a replay is `endReplay`. -/
theorem replayRuns : Obligations.ReplayRuns := by
  refine ⟨fun h raw stride side n loop s b hp hi hn hb hc hr hraw hside => ⟨_, rfl, ?_⟩, fun s r hs => ⟨fun hl hloop => ?_, fun hg => ?_⟩⟩
  · rw [replayCmd_of_ready h raw stride side n loop hp hi hn hb hc hraw hside]
    generalize hr' : replayOf h raw stride side n loop (word (sideU32 (dramRead s side.toNat 4096) 4)) = r
    have hside : replaySide (counted s) r 0 = dramRead s side.toNat 4096 := by
      subst hr'
      rfl
    obtain ⟨x, p, c, e⟩ := startReplay_eqs r (s := counted s) hr
    have hcoil := startReplay_undriven r (counted s)
    rw [hside] at e
    rw [e] at hcoil ⊢
    refine ⟨rfl, ?_, ?_, rfl, rfl, rfl, hcoil⟩
    · subst hr'
      rfl
    · subst hr'
      simp [replayOf]
  · have hend : execReplayEnd s = .next (endReplay s) := by
      simp [execReplayEnd, hs, hloop, Nat.not_lt.2 hl]
    refine hend.trans (congrArg Host.Outcome.next ?_)
    simp only [endReplay, hs]
    rfl
  · have hgo : execReplayEnd s = .next s := by
      simp [execReplayEnd, hs, hg]
    exact hgo

end Sys2Proof.Proofs
end

section
/-! PROOFS. The hold buffer frozen and released (09 R239, R240). -/
namespace Sys2Proof.Proofs

open Sys2Proof Sys2Proof.Machine Sys2Proof.Laws

/-! ### The hold buffer -/

theorem holdEnter_hold {st : HoldState} {s : State} (h : s.hold.state ≠ st) :
    (holdEnter st s).hold = { s.hold with state := st } := by
  unfold holdEnter
  rw [if_neg h]
  exact sendVector_only (g := fun s => s.hold) (fun _ _ => rfl) (fun _ _ => rfl) 5 _

theorem holdEnter_only {β : Type} {g : State → β} (ho : BlindOut g) (hh : ∀ f s, g (modHost f s) = g s)
    (hm : ∀ f s, g (modHold f s) = g s) (st : HoldState) (s : State) : g (holdEnter st s) = g s := by
  unfold holdEnter
  split
  · rfl
  · exact (sendVector_only ho hh 5 _).trans (hm _ s)

@[simp] theorem holdEnter_dram (st : HoldState) (s : State) : (holdEnter st s).dram = s.dram :=
  holdEnter_only (g := fun s => s.dram) (fun _ _ => rfl) (fun _ _ => rfl) (fun _ _ => rfl) st s

/-- A command of PARKED or IMAGING executes. -/
theorem runAtTick_of_running {h : Hdr} {op : Nat} {f : State → State} {s : State}
    (hp : s.dev.power = .parked ∨ s.dev.power = .imaging) : runAtTick h op f s = f (counted s) :=
  runAtTick_of_live (by rcases hp with e | e <;> simp [e]) (by rcases hp with e | e <;> simp [e])

theorem holdFreeze_of_recording (h : Hdr) (post : Word) {s : State} {b : Bank} (hb : activeSet s = some b)
    (hr : s.hold.state = .recording) : holdFreeze h post s = modHold (fun x => { x with
      endSfn := sfnAdd s.tick.sfn (if post = 0xFFFFFFFF#32 then Bank.holdPost b else post.toNat),
      waiting := x.waiting ++ [h] }) (holdEnter .pending s) := by
  simp only [holdFreeze, hb, hr]

theorem holdFreezeDue_of_due {s : State} (hp : s.hold.state = .pending)
    (he : sfnBefore s.tick.sfn (sfnAdd s.hold.endSfn 2) = false) :
    (holdFreezeDue s).hold.state = .frozen ∧ (holdFreezeDue s).hold.waiting = [] ∧
      (holdFreezeDue s).hold.toSend = s.hold.retained.length ∧ (holdFreezeDue s).hold.retained = s.hold.retained ∧
      (holdFreezeDue s).dram = s.dram := by
  have hne : s.hold.state ≠ .frozen := by simp [hp]
  have hin := holdEnter_hold hne
  unfold holdFreezeDue
  rw [if_pos (by simp [hp, he])]
  dsimp only
  rw [forEach_keeps (g := fun s => s.hold) (fun h s => reply_hold h 0x25 stOk _ s),
    forEach_keeps (g := fun s => s.dram) (fun h s => reply_dram h 0x25 stOk _ s)]
  rw [modHold_hold, modHold_dram, hin]
  exact ⟨rfl, rfl, rfl, rfl, holdEnter_dram _ s⟩

theorem holdRelease_of_frozen (h : Hdr) {force : Bool} {s : State} (hf : s.hold.state = .frozen)
    (hd : s.hold.delivering = false ∨ force = true) : holdRelease h force s = reply h 0x26 stOk []
      (modHold (fun x => { x with skipNow := true }) (holdUndelivered (holdEnter .recording s))) := by
  unfold holdRelease
  rw [hf]
  exact if_neg (by rcases hd with e | e <;> simp [e])

/-- Settles O28: each command is one entry into a hold state, with the record written after it. -/
theorem holdRecordFrozen : Obligations.HoldRecordFrozen := by
  refine ⟨fun h post s b hp hb hr => ⟨_, rfl, ?_⟩, fun s hp he => ⟨_, rfl, holdFreezeDue_of_due hp he⟩, fun s hp he => ?_,
    fun h force s hp hf hd => ⟨_, rfl, ?_⟩⟩
  · have hne : (counted s).hold.state ≠ .pending := by
      rw [show (counted s).hold = s.hold from rfl, hr]
      simp
    rw [runAtTick_of_running hp, holdFreeze_of_recording h post (s := counted s) hb hr, modHold_dram, modHold_hold,
      holdEnter_hold hne, holdEnter_dram]
    exact ⟨rfl, rfl⟩
  · refine congrArg Host.Outcome.next ?_
    unfold holdFreezeDue
    exact if_neg (by simp [he])
  · have hne : (counted s).hold.state ≠ .recording := by
      rw [show (counted s).hold = s.hold from rfl, hf]
      simp
    rw [runAtTick_of_running hp, holdRelease_of_frozen h (s := counted s) hf hd, reply_dram, reply_hold, modHold_dram,
      modHold_hold]
    refine ⟨holdEnter_dram .recording (counted s), ?_⟩
    show { (holdEnter .recording (counted s)).hold with
      delivering := false, toSend := 0, piecesSent := 0, part := 0, skipNow := true } = _
    rw [holdEnter_hold hne]
    rfl

end Sys2Proof.Proofs
end

section
/-! PROOFS. MEM_TRAIN and the end of a full training (11 R270, R275; 20 R442). -/
namespace Sys2Proof.Proofs

open Sys2Proof Sys2Proof.Machine Sys2Proof.Laws

/-! ### Loops that settle one place -/

/-- A loop that comes to `a` leaves what its turn at `a` brings about and no turn undoes. -/
theorem forEach_settles {α : Type} {f : α → State → State} {P : State → Prop} {a : α} (ha : ∀ s, P (f a s))
    (hkeep : ∀ b s, P s → P (f b s)) {l : List α} (hl : a ∈ l) (s : State) : P (forEach l f s) := by
  induction l generalizing s with
  | nil => exact absurd hl List.not_mem_nil
  | cons b l ih =>
    rcases List.mem_cons.1 hl with rfl | h
    · exact forEach_invariant hkeep l _ (ha s)
    · exact ih h _

theorem mem_maskList {w : Nat} {m : BitVec w} {i : Nat} : i ∈ maskList m ↔ m.getLsbD i = true := by
  simp only [maskList, List.mem_filter, List.mem_range, and_iff_right_iff_imp]
  exact BitVec.lt_of_getLsbD

/-- The two states differ in the channels at most. -/
def OnlyMemch (s t : State) : Prop := ∃ x, t = { s with memch := x }

theorem OnlyMemch.refl (s : State) : OnlyMemch s s := ⟨s.memch, rfl⟩

theorem OnlyMemch.trans {s t u : State} (a : OnlyMemch s t) (b : OnlyMemch t u) : OnlyMemch s u := by
  obtain ⟨x, rfl⟩ := a
  obtain ⟨y, rfl⟩ := b
  exact ⟨y, rfl⟩

theorem onlyMemch_modCh (n : Nat) (f : Memch → Memch) (s : State) : OnlyMemch s (modCh n f s) := ⟨_, rfl⟩

theorem onlyMemch_forEach {α : Type} {f : α → State → State} (h : ∀ a s, OnlyMemch s (f a s)) (l : List α) (s : State) :
    OnlyMemch s (forEach l f s) :=
  forEach_invariant (P := OnlyMemch s) (fun a t ht => ht.trans (h a t)) l s (OnlyMemch.refl s)

theorem onlyMemch_traceRanks (cmd n : Nat) (s : State) : OnlyMemch s (traceRanks cmd n s) :=
  onlyMemch_forEach (fun _ s => onlyMemch_forEach (fun _ s => onlyMemch_modCh _ _ s) _ s) _ s

theorem onlyMemch_setBusy (m : BitVec 8) (v : Bool) (s : State) : OnlyMemch s (setBusy m v s) :=
  onlyMemch_forEach (fun _ => onlyMemch_modCh _ _) _ s

/-- A property of one channel that a write of each channel leaves, the loop over the channels leaves or brings about. -/
theorem forEach_modCh_settles {f : Nat → Memch → Memch} {P : Memch → Prop} {n : Nat} (hn : n < 8) (h : ∀ c, P (f n c))
    {l : List Nat} (hl : n ∈ l) (s : State) : P (chOf (forEach l (fun k => modCh k (f k)) s) n) := by
  refine forEach_settles (P := fun s => P (chOf s n)) (fun s => ?_) (fun k s hs => ?_) hl s
  · rw [chOf_modCh_same hn]
    exact h _
  · by_cases e : n = k
    · subst e
      rw [chOf_modCh_same hn]
      exact h _
    · rwa [chOf_modCh_ne e]

theorem setBusy_busy {m : BitVec 8} (v : Bool) {n : Fin 8} (hn : m.getLsbD n.val = true) (s : State) :
    (chOf (setBusy m v s) n.val).busy = v :=
  forEach_modCh_settles (P := fun c => c.busy = v) n.isLt (fun _ => rfl) (mem_maskList.2 hn) s

/-! ### Training starts -/

/-- A named channel is untrained, so the controller is. -/
theorem memcFollow_trained {s : State} {n : Fin 8} (h : (chOf s n.val).trained = false) (rate : BitVec 16) :
    (memcFollow rate s).memc.trained = false := by
  show (List.range 8).all (fun n => (chOf s n).trained) = false
  rw [List.all_eq_false]
  exact ⟨n.val, List.mem_range.2 n.isLt, by simp [h]⟩

/-- With no hold record the loss of every region leaves it none. -/
theorem holdLost_of_none {s : State} (h : s.hold.state = .none) (hw : s.hold.waiting = []) :
    ∃ x y, holdLost s = { s with host := x, hold := y } := by
  have e : holdLost s = holdRestart false s := by simp [holdLost, hw, h, forEach]
  have ee : holdEnter .none (holdNoWait s) = holdNoWait s := if_pos h
  rw [e]
  unfold holdRestart
  rw [if_neg Bool.false_ne_true, ee]
  exact ⟨(holdNoWait s).host, _, rfl⟩

/-- The channels of a full training that starts. -/
def trainChannels (m : BitVec 8) (s : State) : State :=
  forEach (maskList m) (fun n => modCh n fun c => { c with trained := false })
    (setBusy m true (dramLost (forEach (maskList m) (traceRanks 9) s)))

theorem trainChannels_eq (m : BitVec 8) (s : State) : ∃ x, trainChannels m s = { dramLost s with memch := x } := by
  obtain ⟨x, ex⟩ := onlyMemch_forEach (onlyMemch_traceRanks 9) (maskList m) s
  obtain ⟨y, ey⟩ := (onlyMemch_setBusy m true (dramLost (forEach (maskList m) (traceRanks 9) s))).trans
    (onlyMemch_forEach (fun n => onlyMemch_modCh n fun c => { c with trained := false }) (maskList m) _)
  exact ⟨y, ey.trans (by rw [ex]; rfl)⟩

theorem trainChannels_channel {m : BitVec 8} (s : State) {n : Fin 8} (hn : m.getLsbD n.val = true) :
    (chOf (trainChannels m s) n.val).trained = false ∧ (chOf (trainChannels m s) n.val).busy = true := by
  refine ⟨forEach_modCh_settles (P := fun c => c.trained = false) n.isLt (fun _ => rfl) (mem_maskList.2 hn) _, ?_⟩
  refine forEach_invariant (P := fun s => (chOf s n.val).busy = true) (fun k t ht => ?_) _ _ (setBusy_busy true hn _)
  by_cases e : n.val = k
  · subst e
    rw [chOf_modCh_same n.isLt]
    exact ht
  · rwa [chOf_modCh_ne e]

/-- A full training of the channels starts. -/
theorem trainStart_eqs {m : BitVec 8} (hm : m ≠ 0) {s : State} (h : s.hold.state = .none) (hw : s.hold.waiting = []) :
    (trainStart m s).memc.train = s.memc.train ∧ (trainStart m s).memc.trained = false ∧
      (trainStart m s).dram = { cells := [], epoch := s.dram.epoch + 1 } ∧ (trainStart m s).cmdq = s.cmdq ∧
      ∀ n : Fin 8, m.getLsbD n.val = true →
        (chOf (trainStart m s) n.val).trained = false ∧ (chOf (trainStart m s) n.val).busy = true := by
  obtain ⟨x, ex⟩ := trainChannels_eq m s
  have hch n := trainChannels_channel (m := m) s (n := n)
  have e : trainStart m s = holdLost (modMemc (fun c => { c with diagServed := c.diagServed || c.frozen })
      (memcFollow (trainChannels m s).memc.rate (trainChannels m s))) := rfl
  obtain ⟨n, hn⟩ : ∃ n : Fin 8, m.getLsbD n.val = true := by
    obtain ⟨k, l, hl⟩ := List.exists_cons_of_ne_nil (mt maskList_eq_nil.1 hm)
    have hk := mem_maskList.1 (hl ▸ List.mem_cons_self : k ∈ maskList m)
    exact ⟨⟨k, BitVec.lt_of_getLsbD hk⟩, hk⟩
  have htr := memcFollow_trained (hch n hn).1 (trainChannels m s).memc.rate
  obtain ⟨y, z, eh⟩ := holdLost_of_none (s := modMemc (fun c => { c with diagServed := c.diagServed || c.frozen })
      (memcFollow (trainChannels m s).memc.rate (trainChannels m s)))
    (by rw [ex]; exact h) (by rw [ex]; exact hw)
  rw [e, eh]
  refine ⟨?_, htr, ?_, ?_, hch⟩
  · show (trainChannels m s).memc.train = _
    rw [ex]
    rfl
  · show (trainChannels m s).dram = _
    rw [ex]
    rfl
  · show (trainChannels m s).cmdq = _
    rw [ex]
    rfl

/-! ### MEM_TRAIN -/


/-- MEM_TRAIN FULL in PARKED with no set notes its run and starts it. -/
theorem memTrain_full (h : Hdr) {m : BitVec 8} (eye : BitVec 7) (mts per : Word) {s : State} (hp : s.dev.power = .parked)
    (hb : chBusy s m = false) (ha : s.cfg.hasActive = false) :
    memTrain h 0 m eye mts per s = trainStart m (modMemc (fun c => { c with
      train := c.train ++ [{ hdr := h, full := true, mask := m, eyeMin := if eye = 0 then 16 else eye.toNat, left := m,
                             rate := if m = 0xFF ∧ mts ≠ 0 then mts.toNat else s.memc.rate.toNat, steps := decide (m = 0xFF) }],
      diagServed := c.diagServed || c.frozen }) (counted s)) := by
  have hp' : (counted s).dev.power = .parked := hp
  have ha' : (counted s).cfg.hasActive = false := ha
  have hb' : chBusy (counted s) m = false := hb
  have hm : (counted s).memc = s.memc := rfl
  unfold memTrain
  rw [runAtTick_of_running (.inl hp)]
  simp [hp', ha', hb', hm, trainRate]

/-- MEM_TRAIN INCR of trained channels notes its run and makes them busy. -/
theorem memTrain_incr (h : Hdr) {m : BitVec 8} (eye : BitVec 7) (mts per : Word) {s : State} (hp : s.dev.power = .parked)
    (hb : chBusy s m = false) (hu : chUntrained s m = false) :
    ∃ rate steps, memTrain h 1 m eye mts per s = setBusy m true (modMemc (fun c => { c with
      train := c.train ++ [{ hdr := h, full := false, mask := m, eyeMin := if eye = 0 then 16 else eye.toNat, left := m,
                             rate, steps }],
      diagServed := c.diagServed || c.frozen }) (counted s)) := by
  have hp' : (counted s).dev.power = .parked := hp
  have hb' : chBusy (counted s) m = false := hb
  have hu' : chUntrained (counted s) m = false := hu
  refine ⟨(trainRate (counted s) m mts).1, (trainRate (counted s) m mts).2, ?_⟩
  unfold memTrain
  rw [runAtTick_of_running (.inl hp)]
  dsimp only
  simp [hp', hb', hu']

/-- MEM_TRAIN INCR_PERIODIC sets the rotation and replies. -/
theorem memTrain_periodic (h : Hdr) {m : BitVec 8} (eye : BitVec 7) (mts per : Word) {s : State} (hp : s.dev.power = .parked)
    (hb : chBusy s m = false) (hu : chUntrained s m = false) :
    ∃ x c, memTrain h 2 m eye mts per s = reply h 0x40 stOk [] { counted s with memch := x, memc := c } ∧
      c.perMask = (if per ≠ 0 then m else 0) ∧ c.perPeriod = per.toNat := by
  have hp' : (counted s).dev.power = .parked := hp
  have hb' : chBusy (counted s) m = false := hb
  have hu' : chUntrained (counted s) m = false := hu
  unfold memTrain
  rw [runAtTick_of_running (.inl hp)]
  extract_lets full eye quiet on s' mark
  rw [if_neg (by simp [full]), if_neg (by simp [full]), if_neg (by simp [hp']), if_neg (by simp [hu']), if_neg (by simp [hb']),
    if_pos rfl]
  exact ⟨_, _, rfl, by simp [s', on], rfl⟩

/-! ### The end of a full training -/

theorem onlyMemch_chTrained (n e : Nat) (r : ChannelResult) (s : State) : OnlyMemch s (chTrained n e r s) := onlyMemch_modCh ..

/-- What the end of a full training makes of the memory. -/
theorem trainResults_eq (m : BitVec 8) (e rate : Nat) (st : Bool) (l : List (List ChannelResult)) (s : State) :
    ∃ x c, (trainResults m e rate st l s).2 = { dramLost s with memch := x, memc := c } ∧ c.train = s.memc.train ∧
      c.rate = BitVec.ofNat 16 (runAttempts m e rate (if st then (lowerRates rate).take 4 else []) l).1 := by
  unfold trainResults
  generalize runAttempts m e rate (if st then (lowerRates rate).take 4 else []) l = q
  obtain ⟨q1, q2, q3⟩ := q
  obtain ⟨x, ex⟩ := onlyMemch_forEach (fun n => onlyMemch_chTrained n e (q3.getD n ChannelResult.none)) (maskList m) s
  dsimp only
  rw [ex]
  exact ⟨x, _, rfl, rfl, rfl⟩

/-- A named channel takes the verdict of the last attempt. -/
theorem trainResults_channel {m : BitVec 8} (e rate : Nat) (st : Bool) (l : List (List ChannelResult)) (s : State)
    {n : Fin 8} (hn : m.getLsbD n.val = true) :
    let c := (runAttempts m e rate (if st then (lowerRates rate).take 4 else []) l).2.2.getD n.val ChannelResult.none
    let d := chOf (trainResults m e rate st l s).2 n.val
    d.trained = chPasses c ∧ d.busy = false ∧ d.verdict = (if !chPasses c then 2 else if chNarrow e c then 1 else 0) := by
  unfold trainResults
  generalize runAttempts m e rate (if st then (lowerRates rate).take 4 else []) l = q
  obtain ⟨q1, q2, q3⟩ := q
  refine forEach_settles (f := fun n => chTrained n e (q3.getD n ChannelResult.none))
    (P := fun s => (chOf s n.val).trained = chPasses (q3.getD n.val ChannelResult.none) ∧ (chOf s n.val).busy = false ∧
      (chOf s n.val).verdict = (if !chPasses (q3.getD n.val ChannelResult.none) then 2 else
        if chNarrow e (q3.getD n.val ChannelResult.none) then 1 else 0)) (fun s => ?_) (fun k s hs => ?_) (mem_maskList.2 hn) s
  · rw [chTrained, chOf_modCh_same n.isLt]
    exact ⟨rfl, rfl, rfl⟩
  · by_cases h : n.val = k
    · subst h
      rw [chTrained, chOf_modCh_same n.isLt]
      exact ⟨rfl, rfl, rfl⟩
    · rwa [chTrained, chOf_modCh_ne h]


@[simp] theorem chOf_reply (h : Hdr) (op : Nat) (st : BitVec 16) (ws : List Word) (s : State) (n : Nat) :
    chOf (reply h op st ws s) n = chOf s n := by
  simp only [chOf, reply_memch]

/-- The result words read the controller and the channels alone. -/
theorem trainWords_reply (h : Hdr) (op : Nat) (st : BitVec 16) (ws : List Word) (m : BitVec 8) (n : Nat) (s : State) :
    trainWords (reply h op st ws s) m n = trainWords s m n := by
  unfold trainWords
  simp only [reply_memc, chOf_reply]

/-- The oldest full training ends with its results. -/
theorem trainEnd_of_found {l : List (List ChannelResult)} {s : State} {r : TrainRun} (hp : s.dev.phase = .ready)
    (hf : s.memc.train.find? (fun x => x.full) = some r) :
    let q := trainResults r.mask r.eyeMin r.rate r.steps l s
    let t := modMemc (fun m => { m with train := m.train.erase r }) q.2
    trainEnd l s = reply r.hdr 0x40 stOk (trainWords t r.mask q.1) t := by
  unfold trainEnd
  rw [if_neg (by simp [hp]), hf]

/-- The training of startup ends by asking for the calibration of housekeeping. -/
theorem trainEnd_of_startup {l : List (List ChannelResult)} {s : State} (hp : s.dev.phase = .train) :
    trainEnd l s = hkAsk none (modDev (fun d => { d with phase := .hkcal })
      (trainResults 0xFF 16 (startupRate s.dev.maxMts.toNat) true l s).2) := by
  unfold trainEnd
  rw [if_pos hp]

theorem trainResults_attempts (m : BitVec 8) (e rate : Nat) (st : Bool) (l : List (List ChannelResult)) (s : State) :
    (trainResults m e rate st l s).1 = (runAttempts m e rate (if st then (lowerRates rate).take 4 else []) l).2.1 := rfl

/-- Settles O29: each mode writes its run and its channels, and the end of a training the results of its last attempt. -/
theorem fullTrainingRuns : Obligations.FullTrainingRuns := by
  refine ⟨fun h m eye mts per s hp hm hb => ⟨fun ha hs hw => ⟨_, rfl, ?_⟩, fun hu => ⟨_, rfl, ?_⟩, fun hu _ => ⟨_, rfl, ?_⟩⟩,
    fun a b l s => ⟨fun r hp hf => ⟨_, rfl, ?_⟩, fun hp => ⟨_, rfl, ?_⟩⟩⟩
  · rw [memTrain_full h eye mts per hp hb ha]
    exact trainStart_eqs hm hs hw
  · obtain ⟨rate, steps, e⟩ := memTrain_incr h eye mts per hp hb hu
    rw [e]
    refine ⟨?_, ?_, ?_, fun n hn => setBusy_busy true hn _⟩ <;> obtain ⟨x, ex⟩ := onlyMemch_setBusy m true _ <;> rw [ex]
    · rfl
    · rfl
    · exact ⟨_, rfl, rfl, rfl, rfl, rfl, rfl⟩
  · obtain ⟨x, c, e, hmask, hper⟩ := memTrain_periodic h eye mts per hp hb hu
    rw [e, reply_dram, reply_memc]
    exact ⟨rfl, reply_cmdq_congr (by rfl) (by rfl) h 0x40 stOk [], hmask, hper⟩
  · rw [trainEnd_of_found hp hf]
    obtain ⟨x, c, ex, htrain, hrate⟩ := trainResults_eq r.mask r.eyeMin r.rate r.steps (a :: b :: l) s
    have hch n := trainResults_channel (m := r.mask) r.eyeMin r.rate r.steps (a :: b :: l) s (n := n)
    rw [ex] at hch ⊢
    rw [trainWords_reply, trainResults_attempts, reply_memc, reply_dram]
    refine ⟨?_, ?_, rfl, reply_cmdq_congr (by rfl) (by rfl) _ _ _ _, ?_⟩
    · rw [modMemc_memc, htrain]
    · rw [modMemc_memc, hrate]
    · intro n hn
      simp only [chOf_reply]
      exact hch n hn
  · rw [trainEnd_of_startup hp]
    obtain ⟨x, c, ex, -⟩ := trainResults_eq 0xFF 16 (startupRate s.dev.maxMts.toNat) true (a :: b :: l) s
    rw [ex]
    exact ⟨rfl, rfl, rfl⟩

end Sys2Proof.Proofs
end

section
/-! PROOFS. MEM_DIAG and the end of its run (11 R276, R277). -/
namespace Sys2Proof.Proofs

open Sys2Proof Sys2Proof.Machine Sys2Proof.Laws

/-! ### The accesses of a diagnosis -/

theorem onlyPorts_loop {α : Type} {f : α → State → State} (h : ∀ a s, OnlyPorts s (f a s)) (l : List α) (s : State) :
    OnlyPorts s (forEach l f s) :=
  forEach_invariant (P := OnlyPorts s) (fun a t ht => ht.trans (h a t)) l s (OnlyPorts.refl s)

theorem onlyPorts_diagLine (k : LineKind) (d : Nat) (s : State) : OnlyPorts s (diagLine k [] d s) :=
  (onlyPorts_takeCredit 11 1 s).trans (onlyPorts_accessLine 11 (d / 64) k [] _ (fun _ h => absurd h List.not_mem_nil))

/-- The two states differ in the ports of the controller, the channels and the bytes of DRAM at most. -/
def OnlyScanned (s t : State) : Prop := ∃ p c d, t = { setPorts p c s with dram := d }

theorem OnlyScanned.refl (s : State) : OnlyScanned s s := ⟨s.memc.ports, s.memch, s.dram, rfl⟩

theorem OnlyScanned.trans {s t u : State} (a : OnlyScanned s t) (b : OnlyScanned t u) : OnlyScanned s u := by
  obtain ⟨p, c, d, rfl⟩ := a
  obtain ⟨p', c', d', rfl⟩ := b
  exact ⟨p', c', d', rfl⟩

theorem onlyScanned_of_onlyPorts {s t : State} (h : OnlyPorts s t) : OnlyScanned s t := by
  obtain ⟨p, c, rfl⟩ := h
  exact ⟨p, c, s.dram, rfl⟩

theorem onlyScanned_loop {α : Type} {f : α → State → State} (h : ∀ a s, OnlyScanned s (f a s)) (l : List α) (s : State) :
    OnlyScanned s (forEach l f s) :=
  forEach_invariant (P := OnlyScanned s) (fun a t ht => ht.trans (h a t)) l s (OnlyScanned.refl s)

theorem onlyScanned_dramPut (a : Nat) (bs : List Byte) (s : State) : OnlyScanned s (dramPut a bs s) :=
  ⟨s.memc.ports, s.memch, _, rfl⟩

theorem onlyScanned_diagPut (a : Nat) (bs : List Byte) (s : State) : OnlyScanned s (diagPut a bs s) :=
  (onlyScanned_of_onlyPorts (onlyPorts_diagLine .full a s)).trans (onlyScanned_dramPut a bs _)

theorem onlyScanned_scanPass (r : DiagRun) (p : Nat) (s : State) : OnlyScanned s (scanPass s r p) := by
  unfold scanPass
  generalize diagContent s r p = l
  exact (onlyScanned_loop (f := fun (x : Nat × List Byte) => diagPut x.1 x.2) (fun x => onlyScanned_diagPut x.1 x.2) l s).trans
    (onlyScanned_of_onlyPorts (onlyPorts_loop (f := fun (x : Nat × List Byte) => diagLine .read [] x.1) (fun x => onlyPorts_diagLine .read x.1) l _))

/-- A FILL changes DRAM as its writes alone do. -/
theorem forEach_diagPut (g : Nat → List Byte) (l : List Nat) (s : State) : ∃ p c,
    forEach l (fun d s => diagPut d (g d) s) s = setPorts p c (forEach l (fun d s => dramPut d (g d) s) s) := by
  induction l generalizing s with
  | nil => exact ⟨s.memc.ports, s.memch, rfl⟩
  | cons d l ih =>
    obtain ⟨p, c, e⟩ := onlyPorts_diagLine .full d s
    have hput (l : List Nat) (s : State) : forEach l (fun d s => dramPut d (g d) s) (setPorts p c s) =
        setPorts p c (forEach l (fun d s => dramPut d (g d) s) s) := by
      induction l generalizing s with
      | nil => rfl
      | cons d l ih => exact ih (dramPut d (g d) s)
    obtain ⟨p', c', e'⟩ := ih (diagPut d (g d) s)
    have ed : diagPut d (g d) s = setPorts p c (dramPut d (g d) s) := by
      unfold diagPut
      rw [e]
      rfl
    have el := (congrArg (forEach l fun d s => dramPut d (g d) s) ed).trans (hput l (dramPut d (g d) s))
    exact ⟨p', c', (e'.trans (congrArg (setPorts p' c') el)).trans rfl⟩

/-! ### What a run counts -/

@[simp] theorem hitsAt_nil (p d : Nat) : hitsAt [] p d = [] := rfl

/-- A line with no check failed counts as accessed alone. -/
theorem countLine_nil (c : DiagCount) (d : Nat) : c.line [] d = { c with lines := c.lines + 1 } := rfl

theorem foldl_countLine (l : List (Nat × Nat)) (c : DiagCount) :
    l.foldl (fun c x => c.line (hitsAt [] x.1 x.2) x.2) c = { c with lines := c.lines + l.length } := by
  induction l generalizing c with
  | nil => rfl
  | cons x l ih =>
    rw [List.foldl_cons, hitsAt_nil, countLine_nil, ih, List.length_cons]
    simp only [Nat.add_assoc, Nat.add_comm 1]

theorem readLines_nil (l : List (Nat × Nat)) (c : DiagCount) (s : State) :
    ∃ p m, readLines [] l c s = ({ c with lines := c.lines + l.length }, false, setPorts p m s) := by
  induction l generalizing c s with
  | nil => exact ⟨s.memc.ports, s.memch, rfl⟩
  | cons x l ih =>
    obtain ⟨p, m, e⟩ := onlyPorts_diagLine .read x.2 s
    obtain ⟨p', m', e'⟩ := ih { c with lines := c.lines + 1 } (setPorts p m s)
    refine ⟨p', m', ?_⟩
    unfold readLines
    dsimp only
    rw [hitsAt_nil, countLine_nil, e, if_neg (by simp)]
    refine e'.trans ?_
    rw [List.length_cons]
    simp only [Nat.add_assoc, Nat.add_comm 1]
    rfl

theorem diagOrder_length (r : DiagRun) (ds : List Nat) : (diagOrder r ds).length = r.passes * ds.length := by
  simp [diagOrder, List.length_flatMap]

/-! ### The reply of a run -/

/-- A run without a failure replies with its lines and leaves its channels idle. -/
theorem diagReply_of_clean {r : DiagRun} {l : List DiagRun} (st : BitVec 16) (n : Nat) {s : State} (h : s.memc.diag = r :: l) :
    let t := diagReply r st { DiagCount.zero with lines := n } s
    t.memc.diag = l ∧ t.cmdq = (reply r.hdr 0x41 st
      [word (clampNat n 0xFFFFFFFF), 0, 0, 0, 0xFFFFFFFF, 0xFFFFFFFF, 0] s).cmdq ∧ t.dram = s.dram ∧
      ∀ n : Fin 8, r.mask.getLsbD n.val = true → (chOf t n.val).busy = false := by
  intro t
  obtain ⟨x, ex⟩ := onlyMemch_setBusy r.mask false (modMemc (fun x => { x with diag := x.diag.erase r }) s)
  have e : t = reply r.hdr 0x41 st [word (clampNat n 0xFFFFFFFF), 0, 0, 0, 0xFFFFFFFF, 0xFFFFFFFF, 0]
      (setBusy r.mask false (modMemc (fun x => { x with diag := x.diag.erase r }) s)) := by
    simp only [t, diagReply, DiagCount.zero]
    congr 2
    simp only [List.head?_nil, List.length_nil, ite_self, List.map_nil, List.foldl_nil]
    decide
  rw [e]
  refine ⟨?_, ?_, ?_, fun n hn => ?_⟩
  · rw [reply_memc, ex]
    show s.memc.diag.erase r = l
    rw [h, List.erase_cons_head]
  · rw [ex]
    exact reply_cmdq_congr (by rfl) (by rfl) _ _ _ _
  · rw [reply_dram, ex]
    rfl
  · rw [chOf_reply]
    exact setBusy_busy false hn _

/-- MEM_DIAG on trained idle channels within the capacity notes its run and makes them busy. -/
theorem memDiag_of_idle (h : Hdr) (mode pat : BitVec 2) (inv : Bool) (passes : BitVec 8) {mask : BitVec 8}
    {start len : BitVec 64} (seed : Word) {s : State} (hp : s.dev.power = .parked) (hu : chUntrained s mask = false)
    (hb : chBusy s mask = false) (hc : start.toNat + len.toNat ≤ capacity s) : ∃ x d,
    memDiag h mode pat inv passes mask start len seed s = { counted s with memch := x, memc := { s.memc with
      diagServed := d, diag := s.memc.diag ++ [{
        hdr := h, mode, pattern := pat, invertAlt := inv, passes := if mode = 2 then 1 else passes.toNat, mask,
        start := start.toNat, length := len.toNat, seed }] } } ∧
      ∀ n : Fin 8, mask.getLsbD n.val = true → (vget x n.val Memch.reset).busy = true := by
  have hp' : (counted s).dev.power = .parked := hp
  have hb' : chBusy (counted s) mask = false := hb
  have hu' : chUntrained (counted s) mask = false := hu
  have hc' : ¬ capacity (counted s) < start.toNat + len.toNat := Nat.not_lt.2 hc
  unfold memDiag
  rw [runAtTick_of_running (.inl hp), if_neg (by simp [hp']), if_neg (by simp [hu']), if_neg (by simp [hb']), if_neg hc']
  extract_lets r s'
  let mark (c : Memch) : Memch := { c with
    busy := true, pattern := pat, invertAlt := inv, seed := if mode = 0 && pat = 0 then word (prbsSeed seed) else c.seed,
    cmpErr := Vector.replicate 24 0, cmpAddr := BitVec.allOnes 64, cmpLanes := 0, cmpWord := 0, cmpExp := 0,
    cmpAct := 0 }
  have hbusy (n : Fin 8) (hn : mask.getLsbD n.val = true) :=
    forEach_modCh_settles (f := fun _ => mark) (P := fun c => c.busy = true) n.isLt (fun _ => rfl) (mem_maskList.2 hn) s'
  obtain ⟨x, ex⟩ := onlyMemch_forEach (f := fun n => modCh n mark) (fun n => onlyMemch_modCh n mark) (maskList mask) s'
  rw [ex] at hbusy
  exact ⟨x, s.memc.diagServed || s.memc.frozen, ex, hbusy⟩

/-- A run that fills changes DRAM as its writes do; one that reads, not at all; each replies with its lines. -/
theorem diagEnd_of_clean {s : State} {r : DiagRun} {l : List DiagRun} (hs : s.memc.diag = r :: l) :
    ∃ t, OnlyScanned s t ∧ diagEnd [] [] s =
        diagReply r stOk { DiagCount.zero with lines := r.passes * (diagLines s r).length } t ∧
      (r.mode = 1 → t.dram = s.dram) ∧
      (r.mode = 2 → t.dram = (forEach (diagLines s r)
        (fun d s => dramPut d ((List.range 16).flatMap fun _ => leBytes 4 r.seed.toNat) s) s).dram) := by
  unfold diagEnd
  rw [hs]
  dsimp only
  split
  · next h =>
    have hf : (diagOrder r (diagLines s r)).filterMap (fun x => ([] : List LineFail).find? fun f =>
        f.pass = x.1 && f.d = x.2) = [] := by
      rw [List.filterMap_eq_nil_iff]
      intro x _
      rfl
    refine ⟨forEach (List.range r.passes) (fun p s => scanPass s r p) s,
      onlyScanned_loop (fun p s => onlyScanned_scanPass r p s) _ s, ?_, fun e => ?_, fun e => ?_⟩
    · rw [hf, foldl_countLine, diagOrder_length]
      simp [forEach, DiagCount.zero]
    · simp [e] at h
    · simp [e] at h
  · next h =>
    obtain ⟨p, m, e⟩ := readLines_nil (diagOrder r (diagLines s r)) DiagCount.zero s
    rw [e, diagOrder_length]
    refine ⟨setPorts p m s, ⟨p, m, s.dram, rfl⟩, ?_, fun _ => rfl, fun e => ?_⟩
    · simp [DiagCount.zero]
    · simp [e] at h
  · next h0 h1 =>
    obtain ⟨p, c, e⟩ := forEach_diagPut (fun _ => (List.range 16).flatMap fun _ => leBytes 4 r.seed.toNat) (diagLines s r) s
    rw [diagOrder_length]
    refine ⟨_, onlyScanned_loop (f := fun d s => diagPut d ((List.range 16).flatMap fun _ => leBytes 4 r.seed.toNat) s)
      (fun d s => onlyScanned_diagPut d _ s) (diagLines s r) s, rfl, fun e => ?_, fun _ => by rw [e]; rfl⟩
    simp [e] at h1

/-- Settles O30: a run changes ports, channels and, unless it only reads, DRAM before its reply is formed. -/
theorem diagnosisRuns : Obligations.DiagnosisRuns := by
  refine ⟨fun h mode pat inv passes mask start len seed s hp hu hb hc => ⟨_, rfl, ?_⟩, fun s r l hs => ⟨_, rfl, ?_⟩⟩
  · obtain ⟨x, d, e, hbusy⟩ := memDiag_of_idle h mode pat inv passes seed hp hu hb hc
    rw [e]
    exact ⟨rfl, rfl, hbusy⟩
  · obtain ⟨t, ⟨p, c, d, rfl⟩, e, hread, hfill⟩ := diagEnd_of_clean hs
    obtain ⟨hdiag, hcmdq, hdram, hbusy⟩ := diagReply_of_clean stOk (r.passes * (diagLines s r).length)
      (r := r) (l := l) (s := { setPorts p c s with dram := d }) hs
    rw [e]
    exact ⟨hdiag, hcmdq.trans (reply_cmdq_congr (by rfl) (by rfl) _ _ _ _), fun h => hdram.trans (hread h),
      fun h => hdram.trans (hfill h), hbusy⟩

end Sys2Proof.Proofs
end

section
/-! PROOFS. A freeze of the memory controller and its end (10 R260, R261; 11 R263, R278). -/
namespace Sys2Proof.Proofs

open Sys2Proof Sys2Proof.Machine Sys2Proof.Laws

/-! ### What a freeze leaves to be read -/

section
variable {β : Type} {g : State → β}

theorem undoWrites_only (hg : BlindDram g) (s : State) : g (undoWrites s) = g s := by
  have hfold (l : List (Nat × List Byte)) (t : State) :
      g (l.foldl (fun s p => if Config.reached s.free p.1 then s else dramPut p.1 p.2 s) t) = g t := by
    refine forEach_keeps (f := fun p s => if Config.reached s.free p.1 then s else dramPut p.1 p.2 s) (fun p s => ?_) l t
    split
    · rfl
    · exact dramPut_only hg p.1 p.2 s
  unfold undoWrites
  extract_lets t
  exact (hg t t.dram (modMemc (fun m => { m with undo := [] }) t).memc (t.free + 1)).trans (hfold s.memc.undo s)

theorem cutHost_only (ho : BlindOut g) (hm : ∀ f s, g (modMemc f s) = g s) (s : State) : g (cutHost s) = g s := by
  unfold cutHost
  exact (forEach_keeps (fun r s => ho s _) _ _).trans (hm _ s)

theorem cutSaves_only (hp : BlindPost g) (hc : ∀ f s, g (modCfg f s) = g s) (hd : ∀ s d n, g { s with dram := d, free := n } = g s)
    (s : State) : g (cutSaves s) = g s := by
  unfold cutSaves
  exact (forEach_keeps (fun p s => (reply_only hp ..).trans (hd s _ _)) _ _).trans (hc _ s)

end

theorem raiseErrs_freezeNext (l : List ErrRec) (s : State) : (raiseErrs l s).err.freezeNext = s.err.freezeNext := by
  unfold raiseErrs
  split
  · rfl
  · refine forEach_keeps (g := fun s => s.err.freezeNext) (fun r s => ?_) _ s
    unfold raiseOne
    dsimp only
    split
    · rfl
    · rw [logCapture_only (g := fun s => s.err.freezeNext) (fun _ _ => rfl),
        sendVector_only (g := fun s => s.err.freezeNext) (fun _ _ => rfl) (fun _ _ => rfl)]
      rfl

/-- The controller once it has frozen, with what it had. -/
def frozenMemc (cause channel port syndrome wordIx addr : Nat) (s : State) : Memc :=
  { (cutHost (undoWrites s)).memc with
    frozen := true, diagServed := false, frzCause := BitVec.ofNat 2 cause, frzChannel := BitVec.ofNat 3 channel,
    frzPort := BitVec.ofNat 4 port, frzSyndrome := BitVec.ofNat 8 syndrome, frzWord := BitVec.ofNat 3 wordIx,
    frzSfn := s.tick.sfn, frzAddr := BitVec.ofNat 64 addr, frzTrace := (chOf s channel).trace, sweeping := none }

/-- The channels once the controller has frozen: the one that froze it is marked. -/
def frozenMemch (channel : Nat) (v : Vector Memch 8) : Vector Memch 8 :=
  Vector.ofFn fun i => { v[i] with freezeSrc := decide (i.val = channel) }

theorem cutHost_reqs (s : State) : (cutHost s).memc.reqs = [] := by
  unfold cutHost
  refine (forEach_keeps (g := fun s => s.memc.reqs) ?_ _ _).trans ?_
  · exact fun _ _ => rfl
  · rfl

@[simp] theorem frozenMemc_reqs (cause channel port syndrome wordIx addr : Nat) (s : State) :
    (frozenMemc cause channel port syndrome wordIx addr s).reqs = [] := cutHost_reqs _

/-- The first freeze condition captures its cause, and asks for FROZEN at the next tick. -/
theorem memFreeze_of_running (cause channel port syndrome wordIx addr : Nat) {s : State} (hf : s.memc.frozen = false) :
    let t := memFreeze cause channel port syndrome wordIx addr s
    t.memc = frozenMemc cause channel port syndrome wordIx addr s ∧ t.memch = frozenMemch channel s.memch ∧
      t.err.freezeNext = (if s.err.freezeNext = 0 then 1 else s.err.freezeNext) := by
  have hmemch : (cutHost (undoWrites s)).memch = s.memch :=
    (cutHost_only (g := fun s => s.memch) (fun _ _ => rfl) (fun _ _ => rfl) _).trans
      (undoWrites_only (g := fun s => s.memch) (fun _ _ _ _ => rfl) s)
  have hsfn : (cutHost (undoWrites s)).tick = s.tick :=
    (cutHost_only (g := fun s => s.tick) (fun _ _ => rfl) (fun _ _ => rfl) _).trans
      (undoWrites_only (g := fun s => s.tick) (fun _ _ _ _ => rfl) s)
  have herr : (cutHost (undoWrites s)).err = s.err :=
    (cutHost_only (g := fun s => s.err) (fun _ _ => rfl) (fun _ _ => rfl) _).trans
      (undoWrites_only (g := fun s => s.err) (fun _ _ _ _ => rfl) s)
  unfold memFreeze
  rw [if_neg (by simp [hf])]
  extract_lets s₁ s₂ mark s₃ t
  have h₃ : s₃.memc = frozenMemc cause channel port syndrome wordIx addr s := by
    show s₂.memc = _
    simp only [s₂, modMemc_memc, frozenMemc, s₁, hsfn, chOf, hmemch]
  have h₃' : s₃.memch = frozenMemch channel s.memch := by
    rw [← hmemch]
    rfl
  refine ⟨?_, ?_, ?_⟩
  · refine (cutSaves_only (g := fun s => s.memc) (fun _ _ _ _ => rfl) (fun _ _ => rfl) (fun _ _ _ => rfl) _).trans ?_
    rw [raiseErr_memc, h₃]
  · refine (cutSaves_only (g := fun s => s.memch) (fun _ _ _ _ => rfl) (fun _ _ => rfl) (fun _ _ _ => rfl) _).trans ?_
    rw [raiseErr_memch, h₃']
  · have e : (cutSaves (raiseErr (mkErr 0 1 channel port (frzCauseWord s₃.memc)) s₃)).err.freezeNext = s.err.freezeNext := by
      refine (cutSaves_only (g := fun s => s.err.freezeNext) (fun _ _ _ _ => rfl) (fun _ _ => rfl) (fun _ _ _ => rfl) _).trans ?_
      refine (raiseErrs_freezeNext _ _).trans ?_
      exact congrArg Err.freezeNext herr
    show (if _ then _ else _) = _
    rw [e]
    rfl

/-! ### MEM_RESUME -/

theorem fillCredits_memc {s : State} {b : Bank} (hb : activeSet s = some b) : (fillCredits s).memc = { s.memc with
    ports := Vector.ofFn fun i => { s.memc.ports[i] with credit := (regBurst b i.val * 1000 : Nat) } } := by
  unfold fillCredits
  rw [hb]
  rfl

theorem fillCredits_eq (s : State) : ∃ p, fillCredits s = { s with memc := { s.memc with ports := p } } := by
  unfold fillCredits
  split
  · exact ⟨s.memc.ports, rfl⟩
  · exact ⟨_, rfl⟩

/-- With no index entry waiting the end of a freeze writes none. -/
theorem writeIndex_of_none {b : Bank} {s : State} (h : s.hold.indexDue = []) : writeIndex b s = s := by
  unfold writeIndex
  rw [h]
  split
  · show { s with hold := { s.hold with indexDue := [] } } = s
    rw [← h]
  · rfl

/-- The service restored: every credit is full under a set. -/
theorem memUnfreeze_eq {s : State} (h : s.hold.indexDue = []) : ∃ p c,
    memUnfreeze s = { s with memch := c, memc := { s.memc with frozen := false, diagServed := false, ports := p } } ∧
      ∀ (b : Bank) (i : Fin 12), activeSet s = some b → p[i].credit = (regBurst b i.val * 1000 : Nat) := by
  unfold memUnfreeze
  extract_lets clear s₁ s₂
  obtain ⟨p, e⟩ := fillCredits_eq { s₁ with memch := Vector.ofFn fun i => clear s₁.memch[i] }
  have hp (b : Bank) (hb : activeSet s = some b) (i : Fin 12) : p[i].credit = (regBurst b i.val * 1000 : Nat) := by
    have hm := fillCredits_memc (s := { s₁ with memch := Vector.ofFn fun i => clear s₁.memch[i] }) (b := b) hb
    rw [e] at hm
    have hports := congrArg Memc.ports hm
    dsimp only at hports
    rw [hports]
    simp
  refine ⟨p, Vector.ofFn fun i => clear s₁.memch[i], ?_, fun b i hb => hp b hb i⟩
  split
  · rw [writeIndex_of_none (by show (fillCredits _).hold.indexDue = []; rw [e]; exact h)]
    exact e
  · exact e

/-- MEM_RESUME MODE 1 restores the service and parks the device. -/
theorem memResume_of_frozen (h : Hdr) {s : State} (hp : s.dev.power = .frozen) (hf : s.memc.frozen = true)
    (hc : s.err.frozenCause = 1) (ht : ∀ n : Fin 8, (chOf s n.val).trained = true) (htr : s.memc.train = [])
    (hd : s.memc.diag = []) (hi : s.hold.indexDue = []) : ∃ p c,
    memResume h true s = reply h 0x42 stOk [] { counted s with
      memch := c, memc := { s.memc with frozen := false, diagServed := false, ports := p },
      dev := { s.dev with power := .parked }, err := { s.err with frozenCause := 0 } } ∧
      ∀ (b : Bank) (i : Fin 12), activeSet s = some b → p[i].credit = (regBurst b i.val * 1000 : Nat) := by
  obtain ⟨p, c, e, hp'⟩ := memUnfreeze_eq (s := counted s) hi
  refine ⟨p, c, ?_, hp'⟩
  have hun : ((List.range 8).any fun n => !(chOf (counted s) n).trained) = false := by
    rw [List.any_eq_false]
    intro n hn
    have := ht ⟨n, List.mem_range.1 hn⟩
    simp [show chOf (counted s) n = chOf s n from rfl, this]
  have hfr : (counted s).memc.frozen = true := hf
  have hca : (counted s).err.frozenCause = 1 := hc
  have htn : (counted s).memc.train = [] := htr
  have hdn : (counted s).memc.diag = [] := hd
  unfold memResume
  rw [runAtTick_of_free (by simp [hp]) (by rfl), if_neg (by simp [hfr, hca]), if_neg (by rw [hun]; simp),
    if_neg (by simp [htn, hdn])]
  dsimp only
  rw [e, if_pos (by exact hp)]
  rfl

/-- Settles O31: a freeze and its end are each one write of the controller, the channels and the error block. -/
theorem memoryFreezesAndResumes : Obligations.MemoryFreezesAndResumes := by
  refine ⟨fun h s hp hf hc ht htr hd hi => ⟨_, rfl, ?_⟩, fun ch s => ⟨fun hf => ⟨_, rfl, ?_⟩, fun hf => ?_⟩⟩
  · obtain ⟨p, c, e, hcredit⟩ := memResume_of_frozen h hp hf hc ht htr hd hi
    obtain ⟨k, ek⟩ := noteEntry_onlyKeep s.dev.power (memResume h true s)
    have htick : (noteEntry s.dev.power (memResume h true s)).tick = s.tick := by
      rw [ek, e]
      exact reply_tick ..
    rw [if_neg (by rw [htick]; simp), ek, e]
    refine ⟨?_, ?_, ?_, ?_, ?_, fun b p hb => ?_⟩
    · rw [reply_memc]
    · rw [reply_dev]
    · rw [reply_err]
    · rw [reply_cfg]
      rfl
    · rw [reply_dram]
      rfl
    · rw [reply_memc]
      exact hcredit b p hb
  · obtain ⟨hmemc, hmemch, hnext⟩ := memFreeze_of_running 2 ch.val 15 0 0 0
      (s := modCh ch.val (fun c => { c with capar := satInc c.capar }) s) hf
    refine ⟨?_, ?_, ?_, ?_, ?_, ?_, fun h0 => ?_⟩
    · rw [chOf, hmemch]
      simp [frozenMemch, chOf, vget, modCh, vmod]
    · rw [hmemc]
      rfl
    · rw [hmemc]
      rfl
    · rw [hmemc]
      rfl
    · rw [hmemc]
      rfl
    · rw [hmemc, frozenMemc_reqs]
    · rw [hnext]
      exact if_pos h0
  · refine congrArg Host.Outcome.next ?_
    unfold memFreeze
    rw [if_pos (by exact hf)]
    rfl

end Sys2Proof.Proofs
end

section
/-! PROOFS. The sweep of one channel (11 R272, R273, R275). -/
namespace Sys2Proof.Proofs

open Sys2Proof Sys2Proof.Machine Sys2Proof.Laws

/-! ### A sweep starts and ends -/

/-- In PARKED the sweep of the channel next in the oldest INCR starts. -/
theorem sweepStart_of_parked {ch : Fin 8} {s : State} (hp : s.dev.power = .parked) (hs : s.memc.sweeping = none)
    (hn : incrNext s = some ch.val) : sweepStart ch.val s = modMemc (fun m => { m with
      sweeping := some ch, sweepPeriodic := false, sweptWindow := true, perSince := 0 }) s := by
  unfold sweepStart
  rw [if_neg (by simp [hs, sweepTime, hp]), if_pos hn]
  simp

theorem raiseErr_memch_chOf (e : ErrRec) (s : State) (n : Nat) : chOf (raiseErr e s) n = chOf s n := by
  simp only [chOf, raiseErr_memch]

/-- What a sweep found of its channel: the delays move if every run holds its centre, and stay if one does not. -/
theorem sweepJudge_channel (ch : Fin 8) (e : Nat) (rd wr : List LaneSweep) (s : State) :
    let c := chOf (sweepJudge ch.val e rd wr s) ch.val
    let held := (rd ++ wr).all holdsCentre
    c.trnSfn = s.tick.sfn ∧ c.lost = !held ∧
      c.rdDelay = (if held then recentred rd (chOf s ch.val).rdDelay else (chOf s ch.val).rdDelay) ∧
      c.wrDelay = (if held then recentred wr (chOf s ch.val).wrDelay else (chOf s ch.val).wrDelay) := by
  intro c held
  have hc : c = chOf (modCh ch.val (fun c => { c with
      rdMin := minEye (widths rd), wrMin := minEye (widths wr),
      eyeRd := eyes (rd.map sweepEye), eyeWr := eyes (wr.map sweepEye), clipped := (rd ++ wr).any clipped, lost := !held,
      lostSeen := c.lostSeen || !held, trnSfn := s.tick.sfn,
      verdict := if !held then c.verdict else if (widths (rd ++ wr)).any fun w => decide (w < e) then 1 else 0,
      rdDelay := if held then recentred rd c.rdDelay else c.rdDelay,
      wrDelay := if held then recentred wr c.wrDelay else c.wrDelay }) s) ch.val := by
    unfold c sweepJudge
    dsimp only
    split
    · exact raiseErr_memch_chOf ..
    · split
      · exact raiseErr_memch_chOf ..
      · rfl
  rw [hc, chOf_modCh_same ch.isLt]
  exact ⟨rfl, rfl, rfl, rfl⟩

theorem sweepJudge_memc (ch e : Nat) (rd wr : List LaneSweep) (s : State) : (sweepJudge ch e rd wr s).memc = s.memc := by
  unfold sweepJudge
  dsimp only
  split
  · exact raiseErr_memc ..
  · split
    · exact raiseErr_memc ..
    · rfl

/-- The delays and marks of a channel that setting it idle leaves. -/
theorem setBusy_keeps {β : Type} {f : Memch → β} (h : ∀ c v, f { c with busy := v } = f c) (m : BitVec 8) (v : Bool)
    (n : Fin 8) (s : State) : f (chOf (setBusy m v s) n.val) = f (chOf s n.val) := by
  refine forEach_keeps (g := fun s => f (chOf s n.val)) (fun k s => ?_) _ s
  by_cases e : n.val = k
  · subst e
    rw [chOf_modCh_same n.isLt, h]
  · rw [chOf_modCh_ne e]

/-- No sweep is under way in `t`, and it has the channel as `u` has it, but for its mark of a MEM_TRAIN. -/
def SweptAs (ch : Fin 8) (u t : State) : Prop :=
  t.memc.sweeping = none ∧
    ∀ {β : Type} {f : Memch → β}, (∀ c v, f { c with busy := v } = f c) → f (chOf t ch.val) = f (chOf u ch.val)

theorem sweptAs_self {ch : Fin 8} {u : State} (h : u.memc.sweeping = none) : SweptAs ch u u := ⟨h, fun _ => rfl⟩

theorem sweptAs_modMemc {ch : Fin 8} {u : State} {f : Memc → Memc} (h : (f u.memc).sweeping = none) :
    SweptAs ch u (modMemc f u) := ⟨h, fun _ => rfl⟩

theorem sweptAs_replied {ch : Fin 8} {u t : State} (h : SweptAs ch u t) (m : BitVec 8) (v : Bool) (x : Hdr) (op : Nat)
    (st : BitVec 16) (ws : List Word) : SweptAs ch u (reply x op st ws (setBusy m v t)) := by
  obtain ⟨hs, hf⟩ := h
  refine ⟨?_, fun hb => ?_⟩
  · rw [reply_memc]
    obtain ⟨y, ey⟩ := onlyMemch_setBusy m v t
    rw [ey]
    exact hs
  · rw [chOf_reply, setBusy_keeps hb]
    exact hf hb

/-- The end of a sweep is what it found, and beside that at most the bookkeeping of its INCR. -/
theorem sweepEnd_of_sweeping {ch : Fin 8} (rd wr : List LaneSweep) {s : State} (hs : s.memc.sweeping = some ch) :
    ∃ e, SweptAs ch (sweepJudge ch.val e rd wr (modMemc (fun m => { m with sweeping := none }) s))
      (sweepEnd ch.val rd wr s) := by
  unfold sweepEnd
  rw [if_neg (by simp [hs])]
  extract_lets run eyeMin per u
  have hu : u.memc.sweeping = none := by
    unfold u
    rw [sweepJudge_memc]
    rfl
  refine ⟨eyeMin, ?_⟩
  change SweptAs ch u _
  clear_value u eyeMin per run
  split
  · exact sweptAs_self hu
  · split
    · exact sweptAs_self hu
    · extract_lets left v
      split
      · exact sweptAs_modMemc hu
      · exact sweptAs_replied (sweptAs_modMemc hu) _ _ _ _ _ _

/-- Settles O32: a sweep's end is `sweepJudge` of its channel. -/
theorem channelSwept : Obligations.ChannelSwept := by
  refine ⟨fun ch s hp hs hn => congrArg Host.Outcome.next (sweepStart_of_parked hp hs hn), fun ch rd wr s hs => ⟨_, rfl, ?_⟩⟩
  obtain ⟨e, hsw, hch⟩ := sweepEnd_of_sweeping rd wr hs
  obtain ⟨htrn, hlost, hrd, hwr⟩ := sweepJudge_channel ch e rd wr (modMemc (fun m => { m with sweeping := none }) s)
  have hall (h : ∀ x ∈ rd ++ wr, holdsCentre x = true) : (rd ++ wr).all holdsCentre = true := List.all_eq_true.2 h
  have hnot (h : ∃ x ∈ rd ++ wr, holdsCentre x = false) : (rd ++ wr).all holdsCentre = false := by
    obtain ⟨x, hx, hf⟩ := h
    exact List.all_eq_false.2 ⟨x, hx, by simp [hf]⟩
  have trn := hch (f := Memch.trnSfn) fun _ _ => rfl
  have lost := hch (f := Memch.lost) fun _ _ => rfl
  have rdD := hch (f := Memch.rdDelay) fun _ _ => rfl
  have wrD := hch (f := Memch.wrDelay) fun _ _ => rfl
  refine ⟨hsw, (sweepEnd_kept ch.val rd wr s).2, trn.trans htrn, fun h => ?_, fun h => ?_⟩
  · rw [lost, rdD, wrD, hlost, hrd, hwr, hall h]
    exact ⟨rfl, rfl, rfl⟩
  · rw [lost, rdD, wrD, hlost, hrd, hwr, hnot h]
    exact ⟨rfl, rfl, rfl⟩

end Sys2Proof.Proofs
end

section
/-! PROOFS. Access requests and the masks of the address mapping (10 R245 to R250, R256, R260). -/
namespace Sys2Proof.Proofs

open Sys2Proof Sys2Proof.Machine Sys2Proof.Laws

/-! ### The masks -/

/-- Settles O34: the mask write follows the lock, the mask's goodness and its equality with the present one. -/
theorem hashMasks : Obligations.HashMasks := by
  intro i v s hf m
  have hv : vget s.memc.hash i.val 0 = s.memc.hash[i] := by simp [vget]
  have he : exec (.memcHashWrite i v) s = .next (hashWrite i.val v s) :=
    congrArg Host.Outcome.next (by simp [barAccess, hf])
  rw [he]
  unfold hashWrite
  rw [show BitVec.ofNat 30 v.toNat = m from rfl, hv]
  refine ⟨fun hl hg hne => ?_, fun hl hg heq => ?_, fun hl hb => ?_, fun hl => ?_⟩
  · rw [if_neg (by simp [hl]), if_neg (by simp [hg]), if_neg hne]
    rfl
  · rw [if_neg (by simp [hl]), if_neg (by simp [hg]), if_pos heq]
  · rw [if_neg (by simp [hl]), if_pos (by simp [hb])]
    rfl
  · rw [if_pos hl]
    rfl

/-! ### One request is issued -/

/-- The request leaves the queue, and its port is the one of its class served last. -/
def taken (q : PendReq) (s : State) : State :=
  modMemc (fun m => { m with
    reqs := m.reqs.erase q, lastPort := vset m.lastPort (portClass s q.req.port.val) q.req.port }) s

/-- The credit of a port, where it has one. -/
def creditOf (s : State) (p : Fin 12) : Int := s.memc.ports[p].credit

theorem creditOf_port (port : Nat) {f : ReqPort → ReqPort} (h : ∀ x, (f x).credit = x.credit) (p : Fin 12) (s : State) :
    creditOf (modMemc (fun m => { m with ports := vmod m.ports port f }) s) p = creditOf s p := by
  unfold creditOf
  rw [modMemc_memc]
  simp only [vmod]
  split
  · simp only [Fin.getElem_fin, Vector.getElem_set]
    split
    · next e => subst e; exact h _
    · rfl
  · rfl

/-- The commands of an access leave the credits. -/
theorem creditOf_accessLine (port line : Nat) (k : LineKind) {hits : List EccHit} (h : ∀ x ∈ hits, x.correctable = true)
    (p : Fin 12) (s : State) : creditOf (accessLine port line k hits s) p = creditOf s p := by
  have hn : (hits.find? fun x => !x.correctable) = none := by
    rw [List.find?_eq_none]
    intro x hx
    simp [h x hx]
  have ha : (hits.any fun x => !x.correctable) = false := by
    rw [List.any_eq_false]
    intro x hx
    simp [h x hx]
  have hecc (s : State) : creditOf (eccCheck line port hits s) p = creditOf s p := by
    unfold eccCheck
    rw [hn]
    dsimp only
    split <;> rfl
  refine Eq.trans ?_ (creditOf_port port (f := fun x => { x with linesNow := satAdd x.linesNow k.cost }) (fun _ => rfl) p s)
  cases k with
  | read => exact hecc _
  | full => rfl
  | masked => rfl
  | rmw =>
    unfold accessLine
    dsimp only
    rw [if_neg (by rw [ha]; simp)]
    exact hecc _

theorem creditOf_takeCredit (p : Fin 12) (cost : Nat) (s : State) : creditOf (takeCredit p.val cost s) p =
    if unlimited s p.val then creditOf s p else creditOf s p - (64000 * cost : Nat) := by
  unfold takeCredit
  split
  · rfl
  · simp [creditOf, vmod]

/-- A request none of whose words is uncorrectable moves its bytes once its commands are issued. -/
theorem issue_of_clean {q : PendReq} {hits : List EccHit} (s : State) (h : ∀ x ∈ q.hits ++ hits, x.correctable = true) :
    ∃ t, OnlyPorts (taken q s) t ∧
      creditOf t q.req.port = (if unlimited s q.req.port.val then creditOf s q.req.port
        else creditOf s q.req.port - (64000 * (kindOf q.req.data).cost : Nat)) ∧
      issue q hits s = match q.req.data with
        | none => if q.host then hostLine q.req.line t else t
        | some d => putLine q d t := by
  have ha : ((q.hits ++ hits).any fun x => !x.correctable) = false := by
    rw [List.any_eq_false]
    intro x hx
    simp [h x hx]
  have hports := (onlyPorts_takeCredit q.req.port.val (kindOf q.req.data).cost (taken q s)).trans
    (onlyPorts_accessLine q.req.port.val q.req.line (kindOf q.req.data) (q.hits ++ hits) _ h)
  refine ⟨accessLine q.req.port.val q.req.line (kindOf q.req.data) (q.hits ++ hits)
    (takeCredit q.req.port.val (kindOf q.req.data).cost (taken q s)), hports, ?_, ?_⟩
  · rw [creditOf_accessLine _ _ _ h, creditOf_takeCredit]
    rfl
  · have hfr : (accessLine q.req.port.val q.req.line (kindOf q.req.data) (q.hits ++ hits)
        (takeCredit q.req.port.val (kindOf q.req.data).cost (taken q s))).memc.frozen = s.memc.frozen := by
      obtain ⟨p, c, e⟩ := hports
      rw [e]
      rfl
    unfold issue
    extract_lets r port k hs cls t was u
    have hu : u.memc.frozen = s.memc.frozen := hfr
    have hwas : was = s.memc.frozen := by
      obtain ⟨p, c, e⟩ := onlyPorts_takeCredit q.req.port.val (kindOf q.req.data).cost (taken q s)
      exact congrArg (fun s => s.memc.frozen) e
    rw [if_neg (by rw [hu, hwas]; simp)]
    show (match q.req.data with
      | none => if q.host = true then hostLine q.req.line u else u
      | some d => if (decide (k = LineKind.rmw) && hs.any fun h => !h.correctable) = true then u else putLine q d u) = _
    split
    · rfl
    · rw [if_neg (by rw [show hs.any _ = false from ha]; simp)]
      rfl

/-! ### The request that is chosen -/

/-- Requests of a port that has one before them are not candidates. -/
theorem candidates10_of_same {q : PendReq} {seen l : List PendReq} (hq : q ∈ seen) (h : ∀ r ∈ l, r.req.port = q.req.port) :
    candidates10 seen l = [] := by
  induction l generalizing seen with
  | nil => rfl
  | cons r l ih =>
    have hr : (seen.any fun x => x.req.port = r.req.port || x.req.line = r.req.line) = true :=
      List.any_eq_true.2 ⟨q, hq, by simp [h r List.mem_cons_self]⟩
    simp only [candidates10, hr, if_true]
    exact ih (List.mem_append_left _ hq) fun x hx => h x (List.mem_cons_of_mem _ hx)

/-- With every request at one port the oldest is chosen, if the port is served and has credit for it. -/
theorem chooseReq_of_head {q : PendReq} {l : List PendReq} {s : State} (hr : s.memc.reqs = q :: l)
    (hl : ∀ r ∈ l, r.req.port = q.req.port) (hp : portServed s q.req.port.val = true) (hc : reqCredit s q.req = true) :
    chooseReq s = some q := by
  have hcand : candidates10 [] (q :: l) = [q] := by
    simp [candidates10, candidates10_of_same (seen := [q]) (List.mem_singleton_self q) hl]
  unfold chooseReq
  rw [hr, hcand]
  simp [hp, hc]

theorem onlyPorts_countWaits {s : State} (h : ∀ q ∈ s.memc.reqs, reqCredit s q.req = true) : ∃ p,
    countWaits s = setPorts p s.memch s ∧ ∀ i : Fin 12, p[i].credit = s.memc.ports[i].credit := by
  have hmap : s.memc.reqs.map (fun q => if (!q.req.waited && !reqCredit s q.req) = true then
      { q with req := { q.req with waited := true } } else q) = s.memc.reqs := by
    conv_rhs => rw [← List.map_id s.memc.reqs]
    refine List.map_congr_left fun q hq => ?_
    simp [h q hq]
  refine ⟨Vector.ofFn fun i => { s.memc.ports[i] with
    wait := satAdd s.memc.ports[i].wait (s.memc.reqs.filter fun q => q.req.port = i && (!q.req.waited && !reqCredit s q.req)).length },
    ?_, fun i => by simp⟩
  unfold countWaits modMemc setPorts
  dsimp only
  rw [hmap]

/-! ### An access request -/

/-- The request of a stage, as the controller holds it. -/
def stageReq (r : MemReq) (s : State) : PendReq :=
  { req := { r with waited := false }, host := false, touch := hostTouch s r, hits := [] }

/-- A request that a served port brings to an idle controller waits alone. -/
theorem arrive_of_idle {r : MemReq} {s : State} (hr : s.memc.reqs = []) (hp : portServed s r.port.val = true) :
    arrive r s = modMemc (fun m => { m with reqs := [stageReq r s] }) s := by
  have hf : (s.memc.frozen && !(r.port.val = 11 && s.memc.diagServed)) = false := by
    simp only [portServed, Bool.and_eq_true] at hp
    obtain ⟨⟨-, hfz⟩, -⟩ := hp
    cases hz : s.memc.frozen
    · rfl
    · simpa [hz] using hfz
  unfold arrive arriveReq
  rw [if_neg (by rw [hf]; simp)]
  dsimp only
  rw [if_neg (by simp [hr])]
  unfold modMemc
  dsimp only
  rw [hr]
  rfl

/-- A request alone at a served port with credit is issued. -/
theorem execMemAccessIssue_single {r : MemReq} (hits : List EccHit) {s : State} (hl : 64 * r.line < capacity s)
    (hr : s.memc.reqs = []) (hp : portServed s r.port.val = true) (hc : hasCredit s r.port.val (kindOf r.data).cost = true) :
    ∃ p : Vector ReqPort 12, (∀ i : Fin 12, p[i].credit = s.memc.ports[i].credit) ∧
      execMemAccessIssue [r] hits s = .next (pumpHost (issue (stageReq r s) hits
        (setPorts p s.memch (modMemc (fun m => { m with reqs := [stageReq r s] }) s)))) := by
  have hc' : reqCredit (modMemc (fun m => { m with reqs := [stageReq r s] }) s) (stageReq r s).req = true := hc
  obtain ⟨p, e, hcr⟩ := onlyPorts_countWaits (s := modMemc (fun m => { m with reqs := [stageReq r s] }) s)
    (fun q hq => by rw [List.mem_singleton.1 hq]; exact hc')
  refine ⟨p, hcr, ?_⟩
  have hcc : hasCredit (setPorts p s.memch (modMemc (fun m => { m with reqs := [stageReq r s] }) s)) r.port.val
      (kindOf r.data).cost = true := by
    refine Eq.trans ?_ hc
    have hv : (vget p r.port.val ReqPort.reset).credit = (vget s.memc.ports r.port.val ReqPort.reset).credit := by
      have := hcr r.port
      simpa [vget] using this
    show (unlimited s r.port.val || (activeSet s).any fun b =>
      decide (regRate b r.port.val ≠ 0) && decide ((min (64000 * (kindOf r.data).cost) (1000 * regBurst b r.port.val) : Nat) ≤
        (vget p r.port.val ReqPort.reset).credit)) = _
    rw [hv]
    rfl
  have hch := chooseReq_of_head (q := stageReq r s) (l := [])
    (s := setPorts p s.memch (modMemc (fun m => { m with reqs := [stageReq r s] }) s)) rfl (fun _ h => absurd h List.not_mem_nil)
    hp hcc
  unfold execMemAccessIssue
  rw [if_neg (by simp [Nat.not_le.2 hl])]
  dsimp only [forEach, List.foldl_cons, List.foldl_nil]
  rw [arrive_of_idle hr hp, e]
  rw [show (modMemc (fun m => { m with reqs := [stageReq r s] }) s).memch = s.memch from rfl, hch]

/-- What a write of a lane or an engine replaces is kept, and one of the host into a table in use leaves its mark. -/
theorem putLine_marks (q : PendReq) (s : State) : ∃ u k,
    (if q.touch then modTick (fun t => { t with tableTouch := true })
        (if q.req.port.val < 8 then modMemc (fun m => { m with
          undo := (List.range 8).map (fun w => (64 * q.req.line + 8 * w, dramHeld s (64 * q.req.line + 8 * w) 8)) ++ m.undo }) s else s)
      else if q.req.port.val < 8 then modMemc (fun m => { m with
        undo := (List.range 8).map (fun w => (64 * q.req.line + 8 * w, dramHeld s (64 * q.req.line + 8 * w) 8)) ++ m.undo }) s else s) =
      { s with memc := { s.memc with undo := u }, tick := { s.tick with tableTouch := k } } := by
  split <;> split
  · exact ⟨_, true, rfl⟩
  · exact ⟨s.memc.undo, true, rfl⟩
  · exact ⟨_, s.tick.tableTouch, rfl⟩
  · exact ⟨s.memc.undo, s.tick.tableTouch, rfl⟩

/-- The write of a request changes its enabled bytes, and beside them what a freeze would put back and TABLE_TOUCH. -/
theorem putLine_eq (q : PendReq) (d : List (Option Byte)) (s : State) : ∃ u k, putLine q d s = { s with
    memc := { s.memc with undo := u }, tick := { s.tick with tableTouch := k },
    dram := { s.dram with cells := writeEnabled (dramDflt s) s.dram.cells (64 * q.req.line) d } } := by
  obtain ⟨u, k, e⟩ := putLine_marks q s
  refine ⟨u, k, ?_⟩
  unfold putLine
  dsimp only
  rw [e]
  rfl

/-- A check that meets an uncorrectable word freezes the running controller at its line. -/
theorem eccCheck_of_bad {line port : Nat} {hits : List EccHit} {s : State} (h : ∃ x ∈ hits, x.correctable = false)
    (hf : s.memc.frozen = false) : (eccCheck line port hits s).memc.frozen = true ∧ (eccCheck line port hits s).memc.frzCause = 1 ∧
      (eccCheck line port hits s).memc.frzAddr = BitVec.ofNat 64 (64 * line) ∧ (eccCheck line port hits s).memc.reqs = [] := by
  obtain ⟨x, hx, hb⟩ := h
  obtain ⟨y, hy⟩ : ∃ y, (hits.find? fun x => !x.correctable) = some y := by
    rw [← Option.isSome_iff_exists, List.find?_isSome]
    exact ⟨x, hx, by simp [hb]⟩
  unfold eccCheck
  rw [hy]
  dsimp only
  obtain ⟨hm, -, -⟩ := memFreeze_of_running 1 (placeOf s line).channel port y.syndrome.toNat y.word.val (64 * line)
    (s := modCh (placeOf s line).channel
      (fun c => { c with uncorr := satAdd c.uncorr (hits.filter fun h => !h.correctable).length }) s) hf
  rw [hm]
  exact ⟨rfl, rfl, rfl, frozenMemc_reqs ..⟩

/-- A read issues its commands and then checks its words. -/
theorem accessLine_read (port line : Nat) (hits : List EccHit) (s : State) :
    ∃ t, OnlyPorts s t ∧ accessLine port line .read hits s = eccCheck line port hits t :=
  ⟨_, ((onlyPorts_port port (fun x => { x with linesNow := satAdd x.linesNow 1 }) s).trans
    (onlyPorts_traceCmd 1 (placeOf s line) port _)).trans (onlyPorts_traceCmd 2 (placeOf s line) port _), rfl⟩

/-- A read that meets an uncorrectable word freezes the running controller at its line. -/
theorem issue_read_of_bad {q : PendReq} {hits : List EccHit} {s : State} (hd : q.req.data = none) (hq : q.host = false)
    (hn : q.hits = []) (h : ∃ x ∈ hits, x.correctable = false) (hf : s.memc.frozen = false) :
    let t := issue q hits s
    t.memc.frozen = true ∧ t.memc.frzCause = 1 ∧ t.memc.frzAddr = BitVec.ofNat 64 (64 * q.req.line) ∧ t.memc.reqs = [] := by
  have htake := onlyPorts_takeCredit q.req.port.val 1 (taken q s)
  obtain ⟨u, hu, e⟩ := accessLine_read q.req.port.val q.req.line hits (takeCredit q.req.port.val 1 (taken q s))
  have hwas : (takeCredit q.req.port.val 1 (taken q s)).memc.frozen = false := by
    obtain ⟨p, c, et⟩ := htake
    rw [et]
    exact hf
  have hrun : u.memc.frozen = false := by
    obtain ⟨p, c, eu⟩ := hu
    rw [eu]
    exact hwas
  have hbad := eccCheck_of_bad (line := q.req.line) (port := q.req.port.val) h hrun
  have hi : issue q hits s = eccCheck q.req.line q.req.port.val hits u := by
    rw [← e] at hbad ⊢
    have hfr := hbad.1
    obtain ⟨⟨port, line, data, waited⟩, host, touch, qhits⟩ := q
    obtain rfl : data = none := hd
    obtain rfl : host = false := hq
    obtain rfl : qhits = [] := hn
    refine (if_pos ?_).trans (if_neg (by simp))
    exact Bool.and_eq_true_iff.2 ⟨hfr, (congrArg not hwas).trans rfl⟩
  rw [hi]
  exact hbad

/-- A request that waits alone, none of whose words is uncorrectable, is served. -/
theorem issue_of_alone {q : PendReq} {hits : List EccHit} {s : State} (hr : s.memc.reqs = [q]) (hq : q.host = false)
    (h : ∀ x ∈ q.hits ++ hits, x.correctable = true) : let t := pumpHost (issue q hits s)
    t.memc.reqs = [] ∧ t.cfg = s.cfg ∧ t.tiles = s.tiles ∧
      t.dram = { s.dram with cells := match q.req.data with
        | none => s.dram.cells
        | some d => writeEnabled (dramDflt s) s.dram.cells (64 * q.req.line) d } ∧
      creditOf t q.req.port = (if unlimited s q.req.port.val then creditOf s q.req.port
        else creditOf s q.req.port - (64000 * (kindOf q.req.data).cost : Nat)) := by
  obtain ⟨t, ⟨p, c, et⟩, hcred, hi⟩ := issue_of_clean s h
  have hreqs : t.memc.reqs = [] := by
    rw [et]
    show s.memc.reqs.erase q = []
    rw [hr]
    exact List.erase_cons_head ..
  have hcfg : t.cfg = s.cfg := by
    rw [et]
    rfl
  have htiles : t.tiles = s.tiles := by
    rw [et]
    rfl
  have hdram : t.dram = s.dram := by
    rw [et]
    rfl
  rw [hi]
  cases hd : q.req.data with
  | none =>
    rw [hd] at hcred
    dsimp only
    rw [if_neg (by simp [hq]), pumpHost_of_idle hreqs]
    exact ⟨hreqs, hcfg, htiles, hdram, hcred⟩
  | some d =>
    rw [hd] at hcred
    dsimp only
    obtain ⟨u, k, ep⟩ := putLine_eq q d t
    rw [ep, pumpHost_of_idle (by exact hreqs)]
    refine ⟨hreqs, hcfg, htiles, ?_, hcred⟩
    dsimp only
    rw [dramDflt, hdram]
    rfl

theorem cost_kindOf (d : Option (List (Option Byte))) : ((64000 * (kindOf d).cost : Nat) : Int) = (match d with
    | some d => if partialWord d then 128000 else 64000
    | none => 64000) := by
  cases d with
  | none => rfl
  | some d =>
    unfold kindOf
    dsimp only
    split
    · rfl
    · split <;> rfl

/-- Settles O33: the request waits alone, so it is chosen and issued, and a check that fails freezes. -/
theorem accessIssued : Obligations.AccessIssued := by
  intro r hits s hl hr hp hc
  obtain ⟨p, hcr, e⟩ := execMemAccessIssue_single hits hl hr hp hc
  have hw : ∃ w, w = setPorts p s.memch (modMemc (fun m => { m with reqs := [stageReq r s] }) s) := ⟨_, rfl⟩
  obtain ⟨w, hw⟩ := hw
  have hreqs : w.memc.reqs = [stageReq r s] := by rw [hw]; rfl
  have hcfg : w.cfg = s.cfg := by rw [hw]; rfl
  have htiles : w.tiles = s.tiles := by rw [hw]; rfl
  have hdram : w.dram = s.dram := by rw [hw]; rfl
  have hun : unlimited w r.port.val = unlimited s r.port.val := by rw [hw]; rfl
  have hcred : creditOf w r.port = s.memc.ports[r.port].credit := by rw [hw]; exact hcr r.port
  have hfr : w.memc.frozen = s.memc.frozen := by rw [hw]; rfl
  rw [← hw] at e
  refine ⟨fun hh => ⟨_, e, ?_⟩, fun hh hd hf => ⟨_, e, ?_⟩⟩
  · obtain ⟨h1, h2, h3, h4, h5⟩ := issue_of_alone (hits := hits) hreqs rfl hh
    refine ⟨h1, h2.trans hcfg, h3.trans htiles, h4.trans ?_, Eq.trans h5 ?_⟩
    · rw [dramDflt, hdram]
      rfl
    · rw [cost_kindOf]
      show (if unlimited w r.port.val = true then creditOf w r.port else creditOf w r.port - _) = _
      rw [hun, hcred]
      rfl
  · obtain ⟨hfz, hcause, haddr, hreqs⟩ := issue_read_of_bad (q := stageReq r s) (hits := hits) (s := w) hd rfl rfl hh
      (hfr.trans hf)
    rw [pumpHost_of_idle hreqs]
    exact ⟨hfz, hcause, haddr⟩

end Sys2Proof.Proofs
end

section
/-! PROOFS. Accesses through BAR2 (12 R286). -/
namespace Sys2Proof.Proofs

open Sys2Proof Sys2Proof.Machine Sys2Proof.Laws

/-! ### Bytes written by enabled lines -/

/-- What a write at `d` puts at an address, where it enables that byte. -/
def writeAt (d : Nat) (w : List (Option Byte)) (a : Nat) : Option Byte := if d ≤ a then w.getD (a - d) none else none

theorem lineBytes_eq (d : Nat) (w : List (Option Byte)) (line : Nat) :
    lineBytes d w line = (List.range 64).map fun i => writeAt d w (64 * line + i) := rfl

/-- A byte after a run of enabled bytes. -/
theorem readCell_writeEnabled {dflt : Nat → Byte} {m : List Host.Cell} (a c : Nat) (bs : List (Option Byte))
    (hm : Memory.wf dflt m = true) : readCell dflt (writeEnabled dflt m a bs) c =
      (if a ≤ c then bs.getD (c - a) none else none).getD (readCell dflt m c) := by
  induction bs generalizing m a with
  | nil => simp [writeEnabled]
  | cons b bs ih =>
    cases b with
    | none =>
      rw [writeEnabled, ih (a + 1) hm]
      rcases Nat.lt_trichotomy c a with h | h | h
      · rw [if_neg (by omega), if_neg (by omega)]
      · subst h
        simp
      · rw [if_pos (by omega), if_pos (by omega), show c - a = (c - (a + 1)) + 1 by omega, List.getD_cons_succ]
    | some b =>
      rw [writeEnabled, ih (a + 1) (writeCell_wf a b hm), readCell_writeCell a c b hm]
      rcases Nat.lt_trichotomy c a with h | h | h
      · rw [if_neg (by omega), if_neg (by omega), if_neg (by omega)]
      · subst h
        simp
      · have h1 : a + 1 ≤ c := h
        have h2 : a ≤ c := by omega
        have h3 : c ≠ a := by omega
        rw [if_pos h1, if_pos h2, if_neg h3, show c - a = (c - (a + 1)) + 1 by omega, List.getD_cons_succ]

/-- A byte after one line of a write. -/
theorem readCell_line {dflt : Nat → Byte} {m : List Host.Cell} (d : Nat) (w : List (Option Byte)) (line c : Nat)
    (hm : Memory.wf dflt m = true) : readCell dflt (writeEnabled dflt m (64 * line) (lineBytes d w line)) c =
      (if c / 64 = line then writeAt d w c else none).getD (readCell dflt m c) := by
  rw [readCell_writeEnabled _ _ _ hm, lineBytes_eq]
  by_cases h : c / 64 = line
  · have h1 : 64 * line ≤ c := by omega
    have h2 : c - 64 * line < 64 := by omega
    rw [if_pos h1, if_pos h, List.getD_eq_getElem _ _ (by simpa using h2), List.getElem_map, List.getElem_range,
      Nat.add_sub_cancel' h1]
  · rw [if_neg h]
    split
    · rw [List.getD_eq_default _ _ (by simp; omega)]
    · rfl

/-- The bytes after the lines of a write are written in turn. -/
theorem readCell_lines {dflt : Nat → Byte} (d : Nat) (w : List (Option Byte)) (l : List Nat) (c : Nat) {m : List Host.Cell}
    (hm : Memory.wf dflt m = true) :
    readCell dflt (l.foldl (fun m n => writeEnabled dflt m (64 * n) (lineBytes d w n)) m) c =
      (if c / 64 ∈ l then writeAt d w c else none).getD (readCell dflt m c) := by
  induction l generalizing m with
  | nil => simp
  | cons n l ih =>
    rw [List.foldl_cons, ih (writeEnabled_wf _ _ hm), readCell_line d w n c hm]
    generalize writeAt d w c = b
    by_cases h1 : c / 64 ∈ l
    · rw [if_pos h1, if_pos (List.mem_cons_of_mem _ h1)]
      cases b <;> simp
    · rw [if_neg h1]
      by_cases h2 : c / 64 = n
      · rw [if_pos h2, if_pos (List.mem_cons.2 (.inl h2))]
        rfl
      · rw [if_neg h2, if_neg (by simp [h1, h2])]
        rfl

/-- The lines of a write cover every byte that it enables. -/
theorem writeAt_outside {d : Nat} {w : List (Option Byte)} {c : Nat}
    (h : c / 64 ∉ (linesOf d w.length).filter fun n => (lineBytes d w n).any fun x => x.isSome) : writeAt d w c = none := by
  by_contra hne
  obtain ⟨b, hb⟩ := Option.ne_none_iff_exists'.1 hne
  refine h (List.mem_filter.2 ⟨?_, ?_⟩)
  · unfold writeAt at hb
    split at hb
    · next hd =>
      have hlt : c - d < w.length := by
        by_contra hge
        rw [List.getD_eq_default _ _ (by omega)] at hb
        exact absurd hb (by simp)
      unfold linesOf
      rw [if_neg (by omega), List.mem_map]
      exact ⟨c / 64 - d / 64, List.mem_range.2 (by omega), by omega⟩
    · exact absurd hb (by simp)
  · rw [List.any_eq_true]
    refine ⟨writeAt d w c, ?_, by simp [hb]⟩
    rw [lineBytes_eq, List.mem_map]
    exact ⟨c % 64, List.mem_range.2 (by omega), congrArg _ (by omega)⟩


/-! ### The requests of the host -/

/-- A request of the host for a line. -/
def HostFor (D : Nat → Option (List (Option Byte))) (n : Nat) (q : PendReq) : Prop :=
  q.host = true ∧ q.req.port = 9 ∧ q.hits = [] ∧ q.req.line = n ∧ q.req.data = D n

theorem arriveReq_of_running {q : PendReq} {s : State} (hf : s.memc.frozen = false)
    (hd : q.req.data = none → ∀ p ∈ s.memc.reqs, p.req.data = none) :
    arriveReq q s = modMemc (fun m => { m with reqs := m.reqs ++ [q] }) s := by
  have hheld : (q.req.data.isNone && s.memc.reqs.any fun p => p.req.line = q.req.line && p.req.data.isSome) = false := by
    cases h : q.req.data with
    | some d => rfl
    | none =>
      rw [Bool.and_eq_false_iff]
      right
      rw [List.any_eq_false]
      intro p hp
      simp [hd h p hp]
  unfold arriveReq
  rw [if_neg (by simp [hf])]
  dsimp only
  rw [if_neg (by rw [hheld]; simp)]

/-- The lines that the host asks for arrive in their order. -/
theorem forEach_arriveReq {D : Nat → Option (List (Option Byte))} (hD : (∀ n, D n = none) ∨ (∀ n, D n ≠ none))
    (l : List Nat) {done : List Nat} {qs : List PendReq} {s : State} (hf : s.memc.frozen = false)
    (hq : List.Forall₂ (HostFor D) done qs) (hr : s.memc.reqs = qs) :
    ∃ qs', List.Forall₂ (HostFor D) (done ++ l) qs' ∧
      forEach l (fun n s => arriveReq (hostReq n (D n) [] s) s) s = modMemc (fun m => { m with reqs := qs' }) s := by
  induction l generalizing done qs s with
  | nil =>
    refine ⟨qs, by simpa using hq, ?_⟩
    show s = modMemc _ s
    unfold modMemc
    rw [← hr]
  | cons n l ih =>
    have hnone : (hostReq n (D n) [] s).req.data = none → ∀ p ∈ s.memc.reqs, p.req.data = none := by
      intro h p hp
      rw [hr] at hp
      obtain ⟨k, -, hk⟩ : ∃ k, k ∈ done ∧ HostFor D k p := by
        clear hr ih
        induction hq with
        | nil => exact absurd hp List.not_mem_nil
        | cons hab _ ih =>
          rcases List.mem_cons.1 hp with rfl | hp
          · exact ⟨_, List.mem_cons_self, hab⟩
          · obtain ⟨k, hk, hkp⟩ := ih hp
            exact ⟨k, List.mem_cons_of_mem _ hk, hkp⟩
      obtain ⟨-, -, -, -, e⟩ := hk
      rcases hD with hD | hD
      · rw [e, hD]
      · exact absurd h (hD n)
    have ha := arriveReq_of_running hf hnone
    have hfor : HostFor D n (hostReq n (D n) [] s) := ⟨rfl, rfl, rfl, rfl, rfl⟩
    obtain ⟨qs', hq', e⟩ := ih (done := done ++ [n]) (qs := qs ++ [hostReq n (D n) [] s])
      (s := modMemc (fun m => { m with reqs := m.reqs ++ [hostReq n (D n) [] s] }) s) hf
      (List.rel_append hq (List.Forall₂.cons hfor List.Forall₂.nil)) (by rw [modMemc_memc, hr])
    refine ⟨qs', by simpa using hq', ?_⟩
    show forEach l _ (arriveReq _ s) = _
    rw [ha, e]
    rfl

/-- What a served request of the host leaves of what says whether the next is served. -/
theorem portServed_of_ports {s t : State} {q : PendReq} (h : OnlyPorts (taken q s) t) (p : Nat) :
    portServed t p = portServed s p ∧ unlimited t p = unlimited s p := by
  obtain ⟨x, c, rfl⟩ := h
  exact ⟨rfl, rfl⟩

theorem reqCredit_of_unlimited {r : MemReq} {s : State} (hp : r.port = 9) (h : unlimited s 9 = true) : reqCredit s r = true := by
  unfold reqCredit hasCredit
  rw [hp]
  simp [h]

/-- The oldest request of the host is served next. -/
theorem serveHost_succ {D : Nat → Option (List (Option Byte))} {n : Nat} {l : List Nat} {q : PendReq} {qs : List PendReq}
    (k : Nat) {s : State} (hr : s.memc.reqs = q :: qs) (hq : HostFor D n q) (hqs : List.Forall₂ (HostFor D) l qs)
    (hp : portServed s 9 = true) (hu : unlimited s 9 = true) : serveHost (k + 1) s = serveHost k (issue q [] s) := by
  obtain ⟨hhost, hport, -, -, -⟩ := hq
  have hall : ∀ r ∈ qs, r.req.port = q.req.port := by
    clear hr
    rw [hport]
    induction hqs with
    | nil => exact fun _ h => absurd h List.not_mem_nil
    | cons hab _ ih =>
      intro r hr
      rcases List.mem_cons.1 hr with rfl | hr
      · exact hab.2.1
      · exact ih r hr
  have hc := chooseReq_of_head hr hall (by rw [hport]; exact hp) (reqCredit_of_unlimited hport hu)
  rw [serveHost, hc]
  exact if_pos hhost

/-- The host's writes that wait are made in their order. -/
theorem serveHost_writes {B : Nat → List (Option Byte)} (l : List Nat) {qs : List PendReq} {k : Nat} (hk : l.length ≤ k)
    {s : State} (hq : List.Forall₂ (HostFor fun n => some (B n)) l qs) (hr : s.memc.reqs = qs) (hp : portServed s 9 = true)
    (hu : unlimited s 9 = true) : (serveHost k s).cfg = s.cfg ∧ (serveHost k s).dram = { s.dram with
      cells := l.foldl (fun m n => writeEnabled (dramDflt s) m (64 * n) (B n)) s.dram.cells } := by
  induction l generalizing qs k s with
  | nil =>
    cases hq
    cases k with
    | zero => exact ⟨rfl, rfl⟩
    | succ k =>
      have hc : chooseReq s = none := by simp [chooseReq, hr, candidates10]
      unfold serveHost
      rw [hc]
      exact ⟨rfl, rfl⟩
  | cons n l ih =>
    cases hq with
    | @cons _ q _ qs hq hqs =>
    cases k with
    | zero => exact absurd hk (by simp)
    | succ k =>
      rw [serveHost_succ k hr hq hqs hp hu]
      obtain ⟨hhost, hport, hhits, hline, hdata⟩ := hq
      obtain ⟨t, ht, -, hi⟩ := issue_of_clean (q := q) (hits := []) s (by rw [hhits]; exact fun _ h => absurd h List.not_mem_nil)
      obtain ⟨hp', hu'⟩ := portServed_of_ports ht 9
      rw [hdata] at hi
      obtain ⟨x, c, et⟩ := ht
      obtain ⟨u, z, ep⟩ := putLine_eq q (B n) t
      have hreqs : t.memc.reqs = qs := by
        rw [et]
        show s.memc.reqs.erase q = qs
        rw [hr]
        exact List.erase_cons_head ..
      have htd : t.dram = s.dram := by
        rw [et]
        rfl
      have htc : t.cfg = s.cfg := by
        rw [et]
        rfl
      dsimp only at hi
      rw [hi, ep]
      obtain ⟨hc, hd⟩ := ih (k := k) (by simpa using hk) hqs (s := { t with
        memc := { t.memc with undo := u }, tick := { t.tick with tableTouch := z },
        dram := { t.dram with cells := writeEnabled (dramDflt t) t.dram.cells (64 * q.req.line) (B n) } })
        hreqs (hp'.trans hp) (hu'.trans hu)
      refine ⟨hc.trans htc, hd.trans ?_⟩
      dsimp only
      rw [htd, hline]
      unfold dramDflt
      dsimp only
      rw [htd]
      rfl


/-! ### What a read of the host collects -/

theorem readCells_append (dflt : Nat → Byte) (m : List Host.Cell) (a n k : Nat) :
    readCells dflt m a (n + k) = readCells dflt m a n ++ readCells dflt m (a + n) k := by
  unfold readCells
  rw [List.range_add, List.map_append, List.map_map]
  congr 1
  exact List.map_congr_left fun i _ => by simp [Nat.add_assoc]

/-- The bytes that a read at `d` of `n` bytes takes from a line. -/
def linePiece (dflt : Nat → Byte) (m : List Host.Cell) (d n line : Nat) : List Byte :=
  readCells dflt m (max d (64 * line)) (min (d + n) (64 * line + 64) - max d (64 * line))

/-- The pieces of the lines of a read are its bytes. -/
theorem linePieces_eq (dflt : Nat → Byte) (m : List Host.Cell) (d n : Nat) :
    (linesOf d n).flatMap (linePiece dflt m d n) = readCells dflt m d n := by
  unfold linesOf
  split
  · next h =>
    subst h
    rfl
  · next h =>
    have key (k : Nat) : ((List.range k).map (d / 64 + ·)).flatMap (linePiece dflt m d n) =
        readCells dflt m d (min (d + n) (64 * (d / 64 + k)) - d) := by
      induction k with
      | zero =>
        rw [show min (d + n) (64 * (d / 64 + 0)) - d = 0 by omega]
        rfl
      | succ k ih =>
        rw [List.range_succ, List.map_append, List.flatMap_append, ih]
        simp only [List.map_cons, List.map_nil, List.flatMap_cons, List.flatMap_nil, List.append_nil]
        unfold linePiece
        by_cases hk : d + n ≤ 64 * (d / 64 + k)
        · rw [show min (d + n) (64 * (d / 64 + k) + 64) - max d (64 * (d / 64 + k)) = 0 by omega,
            show min (d + n) (64 * (d / 64 + (k + 1))) - d = min (d + n) (64 * (d / 64 + k)) - d by omega]
          exact List.append_nil _
        · have e : min (d + n) (64 * (d / 64 + (k + 1))) - d = (min (d + n) (64 * (d / 64 + k)) - d) +
              (min (d + n) (64 * (d / 64 + k) + 64) - max d (64 * (d / 64 + k))) := by omega
          rw [e, readCells_append]
          congr 2
          omega
    rw [key]
    congr 1
    omega

/-- A line that is read joins the read that waits, which completes with its last line. -/
theorem hostLine_of_waiting {line : Nat} {s : State} {r : HostRead} {l : List HostRead} (h : s.memc.hostReads = r :: l) :
    hostLine line s =
      if r.left ≤ 1 then emit (.readData (r.got ++ linePiece (dramDflt s) s.dram.cells r.addr r.len line ++ List.replicate r.past 0))
        (modMemc (fun m => { m with hostReads := l }) s)
      else modMemc (fun m => { m with hostReads := { r with
        left := r.left - 1, got := r.got ++ linePiece (dramDflt s) s.dram.cells r.addr r.len line } :: l }) s := by
  unfold hostLine
  rw [h]
  rfl

/-- A read of the host that is next leaves the rest of the queue and DRAM. -/
theorem serveHost_read {n : Nat} {l : List Nat} {q : PendReq} {qs : List PendReq} (k : Nat) {s : State}
    (hr : s.memc.reqs = q :: qs) (hq : HostFor (fun _ => none) n q) (hqs : List.Forall₂ (HostFor fun _ => none) l qs)
    (hp : portServed s 9 = true) (hu : unlimited s 9 = true) : ∃ t, serveHost (k + 1) s = serveHost k (hostLine n t) ∧
      t.memc.reqs = qs ∧ t.dram = s.dram ∧ t.memc.hostReads = s.memc.hostReads ∧ portServed t 9 = true ∧ unlimited t 9 = true := by
  rw [serveHost_succ k hr hq hqs hp hu]
  obtain ⟨hhost, hport, hhits, hline, hdata⟩ := hq
  obtain ⟨t, ht, -, hi⟩ := issue_of_clean (q := q) (hits := []) s (by rw [hhits]; exact fun _ h => absurd h List.not_mem_nil)
  obtain ⟨hp', hu'⟩ := portServed_of_ports ht 9
  rw [hdata] at hi
  dsimp only at hi
  rw [if_pos hhost, hline] at hi
  refine ⟨t, congrArg (serveHost k) hi, ?_, ?_, ?_, hp'.trans hp, hu'.trans hu⟩ <;> obtain ⟨x, c, et⟩ := ht <;> rw [et]
  · show s.memc.reqs.erase q = qs
    rw [hr]
    exact List.erase_cons_head ..
  · rfl
  · rfl

theorem serveHost_of_none (k : Nat) {s : State} (h : s.memc.reqs = []) : serveHost k s = s := by
  cases k with
  | zero => rfl
  | succ k =>
    rw [serveHost, show chooseReq s = none by simp [chooseReq, h, candidates10]]

/-- The lines of a read of the host are read in their order, and its last answers it. -/
theorem serveHost_reads (n : Nat) (l : List Nat) {qs : List PendReq} {k : Nat} (hk : (n :: l).length ≤ k) {s : State}
    {r : HostRead} (hq : List.Forall₂ (HostFor fun _ => none) (n :: l) qs) (hr : s.memc.reqs = qs)
    (hp : portServed s 9 = true) (hu : unlimited s 9 = true) (hh : s.memc.hostReads = [r]) (hl : r.left = (n :: l).length) :
    (serveHost k s).dram = s.dram ∧ (serveHost k s).out.head? = some (.readData
      (r.got ++ (n :: l).flatMap (linePiece (dramDflt s) s.dram.cells r.addr r.len) ++ List.replicate r.past 0)) := by
  induction l generalizing n qs k s r with
  | nil =>
    obtain _ | ⟨hq, hqs⟩ := hq
    cases hqs
    cases k with
    | zero => exact absurd hk (by simp)
    | succ k =>
      obtain ⟨t, e, hreqs, hdram, hreads, -, -⟩ := serveHost_read k hr hq List.Forall₂.nil hp hu
      have hone : r.left ≤ 1 := by simp [hl]
      rw [e, hostLine_of_waiting (hreads.trans hh), if_pos hone, serveHost_of_none k (by exact hreqs)]
      refine ⟨hdram, ?_⟩
      rw [dramDflt, hdram, List.flatMap_singleton]
      rfl
  | cons n' l ih =>
    obtain _ | ⟨hq, hqs⟩ := hq
    cases k with
    | zero => exact absurd hk (by simp)
    | succ k =>
      obtain ⟨t, e, hreqs, hdram, hreads, hp', hu'⟩ := serveHost_read k hr hq hqs hp hu
      have hmore : ¬ r.left ≤ 1 := by simp [hl]
      rw [e, hostLine_of_waiting (hreads.trans hh), if_neg hmore]
      obtain ⟨h1, h2⟩ := ih n' (k := k) (by simpa using hk) (s := modMemc (fun m => { m with hostReads := [{ r with
        left := r.left - 1, got := r.got ++ linePiece (dramDflt t) t.dram.cells r.addr r.len n }] }) t) hqs hreqs hp' hu'
        rfl (by simp [hl])
      refine ⟨h1.trans hdram, h2.trans ?_⟩
      rw [List.flatMap_cons]
      unfold dramDflt
      rw [modMemc_dram, hdram]
      simp only [List.flatMap_cons, List.append_assoc]

/-! ### BAR2 -/

/-- An access within the capacity of a serving controller is taken to HOSTIN. -/
theorem bar2_of_serving {d len : Nat} {w : Option (List (Option Byte))} {s : State} (hf : s.host.flr = false)
    (hm : s.host.mse = true) (hl : s.host.linkUp = true) (hp : s.dev.power ≠ .low) (hi : s.memc.frozen = false)
    (hs : portServed s 9 = true) (hd : d < capacity s) : bar2 d w len [] s = pumpHost (countWaits (match w with
      | none => if len = 0 then emit (.readData []) s
          else bar2Read d (min len (capacity s - d)) (len - min len (capacity s - d)) [] s
      | some w => bar2Write d (w.take (capacity s - d)) [] s)) := by
  have ht : s.memc.trained = true := by
    simp only [portServed, Bool.and_eq_true] at hs
    exact hs.1.1.1
  unfold bar2
  extract_lets answer n
  rw [if_neg (by simp [hf, hm, hl]), if_neg (by simp [Nat.not_le.2 hd, ht, hp]), if_neg (by simp [hi])]
  cases w <;> rfl

/-- Requests of the host that arrived are counted and served, oldest first. -/
theorem pump_hostQueue {D : Nat → Option (List (Option Byte))} {l : List Nat} {qs : List PendReq} {s : State}
    (hq : List.Forall₂ (HostFor D) l qs) (hr : s.memc.reqs = qs) (hu : unlimited s 9 = true) :
    ∃ p, pumpHost (countWaits s) = serveHost l.length (setPorts p s.memch s) := by
  have hc : ∀ q ∈ s.memc.reqs, reqCredit s q.req = true := by
    rw [hr]
    clear hr
    induction hq with
    | nil => exact fun _ h => absurd h List.not_mem_nil
    | cons hab _ ih =>
      intro q hq
      rcases List.mem_cons.1 hq with rfl | hq
      · exact reqCredit_of_unlimited hab.2.1 hu
      · exact ih q hq
  obtain ⟨p, e, -⟩ := onlyPorts_countWaits hc
  refine ⟨p, ?_⟩
  rw [e]
  have hr' : (setPorts p s.memch s).memc.reqs = qs := hr
  unfold pumpHost
  rw [hr', hq.length_eq]
  split
  · next h =>
    have hn : qs = [] := List.isEmpty_iff.1 h
    rw [hn]
    rfl
  · rfl

/-- The two states have one host port, but for the pending bits of its vectors. -/
def SameHost (s t : State) : Prop := ∃ p, t.host = { s.host with pba := p }

theorem SameHost.refl (s : State) : SameHost s s := ⟨s.host.pba, rfl⟩

theorem SameHost.trans {s t u : State} (a : SameHost s t) (b : SameHost t u) : SameHost s u := by
  obtain ⟨p, e⟩ := a
  obtain ⟨q, e'⟩ := b
  exact ⟨q, e'.trans (by rw [e])⟩

theorem sendVector_sameHost (v : Nat) (s : State) : SameHost s (sendVector v s) := by
  unfold sendVector
  split
  · exact ⟨_, rfl⟩
  · exact SameHost.refl s

theorem raiseOne_sameHost (r : ErrRec) (s : State) : SameHost s (raiseOne r s) := by
  unfold raiseOne
  extract_lets s₁ e
  split
  · exact SameHost.refl s
  · obtain ⟨p, hp⟩ := sendVector_sameHost r.cls (modErr r.cls (fun e => { e with
      code := r.code, unit := r.unit, aux := r.aux, valid := true, count := 1, more := false, ovf := false,
      sfn := s₁.tick.sfn, info := r.info, total := satInc e.total }) s₁)
    exact ⟨p, (logCapture_only (g := fun s => s.host) (fun _ _ => rfl) _ _).trans hp⟩

theorem raiseErrs_sameHost (l : List ErrRec) (s : State) : SameHost s (raiseErrs l s) := by
  unfold raiseErrs
  split
  · exact SameHost.refl s
  · exact forEach_invariant (P := SameHost s) (fun r t ht => ht.trans (raiseOne_sameHost r t)) _ s (SameHost.refl s)

/-- A miss of BAR2 is counted and flagged. -/
theorem bar2Miss_host (d : Nat) (s : State) : (bar2Miss d s).host.bar2Miss = true ∧
    (bar2Miss d s).host.missBar2 = satInc s.host.missBar2 := by
  obtain ⟨p, e⟩ := raiseErrs_sameHost [mkErr 2 0x25 0xFF 2 (word (d / 64))]
    (modHost (fun h => { h with bar2Miss := true, missBar2 := satInc h.missBar2 }) s)
  unfold bar2Miss raiseErr
  rw [e]
  exact ⟨rfl, rfl⟩

/-- The lines of a write that enable a byte. -/
def writeLines (d : Nat) (w : List (Option Byte)) : List Nat :=
  (linesOf d w.length).filter fun n => (lineBytes d w n).any fun x => x.isSome

theorem bar2Write_arrives (d : Nat) (w : List (Option Byte)) {s : State} (hf : s.memc.frozen = false)
    (hr : s.memc.reqs = []) : ∃ qs, List.Forall₂ (HostFor fun n => some (lineBytes d w n)) (writeLines d w) qs ∧
      bar2Write d w [] s = modMemc (fun m => { m with reqs := qs }) s :=
  forEach_arriveReq (D := fun n => some (lineBytes d w n)) (.inr fun n => by simp) (writeLines d w) hf List.Forall₂.nil hr

/-- The read that asks for its lines. -/
def readAsked (d len past : Nat) (s : State) : State :=
  modMemc (fun m => { m with
    hostReads := m.hostReads ++ [{ addr := d, len, left := (linesOf d len).length, got := [], past }] }) s

theorem bar2Read_arrives (d len past : Nat) {s : State} (hf : s.memc.frozen = false) (hr : s.memc.reqs = []) :
    ∃ qs, List.Forall₂ (HostFor fun _ => none) (linesOf d len) qs ∧
      bar2Read d len past [] s = modMemc (fun m => { m with reqs := qs }) (readAsked d len past s) :=
  forEach_arriveReq (s := readAsked d len past s) (D := fun _ => none) (.inl fun _ => rfl) (linesOf d len) hf
    List.Forall₂.nil hr

theorem linesOf_cons {d n : Nat} (h : n ≠ 0) : ∃ m l, linesOf d n = m :: l := by
  refine List.exists_cons_of_ne_nil fun hnil => ?_
  have hlen : (linesOf d n).length = 0 := by rw [hnil]; rfl
  rw [linesOf, if_neg h, List.length_map, List.length_range] at hlen
  omega

/-- A write through BAR2 within the capacity stores its enabled bytes. -/
theorem bar2_write {d : Nat} {w : List (Option Byte)} {s : State} (hf : s.memc.frozen = false) (hr : s.memc.reqs = [])
    (hs : portServed s 9 = true) (hu : unlimited s 9 = true) : (pumpHost (countWaits (bar2Write d w [] s))).cfg = s.cfg ∧
      (pumpHost (countWaits (bar2Write d w [] s))).dram = { s.dram with
        cells := (writeLines d w).foldl (fun m n => writeEnabled (dramDflt s) m (64 * n) (lineBytes d w n)) s.dram.cells } := by
  obtain ⟨qs, hq, e⟩ := bar2Write_arrives d w hf hr
  obtain ⟨p, ep⟩ := pump_hostQueue (s := modMemc (fun m => { m with reqs := qs }) s) hq rfl hu
  rw [e, ep]
  exact serveHost_writes (B := lineBytes d w) _ (Nat.le_refl _) hq
    (s := setPorts p (modMemc (fun m => { m with reqs := qs }) s).memch (modMemc (fun m => { m with reqs := qs }) s)) rfl hs hu

/-- A read through BAR2 within the capacity answers with its bytes. -/
theorem bar2_read {d n : Nat} {s : State} (hn : n ≠ 0) (hf : s.memc.frozen = false) (hr : s.memc.reqs = [])
    (hs : portServed s 9 = true) (hu : unlimited s 9 = true) (hh : s.memc.hostReads = []) :
    (pumpHost (countWaits (bar2Read d n 0 [] s))).dram = s.dram ∧ (pumpHost (countWaits (bar2Read d n 0 [] s))).out.head? =
      some (.readData (readCells (dramDflt s) s.dram.cells d n)) := by
  obtain ⟨qs, hq, e⟩ := bar2Read_arrives d n 0 hf hr
  obtain ⟨p, ep⟩ := pump_hostQueue (s := modMemc (fun m => { m with reqs := qs }) (readAsked d n 0 s)) hq rfl hu
  obtain ⟨w, hw⟩ : ∃ w, w = setPorts p (modMemc (fun m => { m with reqs := qs }) (readAsked d n 0 s)).memch
      (modMemc (fun m => { m with reqs := qs }) (readAsked d n 0 s)) := ⟨_, rfl⟩
  have hwr : w.memc.reqs = qs := by rw [hw]; rfl
  have hws : portServed w 9 = true := by rw [hw]; exact hs
  have hwu : unlimited w 9 = true := by rw [hw]; exact hu
  have hwd : w.dram = s.dram := by rw [hw]; rfl
  have hwh : w.memc.hostReads = [{ addr := d, len := n, left := (linesOf d n).length, got := [], past := 0 }] := by
    rw [hw]
    show s.memc.hostReads ++ _ = _
    rw [hh]
    rfl
  rw [e, ep, ← hw]
  obtain ⟨m, l, el⟩ := linesOf_cons (d := d) hn
  have hpieces := linePieces_eq (dramDflt s) s.dram.cells d n
  rw [el] at hpieces hq hwh ⊢
  obtain ⟨h1, h2⟩ := serveHost_reads m l (Nat.le_refl _) hq hwr hws hwu hwh rfl
  refine ⟨h1.trans hwd, h2.trans ?_⟩
  rw [dramDflt, hwd]
  rw [dramDflt] at hpieces
  dsimp only
  rw [hpieces, List.nil_append, List.replicate_zero, List.append_nil]
  rfl

/-- Settles O35: the host's requests are served in the order of their lines, and the lines cover the access. -/
theorem bar2Window : Obligations.Bar2Window := by
  refine ⟨fun d w s hf hm hl hp ⟨_, hi, hr⟩ hs hu hc hd hwf => ⟨_, rfl, ?_⟩,
    fun d n s hf hm hl hp ⟨_, hi, hr⟩ hs hu hh hd hc => ⟨_, rfl, ?_⟩, fun d w s hf hm hl hd => ⟨_, rfl, ?_⟩,
    fun d n s hf hm hl ht hp hz hd => ?_⟩
  · rw [bar2_of_serving hf hm hl hp hi hs hd]
    dsimp only
    rw [List.take_of_length_le (by omega)]
    obtain ⟨hcfg, hdram⟩ := bar2_write (d := d) (w := w) hi hr hs hu
    refine ⟨by rw [hdram], hcfg, fun a => ?_⟩
    unfold dramDflt at hdram ⊢
    rw [hdram]
    refine (readCell_lines d w (writeLines d w) a hwf).trans ?_
    by_cases ha : a / 64 ∈ writeLines d w
    · rw [if_pos ha]
      rfl
    · have hout := writeAt_outside ha
      rw [if_neg ha]
      show _ = (writeAt d w a).getD _
      rw [hout]
      rfl
  · rw [bar2_of_serving hf hm hl hp hi hs hd]
    dsimp only
    rw [Nat.min_eq_left (by omega), Nat.sub_self]
    split
    · next h0 =>
      subst h0
      obtain ⟨p, ep⟩ := pump_hostQueue (D := fun _ => none) (l := []) (s := emit (.readData []) s) List.Forall₂.nil hr hu
      rw [ep]
      exact ⟨rfl, rfl⟩
    · next h0 => exact bar2_read h0 hi hr hs hu hh
  · have e : bar2 d (some w) w.length [] s = bar2Miss d s := by
      unfold bar2
      extract_lets answer
      rw [if_neg (by simp [hf, hm, hl]), if_pos (by simp [hd])]
      rfl
    rw [e]
    exact ⟨raiseErr_dram .., bar2Miss_host d s⟩
  · have e : bar2 d none n [] s = { s with
        memc := { s.memc with frozenAccess := true }, out := .readData (List.replicate n 0xFF) :: s.out } := by
      unfold bar2
      extract_lets answer
      rw [if_neg (by simp [hf, hm, hl]), if_neg (by simp [Nat.not_le.2 hd, ht, hp]), if_pos hz]
      rfl
    exact congrArg Host.Outcome.next e

end Sys2Proof.Proofs
end

section
/-! PROOFS. Calibration commands and SHUTTER_MOVE (04 R125; 06 R168; 07 R177, R186; 16 R367). -/
namespace Sys2Proof.Proofs

open Sys2Proof Sys2Proof.Machine Sys2Proof.Laws

/-! ### A loop over the tiles or coils of a mask -/

theorem nodup_maskList {w : Nat} (m : BitVec w) : (maskList m).Nodup := List.nodup_range.filter _

/-- A loop that writes each tile of a list once. -/
theorem tileOf_forEach_modTile {f : Nat → Tile → Tile} {l : List Nat} (hl : l.Nodup) {n : Nat} (hn : n < 64) (s : State) :
    tileOf (forEach l (fun t => modTile t (f t)) s) n = if n ∈ l then f n (tileOf s n) else tileOf s n := by
  induction l generalizing s with
  | nil => simp [forEach]
  | cons t l ih =>
    obtain ⟨ht, hl⟩ := List.nodup_cons.1 hl
    rw [show forEach (t :: l) (fun t => modTile t (f t)) s = forEach l (fun t => modTile t (f t)) (modTile t (f t) s) from rfl,
      ih hl]
    by_cases e : n = t
    · subst e
      rw [if_neg ht, if_pos List.mem_cons_self, tileOf_modTile_same hn]
    · rw [tileOf_modTile_ne e]
      simp [e]

/-- A loop that writes each coil of a list once. -/
theorem coilOf_forEach_modCoil {f : Nat → Coil → Coil} {l : List Nat} (hl : l.Nodup) {n : Nat} (hn : n < 64) (s : State) :
    coilOf (forEach l (fun t => modCoil t (f t)) s) n = if n ∈ l then f n (coilOf s n) else coilOf s n := by
  induction l generalizing s with
  | nil => simp [forEach]
  | cons t l ih =>
    obtain ⟨ht, hl⟩ := List.nodup_cons.1 hl
    rw [show forEach (t :: l) (fun t => modCoil t (f t)) s = forEach l (fun t => modCoil t (f t)) (modCoil t (f t) s) from rfl,
      ih hl]
    by_cases e : n = t
    · subst e
      rw [if_neg ht, if_pos List.mem_cons_self, coilOf_modCoil_same hn]
    · rw [coilOf_modCoil_ne e]
      simp [e]

/-- The calibration of one tile after a loop that writes those of a mask. -/
theorem tileOf_forEach_modCal (f : Cal → Cal) (m : BitVec 64) (n : Fin 64) (s : State) :
    let t := forEach (maskList m) (fun t => modCal t f) s
    (tileOf t n.val).lane = (tileOf s n.val).lane ∧
      (tileOf t n.val).cal = if m.getLsbD n.val = true then f (tileOf s n.val).cal else (tileOf s n.val).cal := by
  have h := tileOf_forEach_modTile (f := fun _ x => { x with cal := f x.cal }) (nodup_maskList m) n.isLt s
  intro t
  rw [show tileOf t n.val = _ from h]
  by_cases hm : m.getLsbD n.val = true
  · rw [if_pos (mem_maskList.2 hm), if_pos hm]
    exact ⟨rfl, rfl⟩
  · rw [if_neg (mt mem_maskList.1 hm), if_neg hm]
    exact ⟨rfl, rfl⟩

/-- The two states differ in the tiles at most. -/
def OnlyTiles (s t : State) : Prop := ∃ x, t = { s with tiles := x }

theorem onlyTiles_forEach_modTile {f : Nat → Tile → Tile} (l : List Nat) (s : State) :
    OnlyTiles s (forEach l (fun t => modTile t (f t)) s) :=
  forEach_invariant (P := OnlyTiles s) (by rintro t _ ⟨x, rfl⟩; exact ⟨_, rfl⟩) l s ⟨s.tiles, rfl⟩

theorem any_maskList_eq_false {w : Nat} {m : BitVec w} {p : Nat → Bool} (h : ∀ n : Fin w, m.getLsbD n.val = true → p n.val = false) :
    (maskList m).any p = false := by
  rw [List.any_eq_false]
  intro n hn
  have hm := mem_maskList.1 hn
  simp [h ⟨n, BitVec.lt_of_getLsbD hm⟩ hm]

/-! ### The commands -/

theorem mem_insertReq (q r : CalReq) (l : List CalReq) : r ∈ insertReq q l ↔ r = q ∨ r ∈ l := by
  induction l with
  | nil => simp [insertReq]
  | cons x l ih =>
    unfold insertReq
    split
    · simp
    · simp only [List.mem_cons, ih]
      tauto

theorem length_insertReq (q : CalReq) (l : List CalReq) : (insertReq q l).length = l.length + 1 := by
  induction l with
  | nil => rfl
  | cons x l ih =>
    unfold insertReq
    split
    · rfl
    · simp [ih]

/-- SHUTTER_CAL on imaging tiles without a fault asks for each idle one and waits. -/
theorem shutterCal_of_imaging (h : Hdr) {m : BitVec 64} {s : State} (hp : s.dev.power = .parked ∨ s.dev.power = .imaging)
    (ha : s.cfg.hasActive = true)
    (ht : ∀ n : Fin 64, m.getLsbD n.val = true → tileImaging s n.val = true ∧ shutterFault s n.val = 0) :
    shutterCal h m s = { forEach (maskList m) (fun t => modCal t fun c =>
        { c with requested := c.requested || decide (c.phase = .idle) }) (counted s) with
      calReqs := insertReq { hdr := h, acc := s.tick.accNow.getD s.tick.accNext, awaited := m, records := [] } s.calReqs } := by
  have h1 : (maskList m).any (fun t => !tileImaging (counted s) t) = false :=
    any_maskList_eq_false fun n hn => by
      rw [show tileImaging (counted s) n.val = tileImaging s n.val from rfl, (ht n hn).1]
      rfl
  have h2 : (maskList m).any (fun t => decide (shutterFault (counted s) t ≠ 0)) = false :=
    any_maskList_eq_false fun n hn => by
      rw [show shutterFault (counted s) n.val = shutterFault s n.val from rfl, (ht n hn).2]
      rfl
  have ha' : (counted s).cfg.hasActive = true := ha
  obtain ⟨x, ex⟩ := onlyTiles_forEach_modTile (f := fun _ x => { x with cal :=
    { x.cal with requested := x.cal.requested || decide (x.cal.phase = .idle) } }) (maskList m) (counted s)
  unfold shutterCal
  rw [runAtTick_of_running hp]
  dsimp only
  rw [if_neg (by rw [h1, ha']; simp), if_neg (by rw [h2]; simp)]
  unfold modCal
  rw [ex]
  rfl

/-- BLEND_SET gives the named tiles its K. -/
theorem blendSet_of_valid (h : Hdr) (m : BitVec 64) {k : Word} {s : State} (hp : s.dev.power = .parked ∨ s.dev.power = .imaging)
    (ha : s.cfg.hasActive = true) (h1 : 1 ≤ k.toNat) (h2 : k.toNat ≤ 64) :
    blendSet h m k s = reply h 0x34 stOk [] (forEach (maskList m) (fun t => modCal t fun c => { c with
      k := BitVec.ofNat 7 k.toNat, kUsed := if c.phase = .traverse && c.index = 0 then k.toNat else c.kUsed }) (counted s)) := by
  have ha' : (counted s).cfg.hasActive = true := ha
  unfold blendSet
  rw [runAtTick_of_running hp, if_neg (by simp [ha']), if_neg (by simp; omega)]

@[simp] theorem tileOf_reply (h : Hdr) (op : Nat) (st : BitVec 16) (ws : List Word) (s : State) (n : Nat) :
    tileOf (reply h op st ws s) n = tileOf s n := by
  simp only [tileOf, reply_tiles]

/-- Settles O36: each command writes its calibrations or joins its queue. -/
theorem calibrationCommands : Obligations.CalibrationCommands := by
  intro h m s hp ha
  refine ⟨fun ht => ⟨_, rfl, ?_⟩, fun n a b hn => congrArg Host.Outcome.next ?_,
    fun hc hr => congrArg Host.Outcome.next ?_, fun k h1 h2 => ⟨_, rfl, ?_⟩⟩
  · rw [shutterCal_of_imaging h hp ha ht]
    have htile n := tileOf_forEach_modCal (fun c => { c with requested := c.requested || decide (c.phase = .idle) }) m n (counted s)
    obtain ⟨x, ex⟩ := onlyTiles_forEach_modTile (f := fun _ x => { x with cal :=
      { x.cal with requested := x.cal.requested || decide (x.cal.phase = .idle) } }) (maskList m) (counted s)
    unfold modCal at htile ⊢
    rw [ex] at htile ⊢
    refine ⟨rfl, rfl, ⟨_, (mem_insertReq ..).2 (.inl rfl), rfl, rfl, rfl⟩, fun r hr => (mem_insertReq ..).2 (.inr hr),
      length_insertReq .., fun n => ?_⟩
    obtain ⟨hlane, hcal⟩ := htile n
    exact ⟨hlane, fun hm => hcal.trans (if_pos hm)⟩
  · have ha' : (counted s).cfg.hasActive = true := ha
    have hn' : tileImaging (counted s) n.val = true := hn
    unfold dacLincal
    rw [runAtTick_of_running hp, if_neg (by simp [ha', hn'])]
    rfl
  · have hc' : (counted s).hk.calibrating = false := hc
    have hr' : (counted s).hk.calRequested = false := hr
    unfold hkSelfcal
    rw [runAtTick_of_running hp, if_neg (by simp [hc', hr'])]
    rfl
  · rw [blendSet_of_valid h m hp ha h1 h2]
    have htile n := tileOf_forEach_modCal (fun c => { c with
      k := BitVec.ofNat 7 k.toNat, kUsed := if c.phase = .traverse && c.index = 0 then k.toNat else c.kUsed }) m n (counted s)
    obtain ⟨x, ex⟩ := onlyTiles_forEach_modTile (f := fun _ x => { x with cal := { x.cal with
      k := BitVec.ofNat 7 k.toNat,
      kUsed := if x.cal.phase = .traverse && x.cal.index = 0 then k.toNat else x.cal.kUsed } }) (maskList m) (counted s)
    unfold modCal at htile ⊢
    rw [ex] at htile ⊢
    refine ⟨reply_dram .., reply_cmdq_congr (by rfl) (by rfl) _ _ _ _, fun n => ?_⟩
    obtain ⟨hlane, hcal⟩ := htile n
    rw [tileOf_reply]
    refine ⟨hlane, hcal.trans ?_⟩
    simp only [Bool.and_eq_true, decide_eq_true_eq]
    rfl

/-! ### SHUTTER_MOVE -/

/-- Settles O37: each named coil's requests get one more, and the move joins those that wait. -/
theorem shutterMoveIssued : Obligations.ShutterMoveIssued := by
  intro h m close s hp ha ht
  refine ⟨_, rfl, ?_⟩
  have h1 : (maskList m).any (fun t => !((tileOf (counted s) t).port.state = .ready || (tileOf (counted s) t).port.state = .imaging)) = false :=
    any_maskList_eq_false fun n hn => by
      obtain ⟨hport, -⟩ := ht n hn
      rw [show tileOf (counted s) n.val = tileOf s n.val from rfl]
      rcases hport with e | e <;> rw [e] <;> rfl
  have h2 : (maskList m).any (fun t => decide ((tileOf (counted s) t).cal.phase ≠ .idle) ||
      decide (shutterFault (counted s) t ≠ 0) || !coilEn (counted s) t) = false :=
    any_maskList_eq_false fun n hn => by
      obtain ⟨-, hph, hf, hen⟩ := ht n hn
      rw [show tileOf (counted s) n.val = tileOf s n.val from rfl, show shutterFault (counted s) n.val = shutterFault s n.val from rfl,
        show coilEn (counted s) n.val = coilEn s n.val from rfl, hph, hf, hen]
      rfl
  have ha' : (counted s).cfg.hasActive = true := ha
  have hcoil (n : Fin 64) := coilOf_forEach_modCoil (f := fun _ c => { c with
    requests := c.requests ++ [{ close, move := some s.shut.nextMove }] }) (nodup_maskList m) n.isLt (counted s)
  have hsame : ∃ x, forEach (maskList m) (fun t => modCoil t fun c => { c with
      requests := c.requests ++ [{ close, move := some s.shut.nextMove }] }) (counted s) =
      { counted s with shut := { s.shut with coils := x } } :=
    forEach_invariant (P := fun t => ∃ x, t = { counted s with shut := { s.shut with coils := x } })
      (by rintro t _ ⟨x, rfl⟩; exact ⟨_, rfl⟩) _ _ ⟨s.shut.coils, rfl⟩
  obtain ⟨x, ex⟩ := hsame
  unfold shutterMove
  rw [runAtTick_of_running hp]
  dsimp only
  rw [if_neg (by rw [h1, ha']; simp), if_neg (by rw [h2]; simp)]
  rw [show (counted s).shut = s.shut from rfl, ex]
  rw [ex] at hcoil
  refine ⟨rfl, rfl, rfl, rfl, fun n => ?_⟩
  have hn : vget x n.val Coil.reset = _ := hcoil n
  show (vget x n.val Coil.reset).requests = _ ∧ (vget x n.val Coil.reset).state = _
  rw [hn]
  by_cases hm : m.getLsbD n.val = true
  · rw [if_pos (mem_maskList.2 hm), if_pos hm]
    exact ⟨rfl, rfl⟩
  · rw [if_neg (mt mem_maskList.1 hm), if_neg hm, List.append_nil]
    exact ⟨rfl, rfl⟩

end Sys2Proof.Proofs
end

section
/-! PROOFS. Skewaost: its commands, its line, and TICK messages (15 R347 to R361). -/
namespace Sys2Proof.Proofs

open Sys2Proof Sys2Proof.Machine Sys2Proof.Laws

/-! ### Entry to HOLDOVER and the end of an assignment -/

theorem enterHoldover_sync (cause : BitVec 3) (s : State) : (enterHoldover cause s).sync = { s.sync with
    state := .holdover, cause := cause, holdover := satInc s.sync.holdover, holdoverSeen := true,
    rejoin := [], adopt := none, placed := none, enterNext := none, missedRun := 0, periodRun := 0, depthRun := 0 } :=
  (sendVector_only (g := fun s => s.sync) (fun _ _ => rfl) (fun _ _ => rfl) 6 _).trans (raiseErr_sync ..)

theorem enterHoldover_tick (cause : BitVec 3) (s : State) : (enterHoldover cause s).tick = s.tick :=
  (sendVector_only (g := fun s => s.tick) (fun _ _ => rfl) (fun _ _ => rfl) 6 _).trans (raiseErr_tick ..)

/-- A message that checks is judged. -/
theorem lineOk_of_good (p : List Byte) (f : State → State) (s : State) : Machine.lineOk (.crc (crc16 p)) p f s = f s :=
  if_pos rfl

/-- The end of an assignment: the command is answered, or the upstream neighbour. -/
def assignDone (a : Assign) (s : State) : State :=
  match a.hdr with
  | some h => reply h 0x62 (if a.truncated then stTruncated else stOk) [word a.count]
      { s with sync := { s.sync with assign := none } }
  | none => emit (.sync 0 (syncMsg 6 (leBytes 2 a.count ++ leBytes 1 a.truncated.toNat)))
      { s with sync := { s.sync with assign := none } }

/-- With no port left that is up and enabled the assignment ends. -/
theorem assignOn_of_none {n : Nat} (f : Nat) (a : Assign) {s : State} (h : ∀ q, n ≤ q → q < 4 → synDown s q = false)
    (hf : 4 ≤ n + f) : assignOn (f + 1) n a s = assignDone a s := by
  induction f generalizing n with
  | zero =>
    rw [assignOn, if_neg (by omega)]
    rfl
  | succ f ih =>
    rw [assignOn]
    split
    · next hn =>
      rw [if_pos (by rw [h n (Nat.le_refl n) hn]; rfl)]
      exact ih (fun q hq => h q (by omega)) (by omega)
    · rfl

/-- SYNC_JOIN of a root: a follower in HOLDOVER. -/
theorem joinCmd_follow (h : Hdr) {s : State} (hp : s.dev.power ≠ .off) (hf : s.sync.follow = false) :
    joinCmd h true s = reply h 0x60 stOk [] (enterHoldover 1 (modSync (fun y => { y with follow := true }) (counted s))) := by
  have hf' : (counted s).sync.follow = false := hf
  unfold joinCmd
  rw [runAtTick_of_free hp (by rfl)]
  dsimp only
  rw [if_pos rfl, if_neg (by simp [hf'])]

/-- The registers of a follower that becomes a root. -/
def rootSync (y : Sync) : Sync :=
  { y with
    follow := false, state := .root, trim := 0, depth := 0, rejoin := [], adopt := none, placed := none,
    enterNext := none, missedRun := 0, periodRun := 0, depthRun := 0, limitRun := 0 }

/-- SYNC_JOIN of a follower the other way: a ROOT at once. -/
theorem joinCmd_root (h : Hdr) {s : State} (hp : s.dev.power ≠ .off) (hf : s.sync.follow = true) :
    (joinCmd h false s).sync = rootSync s.sync ∧ (joinCmd h false s).tick = s.tick := by
  have hf' : (counted s).sync.follow = true := hf
  have e : joinCmd h false s = reply h 0x60 stOk [] (if (counted s).sync.state = .holdover then
      sendVector 6 (modSync rootSync (counted s)) else modSync rootSync (counted s)) := by
    unfold joinCmd
    rw [runAtTick_of_free hp (by rfl)]
    dsimp only
    rw [if_neg (by simp), if_neg (by simp [hf'])]
    simp only [decide_eq_true_eq]
    rfl
  rw [e, reply_sync, reply_tick]
  split
  · exact ⟨sendVector_only (g := fun s => s.sync) (fun _ _ => rfl) (fun _ _ => rfl) 6 _,
      sendVector_only (g := fun s => s.tick) (fun _ _ => rfl) (fun _ _ => rfl) 6 _⟩
  · exact ⟨rfl, rfl⟩

/-- Settles O40: the commands write the registers of the line, and an assignment ends with `assignDone`. -/
theorem syncCommandsRun : Obligations.SyncCommandsRun := by
  refine ⟨fun h s hp => ⟨fun hf => ⟨_, rfl, ?_⟩, fun hf => ⟨_, rfl, ?_⟩, congrArg Host.Outcome.next ?_,
    fun id ha => congrArg Host.Outcome.next ?_⟩, fun id s ha => congrArg Host.Outcome.next ?_,
    fun id tree s a ha => congrArg Host.Outcome.next ?_, fun s a h p n ha hh hport hdown =>
      ⟨congrArg Host.Outcome.next ?_, congrArg Host.Outcome.next ?_⟩⟩
  · rw [joinCmd_follow h hp hf, reply_sync, reply_tick, enterHoldover_sync, enterHoldover_tick]
    exact ⟨rfl, rfl, rfl, rfl, rfl⟩
  · obtain ⟨hsync, htick⟩ := joinCmd_root h hp hf
    rw [hsync]
    exact ⟨rfl, rfl, rfl, rfl, rfl, htick⟩
  · unfold statusCmd
    rw [runAtTick_of_free hp (by rfl)]
    rfl
  · have ha' : (counted s).sync.assign = none := ha
    unfold assignCmd
    rw [runAtTick_of_free hp (by rfl), if_neg (by simp [ha'])]
    unfold assignStart
    dsimp only
    rw [if_neg (by simp), assignOn_of_none 4 _ (fun q h1 h2 => by omega) (by omega)]
    show reply h 0x62 stOk [1] { counted s with sync := { s.sync with idNext := some id, assign := none } } = _
    rw [← ha]
  · rw [lineOk_of_good, if_neg (by simp [ha])]
    unfold assignStart
    dsimp only
    rw [if_neg (by simp), assignOn_of_none 4 _ (fun q h1 h2 => by omega) (by omega)]
    show emit _ { s with sync := { s.sync with idNext := some id, assign := none } } = _
    rw [← ha]
    rfl
  · rw [lineOk_of_good, if_pos (by simp [ha])]
    rfl
  · rw [ha]
    dsimp only
    rw [if_pos hport, assignOn_of_none 4 _ (fun q h1 h2 => hdown q (by omega) h2) (by omega)]
    unfold assignDone
    rw [hh]
    simp
  · rw [ha]
    dsimp only
    rw [hport]
    dsimp only
    rw [assignOn_of_none (n := p.val + 1) (s := modSync (fun y => { y with assignTimeout := true }) s) 4 _
      (fun q h1 h2 => hdown q (by omega) h2) (by omega)]
    unfold assignDone
    rw [hh]
    rfl

/-! ### The line -/

/-- A measurement within bounds joins those before it. -/
theorem syncMeasure_of_early {m : Int} {s : State} (hd : s.sync.dValid = false) (hl : s.sync.meas.length < 7) (h0 : 0 ≤ m)
    (h1 : m ≤ 80000) : syncMeasure m s = modSync (fun y => { y with meas := s.sync.meas ++ [m.toNat], rejects := 0 }) s := by
  have hlen : (s.sync.meas ++ [m.toNat]).length ≤ 7 := by
    rw [List.length_append, List.length_singleton]
    omega
  unfold syncMeasure
  rw [if_neg (by simp [hd]; omega)]
  dsimp only
  rw [show (s.sync.meas ++ [m.toNat]).length - 8 = 0 by omega, List.drop_zero, if_neg (by omega)]

/-- Settles O41: each event of the line writes the registers that it names, or sends its message. -/
theorem syncLine : Obligations.SyncLine := by
  intro s
  refine ⟨fun p => rfl, fun p hp => congrArg Host.Outcome.next (if_neg hp), fun hs he => congrArg Host.Outcome.next ?_,
    fun t hf => congrArg Host.Outcome.next ((if_pos hf).trans rfl), fun p q turn => rfl,
    fun t q turn hf hr hd hl h0 h1 => congrArg Host.Outcome.next ?_,
    fun t c q turn hc => congrArg Host.Outcome.next (if_neg hc), fun t n q turn => rfl⟩
  · rw [if_pos (by rfl)]
    unfold holdoverNext
    exact if_pos (by simp [hs, he])
  · rw [lineOk_of_good, hr]
    dsimp only
    rw [if_pos (by simp [hf]), syncMeasure_of_early (by exact hd) (by exact hl) h0 h1]
    rfl

/-! ### TICK messages -/

/-- What an accepted message leaves: it is sent on, and the next tick is placed. -/
theorem sendTick_out (payload : List Byte) (s : State) : sendTick payload s = { s with
    out := ((List.range 4).filter (synDown s)).reverse.map (fun n => Emit.sync (n + 1) (syncMsg 1 payload)) ++ s.out } := by
  unfold sendTick
  generalize (List.range 4).filter (synDown s) = l
  induction l generalizing s with
  | nil => rfl
  | cons n l ih =>
    show forEach l _ (emit _ s) = _
    rw [ih]
    simp [emit]

/-- A message that passes every test in LOCKED is accepted. -/
theorem judgeTick_of_accepted {a : Int} {lead per : Word} {depth : Byte} (hold : Bool) {s : State} (hf : s.sync.follow = true)
    (ha : s.sync.adopt = none) (hd : s.sync.dValid = true) (hl : s.sync.state = .locked) (h8 : depth.toNat < 8)
    (h1 : a + 16000 ≤ a + lead.toNat - s.sync.d.toNat)
    (h2 : 10 * s.sync.tPrev + 9 * period8 s ≤ 10 * (a + lead.toNat - s.sync.d.toNat))
    (h3 : (a + lead.toNat - s.sync.d.toNat - ownTick s).natAbs ≤ 8000) :
    judgeTick per a (sfnNext s.tick.sfn) lead per depth hold s =
      acceptTick a (a + lead.toNat - s.sync.d.toNat) (sfnNext s.tick.sfn) per depth hold s := by
  unfold judgeTick
  extract_lets y t unused
  have ht : t = a + lead.toNat - s.sync.d.toNat := rfl
  have hy : y = s.sync := rfl
  rw [← ht] at h1 h2 h3 ⊢
  rw [hy, if_neg (by simp [hf, ha]), if_neg (by simp [hd]; omega), if_neg (by simp; omega), if_neg (by omega),
    if_neg (by simp), if_pos hl, if_neg (by simp; omega)]

/-- Settles O42: an accepted message places the tick, a missed one is counted, and a root sends its own. -/
theorem tickMessages : Obligations.TickMessages := by
  refine ⟨fun a lead per depth hold s hf ha hd hl h8 hper h1 h2 h3 => ⟨_, rfl, ?_⟩, fun s hl hp => ?_,
    fun s hr hf ha hst => ⟨_, rfl, ?_⟩⟩
  · have e : Machine.lineOk (.crc (crc16 (tickPayload (sfnNext s.tick.sfn).toNat lead.toNat per.toNat depth.toNat hold)))
        (tickPayload (sfnNext s.tick.sfn).toNat lead.toNat per.toNat depth.toNat hold)
        (judgeTick (nextPeriod s) a (sfnNext s.tick.sfn) lead per depth hold) s =
        acceptTick a (a + lead.toNat - s.sync.d.toNat) (sfnNext s.tick.sfn) per depth hold s := by
      rw [lineOk_of_good, ← hper]
      exact judgeTick_of_accepted hold hf ha hd hl h8 h1 h2 h3
    rw [e]
    unfold acceptTick
    dsimp only
    rw [sendTick_out]
    exact ⟨rfl, rfl, hl, rfl, rfl, rfl⟩
  · have e : execMissedTick s = .next (if 2 ≤ s.sync.missedRun + 1 then
        holdoverNext (if s.sync.freqLimit then 6 else 3)
          (modSync (fun y => { y with miss := satInc y.miss, missedRun := y.missedRun + 1 }) s)
        else modSync (fun y => { y with miss := satInc y.miss, missedRun := y.missedRun + 1 }) s) :=
      if_pos (by simp [hl, hp])
    refine ⟨_, e, ?_⟩
    by_cases h : 2 ≤ s.sync.missedRun + 1
    · rw [if_pos h]
      unfold holdoverNext
      split
      · exact ⟨rfl, rfl, fun h0 => by omega, fun _ _ => rfl⟩
      · next hn =>
        refine ⟨rfl, rfl, fun h0 => by omega, fun _ he => ?_⟩
        have hn' : ¬ (decide (s.sync.state = .locked) && s.sync.enterNext.isNone) = true := hn
        simp [hl, he] at hn'
    · rw [if_neg h]
      exact ⟨rfl, rfl, fun _ => rfl, fun h1 => by omega⟩
  · have e : sendOwnTick (nextPeriod s) s = sendTick (tickPayload (sfnNext s.tick.sfn).toNat 800000 (nextPeriod s).toNat 0 false) s := by
      unfold sendOwnTick
      simp [hr, hf, ha, hst]
    rw [e, sendTick_out]
    exact ⟨rfl, rfl, rfl⟩

end Sys2Proof.Proofs
end

section
/-! PROOFS. Errors acknowledged (19 R415), and LOW entered and left (20 R430, R431). -/
namespace Sys2Proof.Proofs

open Sys2Proof Sys2Proof.Machine Sys2Proof.Laws

@[simp] theorem ite_quads (c : Prop) [Decidable c] (s t : State) :
    (if c then s else t).quads = if c then s.quads else t.quads := apply_ite _ _ _ _

@[simp] theorem ite_memc (c : Prop) [Decidable c] (s t : State) :
    (if c then s else t).memc = if c then s.memc else t.memc := apply_ite _ _ _ _

/-- What a command leaves that changes ports, coils, calibrations and converters alone. -/
@[simp] abbrev DevHeld (s t : State) : Prop :=
  t.dev = s.dev ∧ t.cfg = s.cfg ∧ t.dram = s.dram ∧ t.quads = s.quads ∧ t.memc = s.memc

theorem DevHeld.refl (s : State) : DevHeld s s := ⟨rfl, rfl, rfl, rfl, rfl⟩

theorem DevHeld.trans {s t u : State} (a : DevHeld s t) (b : DevHeld t u) : DevHeld s u := by
  simp_all

theorem DevHeld.ite {c : Prop} [Decidable c] {s t u : State} (ht : DevHeld s t) (hu : DevHeld s u) :
    DevHeld s (if c then t else u) := by
  split
  · exact ht
  · exact hu

@[simp] theorem forEach_devHeld {α : Type} {f : α → State → State} (h : ∀ a s, DevHeld s (f a s)) (l : List α) (s : State) :
    DevHeld s (forEach l f s) :=
  forEach_invariant (P := DevHeld s) (fun a _ hs => hs.trans (h a _)) l s (DevHeld.refl s)

@[simp] theorem foldl_devHeld {α : Type} {f : State → α → State} (h : ∀ s a, DevHeld s (f s a)) (l : List α) (s : State) :
    DevHeld s (l.foldl f s) := forEach_devHeld (f := fun a s => f s a) (fun a s => h s a) l s

@[simp] theorem hostWriteRo_devHeld (ro a bs) (s : State) : DevHeld s (hostWriteRo ro a bs s) := by simp [hostWriteRo]

@[simp] theorem emitMsix_devHeld (v) (s : State) : DevHeld s (emitMsix v s) := by simp [emitMsix]

@[simp] theorem sendVector_devHeld (v) (s : State) : DevHeld s (sendVector v s) := by simp [sendVector]

@[simp] theorem postHeld_devHeld (s : State) : DevHeld s (postHeld s) := by
  unfold postHeld; split <;> simp

@[simp] theorem postAll_devHeld (x0) (s : State) : DevHeld s (postAll x0 s) := by
  induction x0 generalizing s with
  | zero => simp [postAll]
  | succ n ih => unfold postAll; split <;> simp [ih]

@[simp] theorem modMbox_devHeld (mgmt f) (s : State) : DevHeld s (modMbox mgmt f s) := by simp [modMbox]

@[simp] theorem mboxShow_devHeld (mgmt) (s : State) : DevHeld s (mboxShow mgmt s) := by
  unfold mboxShow; split <;> simp

@[simp] theorem sendParts_devHeld (h ps) (s : State) : DevHeld s (sendParts h ps s) := by
  unfold sendParts; split <;> simp

@[simp] theorem keepOwn_devHeld (ring payload) (s : State) : DevHeld s (keepOwn ring payload s) := by simp [keepOwn]

@[simp] theorem logCapture_devHeld (c) (s : State) : DevHeld s (logCapture c s) := by simp [logCapture]

@[simp] theorem raiseOne_devHeld (r) (s : State) : DevHeld s (raiseOne r s) := by simp [raiseOne]

@[simp] theorem raiseErrs_devHeld (l) (s : State) : DevHeld s (raiseErrs l s) := by
  unfold raiseErrs; dsimp only; split <;> simp

@[simp] theorem raiseErr_devHeld (e) (s : State) : DevHeld s (raiseErr e s) := by simp [raiseErr]

@[simp] theorem modConv_devHeld (c f) (s : State) : DevHeld s (modConv c f s) := by simp [modConv]

@[simp] theorem hkGo_devHeld (c i) (s : State) : DevHeld s (hkGo c i s) := by
  unfold hkGo; split <;> simp

@[simp] theorem hkStartPass_devHeld (s : State) : DevHeld s (hkStartPass s) := by simp [hkStartPass]

@[simp] theorem hkTrigger_devHeld (s : State) : DevHeld s (hkTrigger s) := by simp [hkTrigger]

@[simp] theorem countAbandon_devHeld (t) (s : State) : DevHeld s (countAbandon t s) := by simp [countAbandon]

@[simp] theorem requestCoil_devHeld (t close) (s : State) : DevHeld s (requestCoil t close s) := by simp [requestCoil]

@[simp] theorem calAnswer_devHeld (t rec) (s : State) : DevHeld s (calAnswer t rec s) := by simp [calAnswer]

@[simp] theorem setDue_devHeld (t) (s : State) : DevHeld s (setDue t s) := by simp [setDue]

@[simp] theorem calAbandoned_devHeld (t cause last) (s : State) :
    DevHeld s (calAbandoned t cause last s) := by simp [calAbandoned]

@[simp] theorem calComplete_devHeld (t cause last) (s : State) :
    DevHeld s (calComplete t cause last s) := by simp [calComplete]

@[simp] theorem lincalDrop_devHeld (t) (s : State) : DevHeld s (lincalDrop t s) := by simp [lincalDrop]

@[simp] theorem calLeave_devHeld (t cause) (s : State) : DevHeld s (calLeave t cause s) := by
  unfold calLeave; simp only []; split <;> simp

@[simp] theorem modMoves_devHeld (p f) (s : State) : DevHeld s (modMoves p f s) := by simp [modMoves]

@[simp] theorem dropRequests_devHeld (t) (s : State) : DevHeld s (dropRequests t s) := by simp [dropRequests]

@[simp] theorem groupIdle_devHeld (g) (s : State) : DevHeld s (groupIdle g s) := by simp [groupIdle]

@[simp] theorem beginRelease_devHeld (t) (s : State) : DevHeld s (beginRelease t s) := by simp [beginRelease]

@[simp] theorem releaseCoil_devHeld (t) (s : State) : DevHeld s (releaseCoil t s) := by
  unfold releaseCoil; simp only []; split <;> simp

@[simp] theorem portChange_devHeld {t} {f : State → State} (hf : ∀ s, DevHeld s (f s)) (s : State) :
    DevHeld s (portChange t f s) := by
  have := hf s
  unfold portChange; dsimp only; split <;> split <;> simp_all

@[simp] theorem parkPulse_devHeld (t) (s : State) : DevHeld s (parkPulse t s) := by simp [parkPulse]

@[simp] theorem shutPort_devHeld (t) (s : State) : DevHeld s (shutPort t s) := by simp [shutPort]

@[simp] theorem enterPrepare_devHeld (t) (s : State) : DevHeld s (enterPrepare t s) := by simp [enterPrepare]

@[simp] theorem moveReplies_devHeld (s : State) : DevHeld s (moveReplies s) := by simp [moveReplies]

@[simp] theorem hkRun_devHeld (s : State) : DevHeld s (hkRun s) := by simp [hkRun]

@[simp] theorem hkInject_devHeld (s : State) : DevHeld s (hkInject s) := by simp [hkInject]

@[simp] theorem hkStart_devHeld (s : State) : DevHeld s (hkStart s) := by simp [hkStart]

@[simp] theorem hkStop_devHeld (s : State) : DevHeld s (hkStop s) := by simp [hkStop]

@[simp] theorem traceCmd_devHeld (cmd p port) (s : State) : DevHeld s (traceCmd cmd p port s) := by simp [traceCmd]

@[simp] theorem traceRanks_devHeld (cmd n) (s : State) : DevHeld s (traceRanks cmd n s) := by simp [traceRanks]

@[simp] theorem idleDacs_devHeld (t) (s : State) : DevHeld s (idleDacs t s) := by simp [idleDacs]

@[simp] theorem finishList_devHeld (t wait) (s : State) : DevHeld s (finishList t wait s) := by simp [finishList]

@[simp] theorem startClock_devHeld (t) (s : State) : DevHeld s (startClock t s) := by simp [startClock]

@[simp] theorem modHost_devHeld (f) (s : State) : DevHeld s (modHost f s) := DevHeld.refl s

/-! ### Errors acknowledged -/

/-- A class in its cleared form, its lifetime total kept. -/
def cleared (e : ErrClass) : ErrClass := { ErrClass.reset with total := e.total }

theorem errOf_ackClass_same (c : Fin 3) (s : State) : errOf (ackClass c.val s) c.val = cleared (errOf s c.val) :=
  vget_vmod_same c.isLt _ _ _

theorem errOf_ackClass_ne {c d : Nat} (h : d ≠ c) (s : State) : errOf (ackClass c s) d = errOf s d :=
  vget_vmod_ne h _ _ _

/-- Acknowledging writes the error classes alone. -/
theorem forEach_ackClass_eq (l : List Nat) (s : State) :
    ∃ x, forEach l ackClass s = { s with err := { s.err with cls := x } } :=
  forEach_invariant (P := fun t => ∃ x, t = { s with err := { s.err with cls := x } })
    (by rintro c _ ⟨x, rfl⟩; exact ⟨_, rfl⟩) l s ⟨s.err.cls, rfl⟩

theorem errOf_forEach_ackClass {l : List Nat} (hl : l.Nodup) (c : Fin 3) (s : State) :
    errOf (forEach l ackClass s) c.val = if c.val ∈ l then cleared (errOf s c.val) else errOf s c.val := by
  induction l generalizing s with
  | nil => simp [forEach]
  | cons d l ih =>
    obtain ⟨hd, hl⟩ := List.nodup_cons.1 hl
    rw [show forEach (d :: l) ackClass s = forEach l ackClass (ackClass d s) from rfl, ih hl]
    by_cases e : c.val = d
    · subst e
      rw [if_neg hd, if_pos List.mem_cons_self, errOf_ackClass_same]
    · rw [errOf_ackClass_ne e]
      simp [e]

theorem errOf_reply (h : Hdr) (op : Nat) (st : BitVec 16) (ws : List Word) (s : State) (c : Nat) :
    errOf (reply h op st ws s) c = errOf s c := by
  simp only [errOf, reply_err]

/-- Settles O43: each class named is cleared once. -/
theorem errorsAcknowledged : Obligations.ErrorsAcknowledged := by
  refine ⟨fun h m s hp => ⟨_, rfl, ?_⟩, fun c s hf => ⟨_, congrArg Host.Outcome.next (if_neg (by simp [hf])), rfl, fun d => ?_⟩⟩
  · unfold errAck
    rw [runAtTick_of_free hp (by rfl)]
    dsimp only
    obtain ⟨x, ex⟩ := forEach_ackClass_eq (maskList m) (counted s)
    have hcls c := errOf_forEach_ackClass (nodup_maskList m) c (counted s)
    rw [ex] at hcls ⊢
    rw [reply_dram, reply_err]
    refine ⟨reply_cmdq_congr (by rfl) (by rfl) _ _ _ _, rfl, rfl, fun c => ?_⟩
    rw [errOf_reply]
    refine (hcls c).trans ?_
    simp only [mem_maskList]
    rfl
  · by_cases e : d = c
    · subst e
      rw [if_pos rfl]
      exact errOf_ackClass_same d s
    · rw [if_neg e]
      exact errOf_ackClass_ne (fun h => e (Fin.ext h)) s

/-! ### LOW -/

/-- The end of a transition replies to its command. -/
theorem endTransition_eqs (s : State) : (endTransition s).dev = { s.dev with transition := none } ∧
    (endTransition s).cfg = s.cfg ∧ (endTransition s).dram = s.dram ∧ (endTransition s).memc = s.memc ∧
    (endTransition s).quads = s.quads := by
  unfold endTransition
  split
  · next h =>
    refine ⟨?_, rfl, rfl, rfl, rfl⟩
    rw [← h]
  · simp

theorem traceSelf_devHeld (cmd : Nat) (s : State) : DevHeld s (traceSelf cmd s) :=
  forEach_devHeld (fun n s => traceRanks_devHeld cmd n s) _ s

/-- Every port off and every coil released, and the converters stopped. -/
def lowQuieted (s : State) : State :=
  hkStop (moveReplies (forEach (List.range 64) releaseCoil
    (forEach ((List.range 64).filter fun t => (tileOf s t).port.state ≠ .off) (fun t => portChange t (shutPort t)) s)))

theorem lowQuieted_devHeld (s : State) : DevHeld s (lowQuieted s) := by
  unfold lowQuieted
  generalize (List.range 64).filter _ = l
  generalize List.range 64 = l'
  have h1 := forEach_devHeld (f := fun t => portChange t (shutPort t)) (fun t => portChange_devHeld (shutPort_devHeld t)) l s
  have h2 := forEach_devHeld releaseCoil_devHeld l' (forEach l (fun t => portChange t (shutPort t)) s)
  exact ((h1.trans h2).trans (moveReplies_devHeld _)).trans (hkStop_devHeld _)

/-- Memory in self-refresh and every clock stopped. -/
def lowStopped (h : Hdr) (s : State) : State :=
  { s with
    memc := { s.memc with selfRefresh := true }, quads := s.quads.map fun q => { q with locked := false, down := true },
    dev := { s.dev with power := .low, transition := some h, lowCnt := satInc s.dev.lowCnt } }

theorem enterLow_of_idle (h : Hdr) {s : State} (hr : s.memc.reqs = []) :
    enterLow h s = lowStopped h (traceSelf 6 (lowQuieted (endTransition s))) := by
  unfold enterLow lowQuieted
  rw [hr, List.length_nil, drainReqs]
  dsimp only
  generalize traceSelf 6 _ = w
  rfl

/-- With no request waiting the device enters LOW. -/
theorem enterLow_eqs (h : Hdr) {s : State} (hr : s.memc.reqs = []) :
    (enterLow h s).dev = { s.dev with power := .low, transition := some h, lowCnt := satInc s.dev.lowCnt } ∧
      (enterLow h s).memc.selfRefresh = true ∧ (enterLow h s).dram = s.dram ∧ (enterLow h s).cfg = s.cfg := by
  obtain ⟨hdev, hcfg, hdram, -⟩ := endTransition_eqs s
  obtain ⟨d, c, r, -⟩ := (lowQuieted_devHeld (endTransition s)).trans (traceSelf_devHeld 6 _)
  rw [enterLow_of_idle h hr]
  unfold lowStopped
  dsimp only
  rw [d, c, r, hdev, hcfg, hdram]
  exact ⟨rfl, rfl, rfl, rfl⟩

/-- The ports of the active set prepared again. -/
def lowLeft (to_ : Power) (s : State) : State :=
  modMemc (fun m => { m with selfRefresh := false }) (traceSelf 7 (modDev (fun d => { d with power := to_ }) (endTransition s)))

theorem leaveLow_eq (to_ : Power) (s : State) :
    leaveLow to_ s = hkStart (forEach (activeTiles (lowLeft to_ s)) enterPrepare (lowLeft to_ s)) := rfl

theorem lowLeft_eqs (to_ : Power) (s : State) :
    (lowLeft to_ s).dev = { s.dev with transition := none, power := to_ } ∧ (lowLeft to_ s).memc.selfRefresh = false ∧
      (lowLeft to_ s).dram = s.dram ∧ (lowLeft to_ s).cfg = s.cfg := by
  obtain ⟨hdev, hcfg, hdram, -⟩ := endTransition_eqs s
  obtain ⟨d, c, r, -⟩ := traceSelf_devHeld 7 (modDev (fun d => { d with power := to_ }) (endTransition s))
  unfold lowLeft
  rw [modMemc_dev, modMemc_memc, modMemc_dram, modMemc_cfg, d, c, r, modDev_dev, modDev_cfg, modDev_dram, hdev, hcfg, hdram]
  exact ⟨rfl, rfl, rfl, rfl⟩

/-- The device leaves LOW. -/
theorem leaveLow_eqs (to_ : Power) (s : State) :
    (leaveLow to_ s).dev = { s.dev with transition := none, power := to_ } ∧ (leaveLow to_ s).memc.selfRefresh = false ∧
      (leaveLow to_ s).dram = s.dram ∧ (leaveLow to_ s).cfg = s.cfg := by
  obtain ⟨hdev, hself, hdram, hcfg⟩ := lowLeft_eqs to_ s
  obtain ⟨d, c, r, -, m⟩ := (forEach_devHeld enterPrepare_devHeld (activeTiles (lowLeft to_ s)) (lowLeft to_ s)).trans (hkStart_devHeld _)
  rw [leaveLow_eq, d, c, r, m]
  exact ⟨hdev, hself, hdram, hcfg⟩

/-- A PLL that locks serves its quadrant. -/
theorem lockQuad_eqs {q : Nat} (hq : q < 4) (s : State) : (quadOf (lockQuad q s) q).locked = true ∧
    (∀ r, r ≠ q → quadOf (lockQuad q s) r = quadOf s r) ∧ (lockQuad q s).dev = s.dev := by
  obtain ⟨hdev, -, -, hquads, -⟩ := forEach_devHeld (f := fun i s => if (let p := (tileOf s (16 * q + i)).port;
      p.state = .prepare && p.bref = .atCode && !p.pclk) then startClock (16 * q + i) s else s)
    (fun i s => DevHeld.ite (startClock_devHeld _ s) (DevHeld.refl s)) (List.range 16)
    (modQuad q (fun x => { x with locked := true, down := false }) s)
  have hquad (r : Nat) : quadOf (lockQuad q s) r = quadOf (modQuad q (fun x => { x with locked := true, down := false }) s) r :=
    congrArg (fun v => vget v r Quad.reset) hquads
  refine ⟨?_, fun r hr => ?_, hdev⟩
  · rw [hquad, quadOf_modQuad_same hq]
  · rw [hquad, quadOf_modQuad_ne hr]

/-- Each quadrant of a list is locked, and none loses its lock. -/
theorem forEach_lockQuad_eqs {l : List Nat} (hl : ∀ q ∈ l, q < 4) (s : State) : (forEach l lockQuad s).dev = s.dev ∧
    ∀ q : Nat, (q ∈ l ∨ (quadOf s q).locked = true) → (quadOf (forEach l lockQuad s) q).locked = true := by
  induction l generalizing s with
  | nil => exact ⟨rfl, fun q h => h.resolve_left List.not_mem_nil⟩
  | cons r l ih =>
    obtain ⟨hlock, hne, hdev⟩ := lockQuad_eqs (hl r List.mem_cons_self) s
    obtain ⟨hd, hq⟩ := ih (fun q h => hl q (List.mem_cons_of_mem _ h)) (lockQuad r s)
    refine ⟨hd.trans hdev, fun q h => hq q ?_⟩
    by_cases e : q = r
    · subst e
      exact .inr hlock
    · rw [hne q e]
      rcases h with hm | hm
      · exact .inl ((List.mem_cons.1 hm).resolve_left e)
      · exact .inr hm

/-- Settles O44: LOW is entered and left at the tick, and its reply waits. -/
theorem lowEnteredAndLeft : Obligations.LowEnteredAndLeft := by
  refine ⟨fun h s hp hb hr => ⟨_, rfl, ?_⟩, fun h s hp hsr ht hall => congrArg Host.Outcome.next ?_, fun h s hp => ⟨_, rfl, ?_⟩,
    fun h s hp ht => ⟨_, rfl, ?_⟩⟩
  · have e : powerState h true s = enterLow h (counted s) := by
      unfold powerState
      rw [runAtTick_of_running (.inl hp), show (counted s).dev.power = .parked from hp]
      exact if_neg (by rw [show lowBusy (counted s) = lowBusy s from rfl, hb]; simp)
    obtain ⟨k, ek⟩ := noteEntry_onlyKeep s.dev.power (powerState h true s)
    obtain ⟨hdev, hself, hdram, hcfg⟩ := enterLow_eqs h (s := counted s) hr
    rw [ek, e]
    dsimp only
    rw [hdev, hdram, hcfg]
    exact ⟨rfl, rfl, rfl, hself, rfl, rfl⟩
  · have hl : ((List.range 64).all fun t => (tileOf s t).port.state = .off && (tileOf s t).port.bref = .off) = true := by
      rw [List.all_eq_true]
      intro n hn
      obtain ⟨h1, h2⟩ := hall ⟨n, List.mem_range.1 hn⟩
      simp [h1, h2]
    unfold lowReached
    rw [if_pos (by simp only [hp, hsr, hl]; rfl)]
    unfold endTransition
    rw [ht]
    rfl
  · have e : powerState h false s = modDev (fun d => { d with transition := some h }) (leaveLow .parked (counted s)) := by
      unfold powerState
      rw [runAtTick_of_live (by simp [hp]) (by simp [hp]), show (counted s).dev.power = .low from hp]
    obtain ⟨k, ek⟩ := noteEntry_onlyKeep s.dev.power (powerState h false s)
    obtain ⟨hdev, hself, hdram, hcfg⟩ := leaveLow_eqs .parked (counted s)
    rw [ek, e]
    dsimp only
    rw [modDev_dev, modDev_memc, modDev_dram, modDev_cfg, hdev, hdram, hcfg]
    exact ⟨rfl, rfl, hself, rfl, rfl⟩
  · unfold lowExitDone
    rw [if_neg (by simp [hp])]
    obtain ⟨hdev, hlock⟩ := forEach_lockQuad_eqs (l := (List.range 4).filter fun q => (quadOf s q).down)
      (fun q hq => List.mem_range.1 (List.mem_filter.1 hq).1) s
    obtain ⟨d, -, -, -, hq⟩ := endTransition_eqs (forEach ((List.range 4).filter fun q => (quadOf s q).down) lockQuad s)
    rw [d, hdev]
    refine ⟨rfl, hp, fun q hd => ?_⟩
    rw [quadOf, hq]
    exact hlock q.val (.inl (List.mem_filter.2 ⟨List.mem_range.2 q.isLt, hd⟩))

end Sys2Proof.Proofs
end

section
/-! PROOFS. The quadrants' events and the fundamental resets (O50, O51). -/
namespace Sys2Proof.Proofs

open Sys2Proof Sys2Proof.Machine Sys2Proof.Laws

@[simp] theorem ite_err (c : Prop) [Decidable c] (s t : State) :
    (if c then s else t).err = if c then s.err else t.err := apply_ite _ _ _ _

/-- What the start of a pixel clock leaves. -/
@[simp] abbrev ErrHeld (s t : State) : Prop :=
  t.err = s.err ∧ t.dram = s.dram ∧ t.tick = s.tick

theorem ErrHeld.refl (s : State) : ErrHeld s s := ⟨rfl, rfl, rfl⟩

theorem ErrHeld.trans {s t u : State} (a : ErrHeld s t) (b : ErrHeld t u) : ErrHeld s u := by
  simp_all

theorem ErrHeld.ite {c : Prop} [Decidable c] {s t u : State} (ht : ErrHeld s t) (hu : ErrHeld s u) :
    ErrHeld s (if c then t else u) := by
  split
  · exact ht
  · exact hu

@[simp] theorem forEach_errHeld {α : Type} {f : α → State → State} (h : ∀ a s, ErrHeld s (f a s)) (l : List α) (s : State) :
    ErrHeld s (forEach l f s) :=
  forEach_invariant (P := ErrHeld s) (fun a _ hs => hs.trans (h a _)) l s (ErrHeld.refl s)

@[simp] theorem foldl_errHeld {α : Type} {f : State → α → State} (h : ∀ s a, ErrHeld s (f s a)) (l : List α) (s : State) :
    ErrHeld s (l.foldl f s) := forEach_errHeld (f := fun a s => f s a) (fun a s => h s a) l s

@[simp] theorem parkPulse_errHeld (t) (s : State) : ErrHeld s (parkPulse t s) := by simp [parkPulse]

@[simp] theorem idleDacs_errHeld (t) (s : State) : ErrHeld s (idleDacs t s) := by simp [idleDacs]

@[simp] theorem finishList_errHeld (t wait) (s : State) : ErrHeld s (finishList t wait s) := by simp [finishList]

@[simp] theorem startClock_errHeld (t) (s : State) : ErrHeld s (startClock t s) := by simp [startClock]

/-! ### The quadrants -/

theorem forEach_map {α β : Type} (g : α → β) (f : β → State → State) (l : List α) (s : State) :
    forEach l (fun a => f (g a)) s = forEach (l.map g) f s := by
  unfold forEach
  rw [List.foldl_map]

/-- The tiles of a quadrant. -/
theorem nodup_quadTiles (q : Nat) : ((List.range 16).map (16 * q + ·)).Nodup :=
  List.nodup_range.map fun a b h => by simpa using h

/-- A tile whose frame is being read carries the loss of its quadrant's PLL. -/
def unlocked (x : Tile) : Tile :=
  if x.lane.work.mode ≠ .idle && x.lane.work.row < 776 && !x.lane.work.done then
    { x with port := { x.port with causeNow := setBit x.port.causeNow 0, losSticky := setBit x.port.losSticky 0 } }
  else x

/-- Each tile of the quadrant is judged once. -/
theorem tileOf_forEach_unlockTile (q : Nat) {n : Nat} (hn : n < 64) (h : n / 16 = q) (s : State) :
    tileOf (forEach (List.range 16) (fun i => unlockTile (16 * q + i)) s) n = unlocked (tileOf s n) := by
  rw [forEach_map (fun i => 16 * q + i) unlockTile]
  have hmem : n ∈ (List.range 16).map (16 * q + ·) :=
    List.mem_map.2 ⟨n % 16, List.mem_range.2 (by omega), by omega⟩
  exact (tileOf_forEach_modTile (f := fun _ => unlocked) (nodup_quadTiles q) hn s).trans (if_pos hmem)

/-- The crossing of a lane with a frame in progress. -/
theorem crossTiles_lane {i : Fin 64} {s : State} (hm : (tileOf s i.val).lane.work.mode = .read)
    (hd : (tileOf s i.val).lane.work.done = false) : crossTiles s (.lane i) = setBit 0 i.val := by
  unfold crossTiles
  simp [hm, hd]

theorem quadOf_ofFn (f : Fin 4 → Quad) (q : Fin 4) (s : State) : quadOf { s with quads := Vector.ofFn f } q.val = f q := by
  simp [quadOf, vget]

theorem lockQuad_errHeld (q : Nat) (s : State) : ErrHeld s (lockQuad q s) := by
  unfold lockQuad
  exact forEach_errHeld (fun i s => ErrHeld.ite (startClock_errHeld _ s) (ErrHeld.refl s)) (List.range 16)
    (modQuad q (fun x => { x with locked := true, down := false }) s)

theorem lockQuad_down {q : Nat} (hq : q < 4) (s : State) : (quadOf (lockQuad q s) q).down = false := by
  obtain ⟨-, -, -, hquads, -⟩ := forEach_devHeld (f := fun i s => if (let p := (tileOf s (16 * q + i)).port;
      p.state = .prepare && p.bref = .atCode && !p.pclk) then startClock (16 * q + i) s else s)
    (fun i s => DevHeld.ite (startClock_devHeld _ s) (DevHeld.refl s)) (List.range 16)
    (modQuad q (fun x => { x with locked := true, down := false }) s)
  have hquad : quadOf (lockQuad q s) q = quadOf (modQuad q (fun x => { x with locked := true, down := false }) s) q :=
    congrArg (fun v => vget v q Quad.reset) hquads
  rw [hquad, quadOf_modQuad_same hq]

theorem quadOf_raiseErrs (l : List ErrRec) (s : State) (q : Nat) : quadOf (raiseErrs l s) q = quadOf s q := by
  simp only [quadOf, raiseErrs_quads]

/-- Each supply shows its value and whether it lies within its limits. -/
theorem vddaMeasure_eqs (mv : Vector (BitVec 16) 4) (s : State) : (vddaMeasure mv s).tick = s.tick ∧
    ∀ q : Fin 4, (quadOf (vddaMeasure mv s) q.val).mv = mv[q] ∧
      (quadOf (vddaMeasure mv s) q.val).supplyOk = some (vddaOk mv[q]) := by
  unfold vddaMeasure
  dsimp only
  rw [raiseErrs_tick]
  refine ⟨rfl, fun q => ?_⟩
  rw [quadOf_raiseErrs, quadOf_ofFn]
  exact ⟨rfl, rfl⟩

theorem noteQuads_eqs (f : Fin 4 → Quad) (g : Dev → Dev) (s : State) :
    (modDev g { s with quads := Vector.ofFn f }).tick = s.tick ∧
      ∀ q : Fin 4, quadOf (modDev g { s with quads := Vector.ofFn f }) q.val = f q := by
  refine ⟨rfl, fun q => ?_⟩
  have e : (modDev g { s with quads := Vector.ofFn f }).quads = Vector.ofFn f := rfl
  rw [quadOf, e, ← quadOf_ofFn f q s, quadOf]

/-- Each quadrant shows its temperature. -/
theorem qtempMeasure_eqs (v : Vector Word 4) (s : State) : (qtempMeasure v s).tick = s.tick ∧
    ∀ q : Fin 4, (quadOf (qtempMeasure v s) q.val).temp = v[q] := by
  unfold qtempMeasure
  extract_lets w hot cool far was note t
  obtain ⟨ht, hq⟩ : t.tick = s.tick ∧ ∀ q : Fin 4, quadOf t q.val = note s.quads[q] v[q] :=
    noteQuads_eqs _ _ s
  have hn (x : Quad) (y : Word) : (note x y).temp = y := rfl
  clear_value t far was note hot cool w
  have hr : ∀ e, (raiseErr e t).tick = s.tick ∧ ∀ q : Fin 4, (quadOf (raiseErr e t) q.val).temp = v[q] := by
    intro e
    unfold raiseErr
    rw [raiseErrs_tick]
    refine ⟨ht, fun q => ?_⟩
    rw [quadOf_raiseErrs, hq, hn]
  split
  · exact hr _
  · exact ⟨ht, fun q => by rw [hq, hn]⟩

/-- Settles O50: each event writes its quadrant, or the tick's mark of the crossing. -/
theorem quadrantEvents : Obligations.QuadrantEvents := by
  refine ⟨fun q s => ⟨_, rfl, ?_⟩, fun q s => ⟨_, rfl, ?_⟩, fun i s hm hd => ⟨_, rfl, ?_⟩,
    fun mv s hr => ⟨_, congrArg Host.Outcome.next (if_pos hr), vddaMeasure_eqs mv s⟩,
    fun v s hr => ⟨_, congrArg Host.Outcome.next (if_pos hr), qtempMeasure_eqs v s⟩⟩
  · have htile (i : Fin 64) (hi : i.val / 16 = q.val) :=
      tileOf_forEach_unlockTile q.val i.isLt hi (modQuad q.val (fun x => { x with locked := false }) s)
    obtain ⟨x, ex⟩ := onlyTiles_forEach_modTile (f := fun _ => unlocked) ((List.range 16).map (16 * q.val + ·))
      (modQuad q.val (fun x => { x with locked := false }) s)
    have e := (forEach_map (fun i => 16 * q.val + i) unlockTile (List.range 16)
      (modQuad q.val (fun x => { x with locked := false }) s)).trans ex
    rw [e] at htile ⊢
    refine ⟨?_, rfl, rfl, fun i hi h1 h2 h3 => ?_⟩
    · show (quadOf (modQuad q.val (fun x => { x with locked := false }) s) q.val).locked = false
      rw [quadOf_modQuad_same q.isLt]
    · rw [htile i hi, unlocked, if_pos (by
        show (decide ((tileOf s i.val).lane.work.mode ≠ .idle) && decide ((tileOf s i.val).lane.work.row < 776) &&
          !(tileOf s i.val).lane.work.done) = true
        simp [h1, h2, h3])]
      exact ⟨rfl, rfl⟩
  · obtain ⟨herr, hdram, -⟩ := lockQuad_errHeld q.val s
    exact ⟨(lockQuad_eqs q.isLt s).1, lockQuad_down q.isLt s, hdram, herr⟩
  · unfold crossing
    rw [crossTiles_lane hm hd]
    dsimp only
    rw [raiseErr_dram, raiseErr_tick]
    exact ⟨rfl, rfl⟩

/-! ### Fundamental resets -/

/-- Settles O51: each reset is `mainReset` of the keeping store as its supply leaves it. -/
theorem fundamentalResets : Obligations.FundamentalResets := by
  refine ⟨fun c i s hc => ?_, fun s => ⟨_, rfl, rfl, rfl, rfl, rfl, rfl, rfl, rfl, rfl⟩, fun s b p hb hp hne => ?_⟩
  · have e : exec c s = .next (fundamental i s) := by
      rcases hc with ⟨rfl, rfl⟩ | ⟨rfl, rfl⟩ | ⟨rfl, rfl⟩ <;> rfl
    exact ⟨_, e, rfl, rfl, rfl, rfl, rfl, rfl, rfl, rfl, rfl, rfl, rfl⟩
  · have hk : keepPowerLoss .marked s.keep = { keepMainReset s.keep with
        settled := false, voided := [], current := none, jPage := BitVec.ofNat 12 p.1, jStatus := decide (p.1 = statusPage),
        jData := p.2, jWritten := true, jMarker := true, jGood := true } := by
      unfold keepPowerLoss
      rw [hb]
      dsimp only
      rw [hp]
    refine ⟨_, rfl, ?_⟩
    show (keepPowerLoss .marked s.keep).settled = false ∧ (keepPowerLoss .marked s.keep).jMarker = true ∧
      (keepPowerLoss .marked s.keep).jGood = true ∧ (keepPowerLoss .marked s.keep).jData = p.2 ∧
      (keepPowerLoss .marked s.keep).array = s.keep.array
    rw [hk]
    exact ⟨rfl, rfl, rfl, rfl, rfl⟩

end Sys2Proof.Proofs
end

section
/-! PROOFS. The streams' deliveries (12 R296 to R303). -/
namespace Sys2Proof.Proofs

open Sys2Proof Sys2Proof.Machine Sys2Proof.Laws

/-! ### The consumer registers -/

theorem barAccess_of_live {s : State} (h : s.host.flr = false) (f : State → State) : barAccess f s = f s := by
  unfold barAccess
  rw [h]
  rfl

/-- The registers take a value that the stream has reached, and mark any other. -/
theorem consumerWrites (m : Fin 32) (v : Word) (s : State) (hflr : s.host.flr = false) :
    let x := streamOf s m.val
    ((x.prod - v).toNat < 2 ^ 31 → exec (.hostStrConsWrite m v) s = .next { s with
      host := { s.host with streams := vmod s.host.streams m.val fun x => { x with cons := v } } }) ∧
    (2 ^ 31 ≤ (x.prod - v).toNat →
      exec (.hostStrConsWrite m v) s = .next { s with host := { s.host with consBad := true } }) ∧
    exec (.hostStrConsCurWrite m false v) s = .next { s with
      host := { s.host with streams := vmod s.host.streams m.val fun x => { x with consCurLo := v } } } ∧
    ((pair64 x.consCurLo v).toNat ≤ x.w.toNat → exec (.hostStrConsCurWrite m true v) s = .next { s with
      host := { s.host with streams := vmod s.host.streams m.val fun x =>
        { x with consCur := pair64 (streamOf s m.val).consCurLo v } } }) ∧
    (x.w.toNat < (pair64 x.consCurLo v).toNat →
      exec (.hostStrConsCurWrite m true v) s = .next { s with host := { s.host with consBad := true } }) := by
  intro x
  have hlo : exec (.hostStrConsWrite m v) s = .next (writeStrCons m.val v s) :=
    congrArg Host.Outcome.next (barAccess_of_live hflr _)
  have hcur (hi : Bool) : exec (.hostStrConsCurWrite m hi v) s = .next (writeConsCur m.val hi v s) :=
    congrArg Host.Outcome.next (barAccess_of_live hflr _)
  refine ⟨fun h => hlo.trans ?_, fun h => hlo.trans ?_, hcur false, fun h => (hcur true).trans ?_,
    fun h => (hcur true).trans ?_⟩
  · exact congrArg Host.Outcome.next (if_pos h)
  · exact congrArg Host.Outcome.next (if_neg (Nat.not_lt.2 h))
  · exact congrArg Host.Outcome.next (if_pos h)
  · exact congrArg Host.Outcome.next (if_neg (Nat.not_le.2 h))

/-! ### The start of a delivery -/

theorem deliveryStarts (m : Fin 32) (s : State) (b : Bank) (age : Nat) (f : Sfn)
    (hopen : streamOpen s m.val = some (b, age, f)) (hnone : (streamOf s m.val).delivery = none)
    (hturn : age = 1 ∨ lowerDone s m.val = true) : exec (.deliveryStart m) s = .next (
      if !canIssue s || !streamFits s b m.val (fMax b m.val) then dropFrame m.val s
      else modStream m.val (fun x => { x with
        delivery := some { sfn := f, start := (streamOf s m.val).w.toNat, len := if age = 1 then 0 else fMax b m.val },
        w := if age = 1 then x.w else x.w + BitVec.ofNat 64 (fMax b m.val) }) s) := by
  show Host.Outcome.next (startDelivery m.val s) = _
  unfold startDelivery
  rw [hopen]
  dsimp only
  rw [hnone, if_neg]
  rcases hturn with h | h <;> simp [h]

/-! ### The end of a delivery -/

/-- What posting an entry changes of its stream. -/
def posted (q : Nat) (x : Stream) : Stream :=
  { x with prod := x.prod + 1, dropSince := 0, sinceIrq := q, entries := x.entries + 1 }

theorem extentWrite_only {β : Type} {g : State → β} (hg : BlindOut g) (b : Bank) (m : Nat) (ro : Bool) (w : Nat)
    (bs : List Byte) (s : State) : g (extentWrite b m ro w bs s) = g s :=
  (hostWriteRo_only hg _ _ _ _).trans (hostWriteRo_only hg _ _ _ _)

theorem modStream_only {β : Type} {g : State → β} (hg : BlindPost g) (m : Nat) (f : Stream → Stream) (s : State) :
    g (modStream m f s) = g s := hg s s.out _ s.cmdq

theorem streamOf_sendVector (v : Nat) (s : State) (m : Nat) : streamOf (sendVector v s) m = streamOf s m := by
  obtain ⟨p, e⟩ := sendVector_sameHost v s
  rw [streamOf, e, streamOf]

theorem postExtent_only {β : Type} {g : State → β} (hg : BlindPost g) (b : Bank) (m : Nat) (h : Head) (start len : Nat)
    (s : State) : g (postExtent b m h start len s) = g s := by
  unfold postExtent
  extract_lets x fl s₁ ef s₂ s₃ n due s₄
  have h₄ : g s₄ = g s := (modStream_only hg _ _ s₃).trans ((hostWrite_only hg.out _ _ _).trans
    ((hostWrite_only hg.out _ _ _).trans (extentWrite_only hg.out _ _ _ _ _ _)))
  split
  · exact (sendVector_only hg.out hg.host _ _).trans h₄
  · exact h₄

/-- An entry posted: PROD goes on by one, and DROP starts from 0. -/
theorem streamOf_postExtent {m : Nat} (hm : m < 32) (b : Bank) (h : Head) (start len : Nat) (s : State) :
    ∃ q, streamOf (postExtent b m h start len s) m = posted q (streamOf s m) := by
  unfold postExtent
  extract_lets x fl s₁ ef s₂ s₃ n due s₄
  have h₃ : s₃.host = s.host := (hostWrite_host _ _ _).trans ((hostWrite_host _ _ _).trans
    (extentWrite_only (g := fun s => s.host) (fun _ _ => rfl) _ _ _ _ _ _))
  clear_value s₃ n due
  have h₄ : streamOf s₄ m = posted (if due then 0 else n) (streamOf s m) := by
    have e : streamOf s₃ m = streamOf s m := by rw [streamOf, h₃, streamOf]
    have e₄ : s₄ = modStream m (posted (if due then 0 else n)) s₃ := rfl
    rw [e₄, streamOf_modStream_same hm, e]
  refine ⟨if due then 0 else n, ?_⟩
  clear_value s₄
  generalize (if due then 0 else n) = k at h₄ ⊢
  split
  · exact (streamOf_sendVector _ _ _).trans h₄
  · exact h₄

/-- What the end of a frame's delivery does, once its data is read (12 R296). -/
def endFrame (m : Nat) (b : Bank) (f : Sfn) (d : Delivery) (s : State) : State :=
  let p := payloadOf s b m
  let s := modStream m (fun x => { x with delivery := none, doneNow := true }) s
  let s := extentWrite b m (Bank.strRo b m && s.host.roEn) (d.start + 128)
    (p ++ List.replicate (d.len - 128 - p.length) 0) s
  postExtent b m (frameHead s b m 2 f p.length 0) d.start d.len s

/-- What the end of an EVENT delivery does, whose extent is placed only now (12 R298). -/
def endEvents (m : Nat) (b : Bank) (f : Sfn) (d : Delivery) (s : State) : State :=
  let p := eventPayload s b m
  let len := pad128 (128 + p.length)
  let s := modStream m (fun x => { x with w := x.w + BitVec.ofNat 64 len, delivery := none, doneNow := true }) s
  let s := extentWrite b m (Bank.strRo b m && s.host.roEn) (d.start + 128 + p.length)
    (List.replicate (len - 128 - p.length) 0) s
  postExtent b m (frameHead s b m 1 f p.length (p.length / 32)) d.start len s

theorem endDelivery_of_ready {m : Nat} {s : State} {b : Bank} {age : Nat} {f : Sfn} {d : Delivery}
    (hits : List (Nat × EccHit)) (hopen : streamOpen s m = some (b, age, f)) (hdel : (streamOf s m).delivery = some d)
    (hready : (!canIssue s || !memServes s || s.memc.quiet || (age = 1 && !emittersEnded s b)
      || spansWait s 8 (payloadSpans s b m)) = false) :
    endDelivery m hits s = if (traffic 8 hits (payloadSpans s b m) s).memc.frozen then traffic 8 hits (payloadSpans s b m) s
      else if age = 1 then endEvents m b f d (traffic 8 hits (payloadSpans s b m) s)
      else endFrame m b f d (traffic 8 hits (payloadSpans s b m) s) := by
  unfold endDelivery
  rw [hopen, hdel]
  exact if_neg (by rw [hready]; exact Bool.false_ne_true)

/-- A stream's delivery ended: its entry is posted, and nothing of DRAM or the tick moves. -/
theorem endFrame_eqs {m : Nat} (hm : m < 32) (b : Bank) (f : Sfn) (d : Delivery) (s : State) :
    (∃ q, streamOf (endFrame m b f d s) m = posted q { streamOf s m with delivery := none, doneNow := true }) ∧
      (endFrame m b f d s).dram = s.dram ∧ (endFrame m b f d s).tick = s.tick := by
  unfold endFrame
  extract_lets p s₁ s₂
  have hs : streamOf s₁ m = { streamOf s m with delivery := none, doneNow := true } := streamOf_modStream_same hm _ s
  have hd : s₁.dram = s.dram := rfl
  have ht : s₁.tick = s.tick := rfl
  have e {β : Type} {g : State → β} (hg : BlindOut g) : g s₂ = g s₁ := extentWrite_only hg _ _ _ _ _ _
  clear_value s₂ s₁
  obtain ⟨q, hq⟩ := streamOf_postExtent hm b (frameHead s₂ b m 2 f p.length 0) d.start d.len s₂
  refine ⟨⟨q, ?_⟩, ?_, ?_⟩
  · rw [hq, e (g := fun s => streamOf s m) (fun _ _ => rfl), hs]
  · rw [postExtent_only (g := fun s => s.dram) (fun _ _ _ _ => rfl), e (g := fun s => s.dram) (fun _ _ => rfl), hd]
  · rw [postExtent_only (g := fun s => s.tick) (fun _ _ _ _ => rfl), e (g := fun s => s.tick) (fun _ _ => rfl), ht]

theorem endEvents_eqs {m : Nat} (hm : m < 32) (b : Bank) (f : Sfn) (d : Delivery) (s : State) :
    (∃ q, streamOf (endEvents m b f d s) m = posted q { streamOf s m with
      w := (streamOf s m).w + BitVec.ofNat 64 (pad128 (128 + (eventPayload s b m).length)),
      delivery := none, doneNow := true }) ∧
      (endEvents m b f d s).dram = s.dram ∧ (endEvents m b f d s).tick = s.tick := by
  unfold endEvents
  extract_lets p len s₁ s₂
  have hs : streamOf s₁ m = { streamOf s m with
      w := (streamOf s m).w + BitVec.ofNat 64 len, delivery := none, doneNow := true } := streamOf_modStream_same hm _ s
  have hd : s₁.dram = s.dram := rfl
  have ht : s₁.tick = s.tick := rfl
  have e {β : Type} {g : State → β} (hg : BlindOut g) : g s₂ = g s₁ := extentWrite_only hg _ _ _ _ _ _
  clear_value s₂ s₁
  obtain ⟨q, hq⟩ := streamOf_postExtent hm b (frameHead s₂ b m 1 f p.length (p.length / 32)) d.start len s₂
  refine ⟨⟨q, ?_⟩, ?_, ?_⟩
  · rw [hq, e (g := fun s => streamOf s m) (fun _ _ => rfl), hs]
  · rw [postExtent_only (g := fun s => s.dram) (fun _ _ _ _ => rfl), e (g := fun s => s.dram) (fun _ _ => rfl), hd]
  · rw [postExtent_only (g := fun s => s.tick) (fun _ _ _ _ => rfl), e (g := fun s => s.tick) (fun _ _ => rfl), ht]

/-- With the memory idle, the reads of a delivery leave it as it is. -/
theorem traffic_idle {s : State} (hidle : MemoryIdle s) {hits : List (Nat × EccHit)}
    (hits_ok : Correctable hits) (port : Nat) (l : List Span) :
    OnlyPorts s (traffic port hits l s) ∧ (traffic port hits l s).memc.frozen = false := by
  have h := onlyPorts_traffic port hits l s hidle.2.2 hits_ok
  obtain ⟨-, -, hmem, -⟩ := h.keeps
  exact ⟨h, (hmem hidle).2.1⟩

theorem deliveryEnds (m : Fin 32) (s : State) (b : Bank) (age : Nat) (f : Sfn) (d : Delivery) (hits : List (Nat × EccHit))
    (hopen : streamOpen s m.val = some (b, age, f)) (hdel : (streamOf s m.val).delivery = some d)
    (hcan : canIssue s = true) (hserves : memServes s = true) (hidle : MemoryIdle s) (hok : Correctable hits)
    (hend : age = 1 → emittersEnded s b = true) :
    ∃ t, exec (.deliveryEnd m hits) s = .next t ∧ (streamOf t m.val).prod = (streamOf s m.val).prod + 1 ∧
      (streamOf t m.val).dropSince = 0 ∧ (streamOf t m.val).delivery = none ∧
      (streamOf t m.val).w = (if age = 1 then (streamOf s m.val).w
        + BitVec.ofNat 64 (pad128 (128 + (eventPayload s b m.val).length)) else (streamOf s m.val).w) ∧
      (streamOf t m.val).doneNow = true ∧ t.dram = s.dram ∧ t.tick = s.tick := by
  have hready : (!canIssue s || !memServes s || s.memc.quiet || (age = 1 && !emittersEnded s b)
      || spansWait s 8 (payloadSpans s b m.val)) = false := by
    rw [hcan, hserves, hidle.1, spansWait_idle hidle.2.2]
    by_cases h : age = 1
    · simp [hend h]
    · simp [h]
  obtain ⟨honly, hfrozen⟩ := traffic_idle hidle hok 8 (payloadSpans s b m.val)
  refine ⟨_, congrArg Host.Outcome.next (endDelivery_of_ready hits hopen hdel hready), ?_⟩
  rw [hfrozen, if_neg Bool.false_ne_true]
  obtain ⟨p, c, e⟩ := honly
  rw [e]
  by_cases h : age = 1
  · rw [if_pos h, if_pos h]
    obtain ⟨⟨q, hs⟩, hd, ht⟩ := endEvents_eqs m.isLt b f d { s with memc := { s.memc with ports := p }, memch := c }
    rw [hs, hd, ht]
    exact ⟨rfl, rfl, rfl, rfl, rfl, rfl, rfl⟩
  · rw [if_neg h, if_neg h]
    obtain ⟨⟨q, hs⟩, hd, ht⟩ := endFrame_eqs m.isLt b f d { s with memc := { s.memc with ports := p }, memch := c }
    rw [hs, hd, ht]
    exact ⟨rfl, rfl, rfl, rfl, rfl, rfl, rfl⟩

/-! ### The hold buffer's next part -/

/-- The part posted, once it is known to fit (12 R301): `n` pieces of `rest` behind `head`. -/
def sendPart (b : Bank) (m : Nat) (f : HoldFrame) (hits : List (Nat × EccHit)) (s : State) : State :=
  let ps := framePieces s b f.no
  let rest := ps.drop s.hold.piecesSent
  let head := if s.hold.part = 0 then indexEntry f else []
  let n := partPieces (Bank.strParam b m) head.length rest
  let data := head ++ (rest.take n).flatMap fun p => holdRead s b p.1 p.2
  let len := pad128 (128 + data.length)
  let last := decide (rest.length ≤ n)
  let fl := f.frameFlags ||| (if s.hold.part = 0 then 0x100#32 else 0) ||| (if last then 0x200#32 else 0)
  let h : Head := { sfn := f.sfn, flags := fl, devTime := (s.tick.stamps.getD 0 (0, 0)).1, nTiles := 0,
                    payload := data.length, period := f.period, count := n, part := s.hold.part,
                    status := holdStatus s b ps }
  let start := (streamOf s m).w.toNat
  let s := traffic 8 hits ((rest.take n).flatMap fun p => ringSpans b p.1 p.2 false) s
  if s.memc.frozen then s else
  let s := modStream m (fun x => { x with w := x.w + BitVec.ofNat 64 len, waiting := false }) s
  let s := extentWrite b m (Bank.strRo b m && s.host.roEn) (start + 128)
    (data ++ List.replicate (len - 128 - data.length) 0) s
  let s := postExtent b m h start len s
  let left := if last then s.hold.toSend - 1 else s.hold.toSend
  modHold (fun x => { x with sentNow := x.sentNow + len, toSend := left, delivering := decide (left ≠ 0),
                             part := if last then 0 else x.part + 1,
                             piecesSent := if last then 0 else x.piecesSent + n }) s

/-- Nothing but what follows must hold for the part to be sent. -/
theorem holdPart_of_turn {s : State} {b : Bank} {m : Nat} {f : HoldFrame} (hits : List (Nat × EccHit))
    (hact : activeSet s = some b) (hstream : holdStream b = some m)
    (hframe : s.hold.retained[s.hold.retained.length - s.hold.toSend]? = some f)
    (hturn : (!s.hold.delivering || s.hold.waitNow || !((List.range 32).all fun j =>
        match streamOpen s j with | some (_, age, _) => age = 1 | none => true)
      || !(s.dev.power = .imaging || s.dev.power = .parked) || !memServes s || s.memc.quiet
      || s.tick.period.toNat < s.clock.now - s.clock.lastTick + 100000) = false) (hcan : canIssue s = true) :
    let rest := (framePieces s b f.no).drop s.hold.piecesSent
    let head := if s.hold.part = 0 then indexEntry f else []
    let n := partPieces (Bank.strParam b m) head.length rest
    let len := pad128 (128 + (head ++ (rest.take n).flatMap fun p => holdRead s b p.1 p.2).length)
    s.hold.sentNow + len ≤ Bank.strParam b m → streamFits s b m len = true →
    holdPart hits s = sendPart b m f hits s := by
  intro rest head n len hlen hfits
  unfold holdPart
  rw [hact]
  dsimp only
  rw [hstream, hframe]
  refine (if_neg (by rw [Bool.not_eq_true]; exact hturn)).trans ((if_neg (Nat.not_lt.2 hlen)).trans ((if_neg ?_).trans rfl))
  rw [hcan, hfits]
  exact Bool.false_ne_true

/-- The part's entry is posted behind its extent, and the record goes on by its pieces. -/
theorem sendPart_eqs {m : Nat} (hm : m < 32) (b : Bank) (f : HoldFrame) {hits : List (Nat × EccHit)} {s : State}
    (hidle : MemoryIdle s) (hok : Correctable hits) {t : State} (ht : sendPart b m f hits s = t) :
    let rest := (framePieces s b f.no).drop s.hold.piecesSent
    let head := if s.hold.part = 0 then indexEntry f else []
    let n := partPieces (Bank.strParam b m) head.length rest
    let len := pad128 (128 + (head ++ (rest.take n).flatMap fun p => holdRead s b p.1 p.2).length)
    (streamOf t m).prod = (streamOf s m).prod + 1 ∧ (streamOf t m).w = (streamOf s m).w + BitVec.ofNat 64 len ∧
      t.hold.sentNow = s.hold.sentNow + len ∧
      t.hold.toSend = (if rest.length ≤ n then s.hold.toSend - 1 else s.hold.toSend) ∧
      t.hold.retained = s.hold.retained ∧ t.dram = s.dram := by
  intro rest' head n' len'
  unfold sendPart at ht
  extract_lets ps rest n data len last fl h start u v w x left at ht
  obtain ⟨honly, hfrozen⟩ := traffic_idle hidle hok 8 ((rest.take n).flatMap fun p => ringSpans b p.1 p.2 false)
  have hu : u.hold = s.hold ∧ streamOf u m = streamOf s m ∧ u.dram = s.dram := by
    obtain ⟨p, c, e⟩ := honly
    have eu : u = { s with memc := { s.memc with ports := p }, memch := c } := e
    rw [eu]
    exact ⟨rfl, rfl, rfl⟩
  have hfro : u.memc.frozen = false := hfrozen
  obtain ⟨hhold, hstr, hdram⟩ := hu
  clear_value u
  rw [hfro, if_neg Bool.false_ne_true] at ht
  have hv : streamOf v m = { streamOf u m with w := (streamOf u m).w + BitVec.ofNat 64 len, waiting := false } :=
    streamOf_modStream_same hm _ u
  have hvh : v.hold = u.hold := rfl
  have hvd : v.dram = u.dram := rfl
  have hw {β : Type} {g : State → β} (hg : BlindOut g) : g w = g v := extentWrite_only hg _ _ _ _ _ _
  have hx {β : Type} {g : State → β} (hg : BlindPost g) : g x = g w := postExtent_only hg _ _ _ _ _ _
  obtain ⟨q, hq⟩ : ∃ q, streamOf x m = posted q (streamOf w m) := streamOf_postExtent hm _ _ _ _ _
  have hxs : streamOf x m = posted q { streamOf s m with w := (streamOf s m).w + BitVec.ofNat 64 len, waiting := false } := by
    rw [hq, hw (g := fun s => streamOf s m) (fun _ _ => rfl), hv, hstr]
  have hxh : x.hold = s.hold := by
    rw [hx (g := fun s => s.hold) (fun _ _ _ _ => rfl), hw (g := fun s => s.hold) (fun _ _ => rfl), hvh, hhold]
  have hxd : x.dram = s.dram := by
    rw [hx (g := fun s => s.dram) (fun _ _ _ _ => rfl), hw (g := fun s => s.dram) (fun _ _ => rfl), hvd, hdram]
  have ht' : t = modHold (fun y => { y with
      sentNow := y.sentNow + len, toSend := left, delivering := decide (left ≠ 0),
      part := if last then 0 else y.part + 1, piecesSent := if last then 0 else y.piecesSent + n }) x := ht.symm
  have hts : streamOf t m = streamOf x m := by rw [ht']; rfl
  have hsent : t.hold.sentNow = x.hold.sentNow + len := by rw [ht']; rfl
  have hleft : t.hold.toSend = if last then x.hold.toSend - 1 else x.hold.toSend := by rw [ht']; rfl
  have hret : t.hold.retained = x.hold.retained := by rw [ht']; rfl
  have hdr : t.dram = x.dram := by rw [ht']; rfl
  rw [hts, hxs, hsent, hleft, hret, hdr, hxh, hxd]
  refine ⟨rfl, rfl, rfl, ?_, rfl, rfl⟩
  by_cases hl : rest.length ≤ n
  · exact (if_pos (decide_eq_true hl)).trans (if_pos hl).symm
  · exact (if_neg (by simpa [last] using hl)).trans (if_neg hl).symm

/-- The hold buffer's turn: every stream of frame k−2 is done, and the tick is far enough off. -/
theorem holdTurn {s : State}
    (hdelivering : s.hold.delivering = true) (hwait : s.hold.waitNow = false)
    (hdone : ∀ j < 32, match streamOpen s j with | some (_, age, _) => age = 1 | none => True)
    (hparked : s.dev.power = .parked) (hserves : memServes s = true) (hidle : MemoryIdle s)
    (htime : s.clock.now - s.clock.lastTick + 100000 ≤ s.tick.period.toNat) :
    (!s.hold.delivering || s.hold.waitNow || !((List.range 32).all fun j =>
        match streamOpen s j with | some (_, age, _) => age = 1 | none => true)
      || !(s.dev.power = .imaging || s.dev.power = .parked) || !memServes s || s.memc.quiet
      || s.tick.period.toNat < s.clock.now - s.clock.lastTick + 100000) = false := by
  have hall : ((List.range 32).all fun j =>
      match streamOpen s j with | some (_, age, _) => age = 1 | none => true) = true := by
    refine List.all_eq_true.2 fun j hj => ?_
    have h := hdone j (List.mem_range.1 hj)
    cases hj : streamOpen s j with
    | none => rfl
    | some x =>
      rw [hj] at h
      exact decide_eq_true h
  rw [hdelivering, hwait, hall, hparked, hserves, hidle.1]
  simpa using htime

/-- Settles O49: the registers, the start and end of a delivery, and the hold buffer's part, each by its own rule. -/
theorem streamsDeliver : Obligations.StreamsDeliver := by
  refine ⟨consumerWrites, fun m s b age f hopen hnone hturn => ?_, deliveryEnds, ?_⟩
  · have hstart := deliveryStarts m s b age f hopen hnone hturn
    refine ⟨fun hcan hfits hage => hstart.trans ?_, fun hcan hfits hage => hstart.trans ?_, fun h => hstart.trans ?_⟩
    · rw [hcan, hfits, if_neg hage, if_neg (by decide)]
      simp only [if_neg hage]
      rfl
    · rw [hcan, hfits, if_neg (by decide)]
      simp only [if_pos hage]
      rfl
    · rw [if_pos (by rcases h with h | h <;> simp [h])]
      rfl
  · intro s b m f hits hact hstream hframe hdelivering hwait hdone hparked hserves hidle hok htime hcan rest head n len hlen hfits
    exact ⟨_, congrArg Host.Outcome.next (holdPart_of_turn hits hact hstream hframe
      (holdTurn hdelivering hwait hdone hparked hserves hidle htime) hcan hlen hfits),
      sendPart_eqs m.isLt b f hidle hok rfl⟩

end Sys2Proof.Proofs
end

section
/-! PROOFS. Housekeeping and the parity error of the active bank (16 R365 to R374; 19 R425). -/
namespace Sys2Proof.Proofs

open Sys2Proof Sys2Proof.Machine Sys2Proof.Laws

/-! ### The converters -/

@[simp] theorem hkConvOf_modConv_same (c : Bool) (f : HkConv → HkConv) (s : State) :
    hkConvOf (modConv c f s) c = f (hkConvOf s c) := by
  cases c <;> rfl

@[simp] theorem modConv_slots (c : Bool) (f : HkConv → HkConv) (s : State) : (modConv c f s).hk.slots = s.hk.slots := by
  cases c <;> rfl

@[simp] theorem modConv_passRunning (c : Bool) (f : HkConv → HkConv) (s : State) :
    (modConv c f s).hk.passRunning = s.hk.passRunning := by
  cases c <;> rfl

@[simp] theorem modConv_tick (c : Bool) (f : HkConv → HkConv) (s : State) : (modConv c f s).tick = s.tick := rfl

/-- The value of an entry reads no more of a converter than its factors. -/
theorem hkEntryValue_modConv {f : HkConv → HkConv} (hofs : ∀ v, (f v).ofs = v.ofs) (hgain : ∀ v, (f v).gain = v.gain)
    (c : Bool) (s : State) (e : HkEntry) (sum : Nat) : hkEntryValue (modConv c f s) e sum = hkEntryValue s e sum := by
  have ho (d : Bool) : (hkConvOf (modConv c f s) d).ofs = (hkConvOf s d).ofs := by
    cases c <;> cases d <;> simp [hkConvOf, modConv, modHk, hofs]
  have hg (d : Bool) : (hkConvOf (modConv c f s) d).gain = (hkConvOf s d).gain := by
    cases c <;> cases d <;> simp [hkConvOf, modConv, modHk, hgain]
  unfold hkEntryValue
  dsimp only
  rw [ho, hg]
  rfl

/-- The next table entry of a converter from index `i` on. -/
def hkNextEntry (s : State) (c : Bool) (i : Nat) : Option Nat :=
  (List.range (hkNEnt s)).find? fun j => decide (i ≤ j) && decide ((hkTableEntry s j).conv = c.toNat)

/-- A converter goes on to its next entry, or is done with the table. -/
theorem hkGo_eqs (c : Bool) (i : Nat) (s : State) : (hkGo c i s).hk.slots = s.hk.slots ∧ (hkGo c i s).tick = s.tick ∧
    (hkGo c i s).hk.passRunning = s.hk.passRunning ∧
    match hkNextEntry s c i with
    | some j => (hkConvOf (hkGo c i s) c).entry = j ∧ (hkConvOf (hkGo c i s) c).taken = 0
    | none => (hkConvOf (hkGo c i s) c).doneTable = true := by
  have e : hkGo c i s = match hkNextEntry s c i with
      | some j => modConv c (fun v => { v with
          phase := if (hkTableEntry s j).delayUs = 0 then .convert else .delay, entry := j, taken := 0, sum := 0 }) s
      | none => modConv c (fun v => { v with phase := .idle, doneTable := true }) s := rfl
  rw [e]
  cases hkNextEntry s c i with
  | none => simp
  | some j => simp

/-- A pass begins on both converters, and no slot is written. -/
theorem hkStartPass_eqs (s : State) : (hkStartPass s).hk.passRunning = true ∧ (hkStartPass s).hk.slots = s.hk.slots := by
  unfold hkStartPass
  extract_lets t
  obtain ⟨hs, -, hp, -⟩ := hkGo_eqs true 0 (hkGo false 0 t)
  obtain ⟨hs', -, hp', -⟩ := hkGo_eqs false 0 t
  exact ⟨hp.trans hp', hs.trans hs'⟩

theorem hkWrite_of_slot {s : State} {e : HkEntry} (hd : e.dest < 64) (ho : s.hk.openMask.getLsbD e.input = false) (sum : Nat) :
    hkWrite e sum s = modHk (fun h => { h with
      slots := vset h.slots e.dest (hkEntryValue s e sum, s.tick.sfn), fresh := setBit h.fresh e.dest }) s := by
  unfold hkWrite
  rw [if_neg]
  have : e.dest ≠ 0xFF := by omega
  simp [this, ho]

/-- The end of an entry's conversions writes the value of R365 to its slot, and the converter goes on. -/
theorem hkEntryEnd_eqs (c : Bool) (codes : List (BitVec 14)) (s : State) (hc : hkConverting s c = true)
    (hp : (hkConvOf s c).phase = .convert) (how : (hkTableEntry s (hkConvOf s c).entry).ow = 0)
    (hd : (hkTableEntry s (hkConvOf s c).entry).dest < 64)
    (ho : s.hk.openMask.getLsbD (hkTableEntry s (hkConvOf s c).entry).input = false) :
    let e := hkTableEntry s (hkConvOf s c).entry
    let t := hkEntryEnd c codes s
    t.tick = s.tick ∧
      t.hk.slots = vset s.hk.slots e.dest (hkEntryValue s e ((hkConvOf s c).sum +
        ((codes.take (e.n - (hkConvOf s c).taken)).map fun x => x.toNat).sum), s.tick.sfn) ∧
      match hkNextEntry s c ((hkConvOf s c).entry + 1) with
      | some j => (hkConvOf t c).entry = j ∧ (hkConvOf t c).taken = 0
      | none => (hkConvOf t c).doneTable = true := by
  intro e t
  have et : t = hkGo c ((hkConvOf s c).entry + 1) (modConv c (fun v => { v with cut := false }) (hkWrite e
      ((hkConvOf s c).sum + ((codes.take (e.n - (hkConvOf s c).taken)).map fun x => x.toNat).sum) s)) :=
    (if_pos (by rw [hc, hp]; rfl)).trans (congrArg (fun u => hkGo c ((hkConvOf s c).entry + 1)
      (modConv c (fun v => { v with cut := false }) u)) (if_pos how))
  rw [hkWrite_of_slot hd ho] at et
  rw [et]
  obtain ⟨hs, ht, -, hm⟩ := hkGo_eqs c ((hkConvOf s c).entry + 1) (modConv c (fun v => { v with cut := false })
    (modHk (fun h => { h with
      slots := vset h.slots e.dest (hkEntryValue s e ((hkConvOf s c).sum +
        ((codes.take (e.n - (hkConvOf s c).taken)).map fun x => x.toNat).sum), s.tick.sfn),
      fresh := setBit h.fresh e.dest }) s))
  exact ⟨ht, hs.trans (modConv_slots _ _ _), hm⟩

theorem hkInjectedEnd_eqs (c : Bool) (codes : List (BitVec 14)) (i : Nat) (r : List Nat) (s : State)
    (hcal : s.hk.calibrating = false) (hi : (hkConvOf s c).inject = i :: r) (hd : (hkInjEntry s i).dest < 64)
    (ho : s.hk.openMask.getLsbD (hkInjEntry s i).input = false) :
    (hkConvOf (hkInjectedEnd c codes s) c).inject = r ∧
      (hkInjectedEnd c codes s).hk.slots = vset s.hk.slots (hkInjEntry s i).dest (hkEntryValue s (hkInjEntry s i)
        ((codes.take (hkInjEntry s i).n).map fun x => x.toNat).sum, s.tick.sfn) := by
  have e : hkInjectedEnd c codes s = hkWrite (hkInjEntry s i) ((codes.take (hkInjEntry s i).n).map fun x => x.toNat).sum
      (modConv c (fun v => { v with inject := r, cut := false }) s) := by
    unfold hkInjectedEnd
    rw [hi]
    exact if_neg (by rw [hcal]; exact Bool.false_ne_true)
  have ho' : (modConv c (fun v => { v with inject := r, cut := false }) s).hk.openMask.getLsbD (hkInjEntry s i).input
      = false := by
    rw [← ho]
    cases c <;> rfl
  rw [e, hkWrite_of_slot hd ho']
  rw [hkEntryValue_modConv (f := fun v => { v with inject := r, cut := false }) (fun _ => rfl) (fun _ => rfl)]
  cases c
  · exact ⟨rfl, rfl⟩
  · exact ⟨rfl, rfl⟩

/-! ### Self-calibration -/

/-- What a calibration leaves, which no pass changes. -/
def calFacts (s : State) : (Bool × List Hdr × Bool) × (BitVec 16 × BitVec 16 × Bool) × (BitVec 16 × BitVec 16 × Bool) :=
  ((s.hk.calibrating, s.hk.calReply, s.hk.calRejSeen), (s.hk.c0.ofs, s.hk.c0.gain, s.hk.c0.calOk),
    (s.hk.c1.ofs, s.hk.c1.gain, s.hk.c1.calOk))

theorem calFacts_hkGo (c : Bool) (i : Nat) (s : State) : calFacts (hkGo c i s) = calFacts s := by
  unfold hkGo
  split
  · cases c <;> rfl
  · cases c <;> rfl

theorem calFacts_hkStartPass (s : State) : calFacts (hkStartPass s) = calFacts s := by
  unfold hkStartPass
  extract_lets t
  rw [calFacts_hkGo, calFacts_hkGo]
  rfl

/-- The first converter's sums are accepted and the second's are not: the one takes its factors, the other keeps its own. -/
theorem hkCalEnd_eqs (sl0 sh0 sl1 sh1 : Nat) (s : State) (o g : Int) (h0 : hkFactors sl0 sh0 = some (o, g))
    (h1 : hkFactors sl1 sh1 = none) :
    let t := hkCalEnd sl0 sh0 sl1 sh1 s
    t.hk.calibrating = false ∧ t.hk.calReply = [] ∧ t.hk.c0.ofs = BitVec.ofInt 16 o ∧ t.hk.c0.gain = BitVec.ofInt 16 g ∧
      t.hk.c0.calOk = true ∧ t.hk.c1.ofs = s.hk.c1.ofs ∧ t.hk.c1.gain = s.hk.c1.gain ∧ t.hk.c1.calOk = false ∧
      t.hk.calRejSeen = true := by
  have e0 : hkStore false sl0 sh0 s = (modHk (fun k => { k with calSfn := s.tick.sfn })
      (modConv false (fun v => { v with ofs := BitVec.ofInt 16 o, gain := BitVec.ofInt 16 g, calOk := true }) s), true) := by
    unfold hkStore
    rw [h0]
  have e1 (u : State) : hkStore true sl1 sh1 u = (modHk (fun k => { k with calRejSeen := true })
      (modConv true (fun v => { v with calOk := false }) u), false) := by
    unfold hkStore
    rw [h1]
  have hfacts : calFacts (hkCalEnd sl0 sh0 sl1 sh1 s) = ((false, [], true),
      (BitVec.ofInt 16 o, BitVec.ofInt 16 g, true), (s.hk.c1.ofs, s.hk.c1.gain, false)) := by
    unfold hkCalEnd
    rw [e0]
    dsimp only
    rw [e1]
    generalize hu : raiseErrs _ _ = u
    have hcal : calFacts (modHk (fun k => { k with calibrating := false, calReply := [] }) u) = ((false, [], true),
        (BitVec.ofInt 16 o, BitVec.ofInt 16 g, true), (s.hk.c1.ofs, s.hk.c1.gain, false)) := by
      have hhk := congrArg (fun s => s.hk) hu.symm
      dsimp only at hhk
      rw [raiseErrs_hk] at hhk
      unfold calFacts modHk
      dsimp only
      rw [hhk]
      rfl
    generalize modHk (fun k => { k with calibrating := false, calReply := [] }) u = w at hcal ⊢
    generalize hx : forEach _ _ w = x
    have hxf : calFacts x = calFacts w := by
      rw [← hx]
      exact forEach_keeps (g := calFacts) (fun h s => reply_only (g := calFacts) (fun _ _ _ _ => rfl) h 0x32 stOk _ s) _ w
    have hpass : calFacts (if !x.hk.passRunning && x.hk.pending then
        hkStartPass (modHk (fun k => { k with pending := false }) x) else x) = calFacts x := by
      split
      · exact calFacts_hkStartPass _
      · rfl
    rw [← hcal, ← hxf, ← hpass]
    generalize (if !x.hk.passRunning && x.hk.pending then
        hkStartPass (modHk (fun k => { k with pending := false }) x) else x) = y
    split
    · rfl
    · rfl
  simp only [calFacts, Prod.mk.injEq] at hfacts
  obtain ⟨⟨a, b, c⟩, ⟨d, e, f⟩, i, j, k⟩ := hfacts
  exact ⟨a, b, d, e, f, i, j, k, c⟩

/-! ### A parity error of the active bank -/

/-- An error of a class with no capture is captured. -/
theorem errOf_raiseErr_of_new {s : State} {r : ErrRec} (hc : r.cls < 3) (hb : s.err.batch = none)
    (hv : (errOf s r.cls).valid = false) : errOf (raiseErr r s) r.cls = { errOf s r.cls with
      code := r.code, unit := r.unit, aux := r.aux, valid := true, count := 1, more := false, ovf := false,
      sfn := s.tick.sfn, info := r.info, total := satInc (errOf s r.cls).total } := by
  have e : raiseErr r s = raiseOne r s := by
    unfold raiseErr raiseErrs
    rw [hb]
    rfl
  rw [e]
  unfold raiseOne
  extract_lets t x
  have hx : x.valid = false := hv
  rw [hx, if_neg Bool.false_ne_true]
  refine (logCapture_only (g := fun s => errOf s r.cls) (fun _ _ => rfl) _ _).trans
    ((sendVector_only (g := fun s => errOf s r.cls) (fun _ _ => rfl) (fun _ _ => rfl) _ _).trans ?_)
  exact vget_vmod_same hc _ _ _

theorem cfgParityErrorRaised (x : BitVec 17) (s : State) (ha : s.cfg.hasActive = true)
    (hp : s.dev.power = .parked ∨ s.dev.power = .imaging) :
    ∃ t, exec (.cfgParityError x) s = .next t ∧ t.cfg = { s.cfg with parityBad := true } ∧ t.dram = s.dram ∧
      (s.err.freezeNext = 0 → t.err.freezeNext = 2) ∧
      (s.err.batch = none → (errOf s 0).valid = false → (errOf t 0).valid = true ∧ (errOf t 0).code = 0x02 ∧
        (errOf t 0).info = word x.toNat ∧ (errOf t 0).count = 1 ∧ (errOf t 0).sfn = s.tick.sfn) := by
  have e : cfgParity x s = freezeDue 2 (raiseErr (mkErr 0 0x02 0xFF 0 (word x.toNat))
      (modCfg (fun c => { c with parityBad := true }) s)) := by
    unfold cfgParity
    rw [if_neg (by rw [ha]; rcases hp with hp | hp <;> rw [hp] <;> decide)]
    exact if_neg (by
      show ¬ s.dev.power = .frozen
      rcases hp with hp | hp <;> rw [hp] <;> decide)
  refine ⟨_, congrArg Host.Outcome.next e, (raiseErr_cfg _ _), (raiseErr_dram _ _), fun hf => ?_, fun hb hv => ?_⟩
  · have hn : (raiseErr (mkErr 0 0x02 0xFF 0 (word x.toNat))
        (modCfg (fun c => { c with parityBad := true }) s)).err.freezeNext = 0 := (raiseErrs_freezeNext _ _).trans hf
    unfold freezeDue
    dsimp only
    rw [hn, if_pos rfl]
    rfl
  · have h := errOf_raiseErr_of_new (s := modCfg (fun c => { c with parityBad := true }) s)
      (r := mkErr 0 0x02 0xFF 0 (word x.toNat)) (show 0 < 3 by decide) hb hv
    have h' : errOf (freezeDue 2 (raiseErr (mkErr 0 0x02 0xFF 0 (word x.toNat))
        (modCfg (fun c => { c with parityBad := true }) s))) 0 = _ := h
    rw [h']
    exact ⟨rfl, rfl, rfl, rfl, rfl⟩

/-- Settles O60: each event of the converters by its rule, and the parity error by the error it raises. -/
theorem housekeepingRuns : Obligations.HousekeepingRuns := by
  refine ⟨fun c s => ⟨fun ha hp => ?_, fun codes hc hp how hd ho => ?_, fun codes i r hcal hi hd ho => ?_,
      fun hr h0 h1 hcal hm hpend => ?_, fun hon hm hsrc hnow hre hr hcal => ?_⟩,
    ⟨fun s hp hc hr => ?_, fun s hr h0 h1 => ?_, fun sl0 sh0 sl1 sh1 s o g hc h0 h1 => ?_⟩, cfgParityErrorRaised⟩
  · refine ⟨_, congrArg Host.Outcome.next (if_pos (by rw [ha, hp]; rfl)), ?_, modConv_slots _ _ _⟩
    rw [hkConvOf_modConv_same]
  · exact ⟨_, rfl, hkEntryEnd_eqs c codes s hc hp how hd ho⟩
  · exact ⟨_, rfl, hkInjectedEnd_eqs c codes i r s hcal hi hd ho⟩
  · have hm' : hkPassMode (modHk (fun h => { h with passCnt := satInc h.passCnt, passRunning := false }) s) = true := hm
    refine congrArg Host.Outcome.next ((if_pos (by rw [hr, h0, h1, hcal]; rfl)).trans ((if_neg ?_).trans (if_neg ?_)))
    · rw [hm']
      decide
    · show ¬ s.hk.pending = true
      rw [hpend]
      decide
  · have hsrc' : (decide (hkTrigSrc s = 2) || decide (hkTrigSrc s = 3)) = true := by
      rcases hsrc with h | h <;> rw [h] <;> rfl
    have hsoft : hkSoftTrigger s = hkTrigger s := by
      unfold hkSoftTrigger
      exact if_pos (by rw [hon, hm, hnow, hre, Bool.and_self, Bool.true_and, hsrc']; rfl)
    have htrig : hkTrigger s = hkStartPass s := if_pos (by rw [hr, hcal]; rfl)
    exact ⟨_, congrArg Host.Outcome.next (hsoft.trans htrig), hkStartPass_eqs s⟩
  · refine congrArg Host.Outcome.next ((if_neg hp).trans ((if_neg (by rw [hc, hr]; decide)).trans ?_))
    simp only [hkAsk, modHk, Option.toList_none, List.append_nil]
  · exact congrArg Host.Outcome.next (if_pos (by rw [hr, h0, h1]; rfl))
  · exact ⟨_, congrArg Host.Outcome.next (if_pos hc), hkCalEnd_eqs sl0 sh0 sl1 sh1 s o g h0 h1⟩

end Sys2Proof.Proofs
end

section
/-! PROOFS. Tile ports: preparation, faults and host reads (03 R80 to R101). -/
namespace Sys2Proof.Proofs

open Sys2Proof Sys2Proof.Machine Sys2Proof.Laws

/-! ### A port of a tile -/

theorem port_modPort_same {t : Nat} (h : t < 64) (f : Port → Port) (s : State) :
    (tileOf (modPort t f s) t).port = f (tileOf s t).port := by
  rw [modPort, tileOf_modTile_same h]

theorem tileOf_modPort_ne {t u : Nat} (h : u ≠ t) (f : Port → Port) (s : State) :
    tileOf (modPort t f s) u = tileOf s u := tileOf_modTile_ne h _ s

/-! ### The preparation -/

theorem finishList_eqs {t : Nat} (h : t < 64) (wait : Nat) (s : State) :
    (tileOf (finishList t wait s) t).port = { (tileOf s t).port with prepDone := true, doneAt := s.clock.now + wait } ∧
      ∀ j, j ≠ t → tileOf (finishList t wait s) j = tileOf s j :=
  ⟨port_modPort_same h _ (parkPulse t s), fun _ hj => tileOf_modPort_ne hj _ (parkPulse t s)⟩

/-- The pixel clock starts, and no other port hears of it. -/
theorem startClock_eqs {t : Nat} (h : t < 64) (s : State) :
    (tileOf (startClock t s) t).port.pclk = true ∧ (tileOf (startClock t s) t).port.bref = (tileOf s t).port.bref ∧
      ∀ j, j ≠ t → tileOf (startClock t s) j = tileOf s j := by
  unfold startClock
  extract_lets u
  have hu : (tileOf u t).port = { (tileOf s t).port with pclk := true, cb := .idle, clkAt := s.clock.now } := by
    show (tileOf (idleDacs t _) t).port = _
    unfold idleDacs
    dsimp only
    rw [tileOf_modTile_same h, port_modPort_same h]
  have hne (j : Nat) (hj : j ≠ t) : tileOf u j = tileOf s j := by
    show tileOf (idleDacs t _) j = _
    unfold idleDacs
    dsimp only
    rw [tileOf_modTile_ne hj, tileOf_modPort_ne hj]
  clear_value u
  split
  · obtain ⟨hp, hj⟩ := finishList_eqs h (pixelClocks u 96) u
    rw [hp, hu]
    exact ⟨rfl, rfl, fun j hj' => (hj j hj').trans (hne j hj')⟩
  · rw [hu]
    exact ⟨rfl, rfl, hne⟩

/-- The ramp up ends: the pixel clock starts unless the quadrant is powered down. -/
theorem brefRampEnds (i : Fin 64) (s : State) (hst : (tileOf s i.val).port.state = .prepare)
    (hb : (tileOf s i.val).port.bref = .rampUp) :
    ∃ t, exec (.brefRampEnd i) s = .next t ∧ (tileOf t i.val).port.bref = .atCode ∧ t.dram = s.dram ∧
      (tileOf t i.val).port.pclk = ((tileOf s i.val).port.pclk || !(quadOf s (i.val / 16)).down) ∧
      ∀ j : Fin 64, j ≠ i → tileOf t j.val = tileOf s j.val := by
  obtain ⟨u, hu⟩ : ∃ u, u = modPort i.val (fun p => { p with bref := .atCode }) s := ⟨_, rfl⟩
  have hp : (tileOf u i.val).port = { (tileOf s i.val).port with bref := .atCode } := by
    rw [hu, port_modPort_same i.isLt]
  have hd : u.dram = s.dram := by rw [hu]; rfl
  have hq : quadOf u (i.val / 16) = quadOf s (i.val / 16) := by rw [hu]; rfl
  have hj (j : Fin 64) (h : j ≠ i) : tileOf u j.val = tileOf s j.val := by
    rw [hu, tileOf_modPort_ne (Fin.val_ne_of_ne h)]
  have e : exec (.brefRampEnd i) s = .next (if (quadOf u (i.val / 16)).down then u else startClock i.val u) := by
    rw [hu]
    exact congrArg Host.Outcome.next (if_pos (by rw [hst, hb]; rfl))
  rw [hq] at e
  cases hdown : (quadOf s (i.val / 16)).down with
  | true =>
    rw [hdown, if_pos rfl] at e
    refine ⟨u, e, by rw [hp], hd, by rw [hp]; simp, hj⟩
  | false =>
    rw [hdown, if_neg Bool.false_ne_true] at e
    obtain ⟨hc, hbr, hne⟩ := startClock_eqs i.isLt u
    refine ⟨_, e, by rw [hbr, hp], (startClock_errHeld i.val u).2.1.trans hd, by rw [hc]; simp, fun j h => ?_⟩
    exact (hne j.val (Fin.val_ne_of_ne h)).trans (hj j h)

/-- Settles O54: each end and each fault is a change of the one port. -/
theorem portsPrepareAndFault : Obligations.PortsPrepareAndFault := by
  refine ⟨fun i s => ⟨brefRampEnds i s, fun hb => ?_, fun hd => ?_, fun hl => ?_⟩,
    fun i s => ⟨fun hl => ?_, fun hl hb => ?_, fun hl => ⟨?_, ?_⟩, ?_⟩⟩
  · exact ⟨_, congrArg Host.Outcome.next (if_pos hb), port_modPort_same i.isLt _ s, rfl⟩
  · cases hi : s.tick.imaging with
    | true =>
      have e : finishPrepare i.val s = enterImaging i.val s := if_pos hi
      refine ⟨_, congrArg Host.Outcome.next ((if_pos hd).trans e), rfl, ?_⟩
      unfold enterImaging
      rw [tileOf_modTile_same i.isLt]
      exact ⟨rfl, fun _ => ⟨rfl, rfl⟩⟩
    | false =>
      have e : finishPrepare i.val s = modPort i.val (fun p => { p with
          state := .ready, causeStand := if p.repreparing then p.causeStand else keptCauses p }) s :=
        if_neg (by rw [hi]; exact Bool.false_ne_true)
      refine ⟨_, congrArg Host.Outcome.next ((if_pos hd).trans e), rfl, ?_⟩
      rw [port_modPort_same i.isLt]
      exact ⟨rfl, fun h => absurd h Bool.false_ne_true⟩
  · refine ⟨_, congrArg Host.Outcome.next (if_pos hl), rfl, ?_⟩
    rw [port_modPort_same i.isLt, enterFault, port_modPort_same i.isLt]
    have hend (p : Port) : (endHostRead p).state = p.state ∧ (endHostRead p).bref = p.bref ∧
        (endHostRead p).pclk = p.pclk ∧ (endHostRead p).causeStand = p.causeStand := by
      unfold endHostRead
      split
      · exact ⟨rfl, rfl, rfl, rfl⟩
      · exact ⟨rfl, rfl, rfl, rfl⟩
    exact hend _
  · exact ⟨_, congrArg Host.Outcome.next (if_pos hl), rfl, port_modPort_same i.isLt _ s⟩
  · exact ⟨_, congrArg Host.Outcome.next (if_pos (by rw [hl, hb]; rfl)), rfl, port_modPort_same i.isLt _ s⟩
  · exact congrArg Host.Outcome.next (if_neg (by rw [hl]; exact Bool.false_ne_true))
  · exact congrArg Host.Outcome.next (if_neg (by rw [hl]; exact Bool.false_ne_true))
  · exact ⟨_, rfl, rfl, port_modPort_same i.isLt _ s⟩

/-! ### Host reads -/

theorem hostReadGone (i : Fin 64) (s : State) (a : BitVec 6) (hp : (tileOf s i.val).port.hostPending = false) :
    (((tileOf s i.val).port.state = .off ∨ (tileOf s i.val).port.state = .fault) →
      ∃ t, exec (.tcfgHostGo i a) s = .next t ∧ (tileOf t i.val).port = { (tileOf s i.val).port with
        hostAddr := a, hostDone := true, hostOk := false }) ∧
    (((tileOf s i.val).port.state = .ready ∨ (tileOf s i.val).port.state = .imaging) →
      ∃ t, exec (.tcfgHostGo i a) s = .next t ∧ (tileOf t i.val).port = { (tileOf s i.val).port with
        hostAddr := a, hostReq := a, hostPending := true, hostDone := false, hostOk := false }) := by
  have hnot : ¬ (tileOf s i.val).port.hostPending = true := by rw [hp]; exact Bool.false_ne_true
  have hgo : hostReadGo i.val a s = match (tileOf s i.val).port.state with
      | .off | .fault => modPort i.val (fun p => { p with hostDone := true, hostOk := false })
          (modPort i.val (fun p => { p with hostAddr := a }) s)
      | _ => modPort i.val (fun p => { p with hostReq := a, hostPending := true, hostDone := false, hostOk := false })
          (modPort i.val (fun p => { p with hostAddr := a }) s) := by
    unfold hostReadGo
    exact if_neg hnot
  constructor
  · intro hs
    have e : hostReadGo i.val a s = modPort i.val (fun p => { p with hostDone := true, hostOk := false })
        (modPort i.val (fun p => { p with hostAddr := a }) s) := by
      rcases hs with h | h <;> rw [hgo, h]
    refine ⟨_, congrArg Host.Outcome.next e, ?_⟩
    rw [port_modPort_same i.isLt, port_modPort_same i.isLt]
  · intro hs
    have e : hostReadGo i.val a s = modPort i.val (fun p => { p with
        hostReq := a, hostPending := true, hostDone := false, hostOk := false })
        (modPort i.val (fun p => { p with hostAddr := a }) s) := by
      rcases hs with h | h <;> rw [hgo, h]
    refine ⟨_, congrArg Host.Outcome.next e, ?_⟩
    rw [port_modPort_same i.isLt, port_modPort_same i.isLt]

/-! ### A transaction starts and ends -/

/-- A transaction that is no retry goes onto the line; a line that is low sends nothing (R91). -/
theorem startTrans_of_new {i : Fin 64} {s : State} {k : TcfgKind} (low : Bool)
    (hnext : nextTrans s i.val = some { kind := k, retries := 0, lineFault := false, unjudged := false }) :
    (tileOf (startTrans i.val low s) i.val).port.trans = some {
        kind := k, retries := 0, lineFault := low, unjudged := false } ∧
      ∃ p, (startTrans i.val low s).out =
        (if low then s.out else .tcfg i.val (tcfgWord (modPort i.val p s) i.val k) :: s.out) ∧
        ∀ x, (p x).hostReq = x.hostReq := by
  obtain ⟨f, ht, hr, e⟩ : ∃ f : Port → Port,
      (∀ x, (f x).trans = some { kind := k, retries := 0, lineFault := low, unjudged := false }) ∧
      (∀ x, (f x).hostReq = x.hostReq) ∧ startTrans i.val low s = if low then modPort i.val f s
        else emit (.tcfg i.val (tcfgWord (modPort i.val f s) i.val k)) (modPort i.val f s) := by
    unfold startTrans
    rw [hnext]
    refine ⟨_, ?_, ?_, rfl⟩
    · exact fun _ => rfl
    · exact fun _ => rfl
  rw [e]
  cases low with
  | true =>
    rw [if_pos rfl, port_modPort_same i.isLt, ht]
    exact ⟨rfl, f, rfl, hr⟩
  | false =>
    rw [if_neg Bool.false_ne_true]
    refine ⟨?_, f, rfl, hr⟩
    show (tileOf (modPort i.val f s) i.val).port.trans = _
    rw [port_modPort_same i.isLt, ht]

/-- The word of a host read carries the address asked for. -/
theorem tcfgWord_host_modPort {t : Nat} (h : t < 64) {f : Port → Port} (hf : ∀ x, (f x).hostReq = x.hostReq) (s : State) :
    tcfgWord (modPort t f s) t .host = tcfgCommand 1 (tileOf s t).port.hostReq.toNat 0 := by
  unfold tcfgWord
  rw [port_modPort_same h, hf]

theorem hostReadSent (i : Fin 64) (s : State) (hst : (tileOf s i.val).port.state = .ready)
    (htr : (tileOf s i.val).port.trans = none) (hre : (tileOf s i.val).port.retryDue = [])
    (hp : (tileOf s i.val).port.hostPending = true) :
    ∃ t, exec (.tcfgTransactionStart i false) s = .next t ∧
      (tileOf t i.val).port.trans = some { kind := .host, retries := 0, lineFault := false, unjudged := false } ∧
      t.out = .tcfg i.val (tcfgCommand 1 (tileOf s i.val).port.hostReq.toNat 0) :: s.out := by
  have hnext : nextTrans s i.val = some { kind := .host, retries := 0, lineFault := false, unjudged := false } := by
    unfold nextTrans
    dsimp only
    rw [htr, hst, hre, hp]
    rfl
  obtain ⟨ht, f, ho, hf⟩ := startTrans_of_new false hnext
  refine ⟨_, rfl, ht, ho.trans ?_⟩
  rw [if_neg Bool.false_ne_true, tcfgWord_host_modPort i.isLt hf]

theorem listWritten (i : Fin 64) (low : Bool) (s : State) (hst : (tileOf s i.val).port.state = .prepare)
    (htr : (tileOf s i.val).port.trans = none) (hclk : (tileOf s i.val).port.pclk = true)
    (hdone : (tileOf s i.val).port.prepDone = false) (hfault : (tileOf s i.val).port.faultNext = false)
    (htime : (tileOf s i.val).port.clkAt + pixelClocks s 64 ≤ s.clock.now) (hre : (tileOf s i.val).port.retryDue = [])
    (hentry : (tileOf s i.val).port.entry < nTcfg s i.val) (hver : (tileOf s i.val).port.verify = false) :
    ∃ t, exec (.tcfgTransactionStart i low) s = .next t ∧ (tileOf t i.val).port.trans = some {
        kind := .listWrite (tileOf s i.val).port.entry, retries := 0, lineFault := low, unjudged := false } ∧
      t.out = (if low then s.out
        else .tcfg i.val (tcfgWord s i.val (.listWrite (tileOf s i.val).port.entry)) :: s.out) := by
  have hnext : nextTrans s i.val = some {
      kind := .listWrite (tileOf s i.val).port.entry, retries := 0, lineFault := false, unjudged := false } := by
    unfold nextTrans
    dsimp only
    rw [htr, hst, hclk, hdone, hfault, hre, hver, decide_eq_false (Nat.not_lt.2 htime)]
    exact if_pos hentry
  obtain ⟨ht, f, ho, -⟩ := startTrans_of_new low hnext
  exact ⟨_, rfl, ht, ho⟩

/-- The end of a host read that is judged: its answer, a retry, or the end of the attempts (R91, R94). -/
theorem endTrans_of_host {i : Fin 64} {s : State} {n : Nat} (ans : BitVec 24)
    (htr : (tileOf s i.val).port.trans = some { kind := .host, retries := n, lineFault := false, unjudged := false }) :
    endTrans i.val ans s = match readAnswer ans with
      | some d => modPort i.val (fun p => { p with
          hostPending := false, hostDone := true, hostOk := true, hostData := BitVec.ofNat 16 d })
          (modPort i.val (fun p => { p with trans := none }) s)
      | none => if n < tcfgRetries s i.val then modPort i.val (fun p =>
          if p.state = .imaging then { p with retryLater := p.retryLater ++
            [{ kind := .host, retries := n + 1, lineFault := false, unjudged := false }] }
          else { p with retryDue := p.retryDue ++
            [{ kind := .host, retries := n + 1, lineFault := false, unjudged := false }] })
          (modPort i.val (fun p => { p with trans := none }) s)
        else modPort i.val endHostRead (modPort i.val (fun p => { p with failCnt := satInc p.failCnt })
          (modPort i.val (fun p => { p with trans := none }) s)) := by
  unfold endTrans
  rw [htr]
  cases h : readAnswer ans with
  | none => rfl
  | some d => rfl

/-- Settles O55: requests, the lines they send, and the ends of their transactions. -/
theorem hostReadRuns : Obligations.HostReadRuns := by
  refine ⟨fun i s => ⟨hostReadGone i s, hostReadSent i s, fun ans n htr => ⟨fun d hd => ?_, fun hn hlt => ?_, fun hn hle hp => ?_⟩⟩,
    listWritten⟩
  all_goals
    have hend := endTrans_of_host ans htr
    refine ⟨_, congrArg Host.Outcome.next hend, ?_⟩
  · rw [hd]
    dsimp only
    rw [port_modPort_same i.isLt, port_modPort_same i.isLt]
  · rw [hn]
    dsimp only
    rw [if_pos hlt, port_modPort_same i.isLt, port_modPort_same i.isLt]
    exact ⟨fun h => if_neg h, fun h => if_pos h⟩
  · rw [hn]
    dsimp only
    rw [if_neg (Nat.not_lt.2 hle), port_modPort_same i.isLt, port_modPort_same i.isLt, port_modPort_same i.isLt]
    exact if_pos hp

end Sys2Proof.Proofs
end

section
/-! PROOFS. Correction lanes: rows, the end of a frame, the deadline and the blanking work (03 R75; 04 R120 to R126; 05 R130 to R149). -/
namespace Sys2Proof.Proofs

open Sys2Proof Sys2Proof.Machine Sys2Proof.Laws

/-! ### The rows of the lanes -/

/-- The row that each lane has reached. -/
def rows (s : State) : Vector Nat 64 := s.tiles.map fun x => x.lane.work.row

theorem vget_rows (s : State) (t : Nat) (h : t < 64) : vget (rows s) t 0 = (tileOf s t).lane.work.row := by
  simp [rows, tileOf, vget, h]

theorem row_of_rows {s t : State} (h : rows t = rows s) {n : Nat} (hn : n < 64) :
    (tileOf t n).lane.work.row = (tileOf s n).lane.work.row := by
  rw [← vget_rows t n hn, h, vget_rows s n hn]

theorem map_vmod {α β : Type} {n : Nat} (v : Vector α n) (i : Nat) (f : α → α) (g : α → β) (h : ∀ x, g (f x) = g x) :
    (vmod v i f).map g = v.map g := by
  unfold vmod
  split
  · next hi =>
    ext j hj
    by_cases e : j = i
    · subst e
      simp [h]
    · simp [Vector.getElem_set_ne _ _ (Ne.symm e)]
  · rfl

@[simp] theorem rows_modTile {f : Tile → Tile} (h : ∀ x, (f x).lane.work.row = x.lane.work.row) (t : Nat) (s : State) :
    rows (modTile t f s) = rows s := map_vmod _ _ _ _ h

@[simp] theorem ite_rows (c : Prop) [Decidable c] (s t : State) :
    rows (if c then s else t) = if c then rows s else rows t := apply_ite ..

@[simp] theorem rows_stageWrite (a : Nat) (bs : List Byte) (s : State) : rows (stageWrite a bs s) = rows s :=
  stageWrite_only (g := rows) (fun _ _ _ _ => rfl) a bs s

/-- Between the two states the sets, the tick block and the rows of the lanes are the same. -/
def RowHeld (s t : State) : Prop := t.cfg = s.cfg ∧ t.tick = s.tick ∧ rows t = rows s

theorem RowHeld.refl (s : State) : RowHeld s s := ⟨rfl, rfl, rfl⟩

theorem RowHeld.trans {s t u : State} (a : RowHeld s t) (b : RowHeld t u) : RowHeld s u := by
  obtain ⟨ha, hb, hc⟩ := a
  obtain ⟨hd, he, hf⟩ := b
  exact ⟨hd.trans ha, he.trans hb, hf.trans hc⟩

theorem RowHeld.ite {c : Prop} [Decidable c] {s t u : State} (ht : RowHeld s t) (hu : RowHeld s u) :
    RowHeld s (if c then t else u) := by
  split
  · exact ht
  · exact hu

theorem foldl_rowHeld {α : Type} {f : State → α → State} (h : ∀ s a, RowHeld s (f s a)) (l : List α) (s : State) :
    RowHeld s (l.foldl f s) :=
  forEach_invariant (P := RowHeld s) (f := fun a s => f s a) (fun a _ hs => hs.trans (h _ a)) l s (RowHeld.refl s)

theorem modTile_rowHeld {f : Tile → Tile} (t : Nat) (s : State)
    (h : ∀ x, (f x).lane.work.row = x.lane.work.row := by intro _; rfl) : RowHeld s (modTile t f s) :=
  ⟨rfl, rfl, rows_modTile h t s⟩

theorem modWork_rowHeld {f : LaneWork → LaneWork} (t : Nat) (s : State)
    (h : ∀ w, (f w).row = w.row := by intro _; rfl) : RowHeld s (modWork t f s) :=
  modTile_rowHeld t s fun x => h x.lane.work

theorem stageWrite_rowHeld (a bs) (s : State) : RowHeld s (stageWrite a bs s) :=
  ⟨stageWrite_cfg a bs s, stageWrite_tick a bs s, rows_stageWrite a bs s⟩

theorem writeRow_rowHeld (a size vals) (s : State) : RowHeld s (writeRow a size vals s) :=
  foldl_rowHeld (fun _ _ => stageWrite_rowHeld _ _ _) _ _

theorem stateBack_rowHeld (t r) (s : State) : RowHeld s (stateBack t r s) := by
  unfold stateBack
  dsimp only
  split
  · exact RowHeld.refl s
  · exact foldl_rowHeld (fun _ _ => stageWrite_rowHeld _ _ _) _ _

theorem targetBlind_rowHeld (t r) (s : State) : RowHeld s (targetBlind t r s) := by
  unfold targetBlind
  dsimp only
  split
  · exact writeRow_rowHeld ..
  · exact RowHeld.refl s

theorem blindRow_rowHeld (b t r px) (s : State) : RowHeld s (blindRow b t r px s) := by
  unfold blindRow
  extract_lets x gBase usable u v
  have hu : RowHeld s u := modWork_rowHeld t s
  have hv : RowHeld u v := stateBack_rowHeld t r u
  clear_value v u
  refine RowHeld.ite ?_ (hu.trans hv)
  extract_lets
  split
  extract_lets w
  have hw : RowHeld v w := modWork_rowHeld t v
  refine ((hu.trans hv).trans hw).trans ?_
  clear_value w
  exact foldl_rowHeld (fun _ _ => writeRow_rowHeld _ _ _ _) _ w

theorem flatField_rowHeld (t r c p v) (s : State) : RowHeld s (flatField t r c p v s) := by
  unfold flatField
  extract_lets x slotA j oR u poison old now newly o
  split
  · refine RowHeld.trans (modTile_rowHeld t s) (stageWrite_rowHeld _ _ _)
  · exact stageWrite_rowHeld _ _ _
  · exact RowHeld.refl s

theorem heldRow_rowHeld (b t r px) (s : State) : RowHeld s (heldRow b t r px s) := by
  unfold heldRow
  extract_lets x n from_ words u v w
  clear_value words
  have hu : RowHeld s u := writeRow_rowHeld _ _ _ s
  have hv : RowHeld u v := modWork_rowHeld t u
  refine ((hu.trans hv).trans ?_).trans (stateBack_rowHeld t r w)
  clear_value v
  refine foldl_rowHeld (fun y p => ?_) _ v
  dsimp only
  exact RowHeld.trans (RowHeld.ite (RowHeld.refl y) (modWork_rowHeld t y)) (flatField_rowHeld ..)

theorem finishRow_rowHeld (b t r above mid below) (s : State) : RowHeld s (finishRow b t r above mid below s) := by
  unfold finishRow
  refine foldl_rowHeld (fun y c => ?_) _ s
  dsimp only
  refine RowHeld.trans ?_ (modWork_rowHeld t _)
  split
  · exact RowHeld.trans (stageWrite_rowHeld _ _ y) (stageWrite_rowHeld _ _ _)
  · exact stageWrite_rowHeld _ _ y

theorem activeRow_rowHeld (b t r px) (s : State) : RowHeld s (activeRow b t r px s) := by
  unfold activeRow
  extract_lets w cur ys u v x
  have hu : RowHeld s u := modWork_rowHeld t s
  have hv : RowHeld u v := RowHeld.ite (RowHeld.refl u) (finishRow_rowHeld ..)
  have hx : RowHeld v x := RowHeld.ite (finishRow_rowHeld ..) (RowHeld.refl v)
  exact ((hu.trans hv).trans hx).trans (modWork_rowHeld t x)

theorem readRow_rowHeld (b t r codesA codesB late) (s : State) : RowHeld s (readRow b t r codesA codesB late s) := by
  unfold readRow
  split
  extract_lets x u v w active cnt y z
  have hu : RowHeld s u := modWork_rowHeld t s
  have hv : RowHeld u v := writeRow_rowHeld ..
  have hw : RowHeld v w := RowHeld.ite (RowHeld.refl v) (writeRow_rowHeld ..)
  have hy : RowHeld w y := modWork_rowHeld t w
  have hz : RowHeld y z := modTile_rowHeld t y
  have h := ((hu.trans hv).trans (hw.trans hy)).trans hz
  clear_value z
  split
  · exact h.trans ((blindRow_rowHeld ..).trans (targetBlind_rowHeld ..))
  · exact h.trans (RowHeld.ite (heldRow_rowHeld ..) (activeRow_rowHeld ..))

/-! ### A row reaches the lane -/

/-- What the port's part of a row leaves: all but its own port, and what it sends. -/
theorem portRow_keeps {t : Nat} (h : t < 64) (rstA rstB : BitVec 16) (tstat : Bool) (s : State) :
    let u := portRow t rstA rstB tstat s
    (tileOf u t).lane = (tileOf s t).lane ∧ u.cfg = s.cfg ∧ u.tick = s.tick ∧ u.dram = s.dram ∧ u.memc = s.memc := by
  have hport (f : Port → Port) (e : Emit) : let u := modPort t f (emit e s)
      (tileOf u t).lane = (tileOf s t).lane ∧ u.cfg = s.cfg ∧ u.tick = s.tick ∧ u.dram = s.dram ∧ u.memc = s.memc := by
    refine ⟨?_, rfl, rfl, rfl, rfl⟩
    rw [modPort, tileOf_modTile_same h]
    rfl
  unfold portRow
  dsimp only
  split
  · exact ⟨rfl, rfl, rfl, rfl, rfl⟩
  · split
    · exact hport _ _
    · exact hport _ _

theorem portRow_of_fault {t : Nat} {s : State} (h : (tileOf s t).port.state = .fault) (rstA rstB : BitVec 16) (tstat : Bool) :
    portRow t rstA rstB tstat s = s :=
  if_pos (by rw [h]; rfl)

theorem activeSet_congr {s t : State} (h : t.cfg = s.cfg) : activeSet t = activeSet s := by
  unfold activeSet
  rw [h]

/-- A lane at work on a row of its frame takes the row, or finds the row buffer full (R130, R145). -/
theorem laneRow_of_running {t : Nat} (ht : t < 64) {s : State} {b : Bank} (hact : activeSet s = some b)
    (hmode : (tileOf s t).lane.work.mode ≠ .idle) (hdone : (tileOf s t).lane.work.done = false)
    (hstop : (tileOf s t).lane.work.stopped = false) (hrow : (tileOf s t).lane.work.row < 776)
    (ca cb : List (BitVec 16)) (ra rb : BitVec 16) (ts : Bool) (late : List Nat) (full : Bool) (hits : List (Nat × EccHit)) :
    laneRow t ca cb ra rb ts late full hits s =
      if full && (tileOf s t).lane.work.mode = .read then
        modLane t (fun l => { l with tblLate := satInc l.tblLate, work := { l.work with stopped := true, overrun := true } })
          (portRow t ra rb ts s)
      else
        let r := (tileOf s t).lane.work.row
        let u := traffic (t / 16) hits (rowSpans (portRow t ra rb ts s) b t r) (portRow t ra rb ts s)
        let v := if (tileOf s t).lane.work.mode = .read then readRow b t r ca cb late u else placeholderRow b t r u
        let bad := (quadOf v (t / 16)).supplyBad
        modWork t (fun w => { w with row := w.row + 1, supplyBad := if w.row = 775 then bad else w.supplyBad }) v := by
  obtain ⟨hl, hc, -⟩ := portRow_keeps ht ra rb ts s
  unfold laneRow
  dsimp only
  rw [(activeSet_congr hc).trans hact, hl]
  exact if_neg (by simp [hmode, hdone, hstop, hrow])

theorem stageWrite_setPorts (p : Vector ReqPort 12) (c : Vector Memch 8) (a : Nat) (bs : List Byte) (s : State) :
    stageWrite a bs (setPorts p c s) = setPorts p c (stageWrite a bs s) := by
  unfold stageWrite
  rw [apply_ite (setPorts p c)]
  rfl

theorem writeRow_setPorts (p : Vector ReqPort 12) (c : Vector Memch 8) (a size : Nat) (vals : List Nat) (s : State) :
    writeRow a size vals (setPorts p c s) = setPorts p c (writeRow a size vals s) :=
  forEach_setPorts p c (f := fun (x : Nat × Nat) s => stageWrite (a + size * x.2) (leBytes size x.1) s)
    (fun _ _ => stageWrite_setPorts p c _ _ _) vals.zipIdx s

theorem placeholderRow_setPorts (p : Vector ReqPort 12) (c : Vector Memch 8) (b : Bank) (t r : Nat) (s : State) :
    placeholderRow b t r (setPorts p c s) = setPorts p c (placeholderRow b t r s) := by
  unfold placeholderRow
  generalize List.replicate 1024 0xFFFF = l
  exact writeRow_setPorts p c _ _ _ s

theorem placeholderRow_rowHeld (b : Bank) (t r : Nat) (s : State) : RowHeld s (placeholderRow b t r s) := by
  unfold placeholderRow
  exact writeRow_rowHeld _ _ _ s

/-- The step to the next row, after a row that held the rows. -/
theorem nextRow_eqs {t : Nat} (h : t < 64) {s v : State} (hv : RowHeld s v) (p : Vector ReqPort 12) (c : Vector Memch 8)
    (bad : Bool) :
    let u := modWork t (fun w => { w with row := w.row + 1, supplyBad := if w.row = 775 then bad else w.supplyBad })
      (setPorts p c v)
    u.cfg = s.cfg ∧ u.tick = s.tick ∧ u.dram = v.dram ∧ (tileOf u t).lane.work.row = (tileOf s t).lane.work.row + 1 := by
  obtain ⟨hcfg, htick, hrows⟩ := hv
  refine ⟨hcfg, htick, rfl, ?_⟩
  rw [modWork, modLane, tileOf_modTile_same h]
  exact congrArg (· + 1) (row_of_rows hrows h)

/-- A row of a placeholder frame writes 0xFFFF in every pixel of its slot's row (03 R75). -/
theorem laneRow_placeholder (i : Fin 64) (s : State) (b : Bank) (hits : List (Nat × EccHit)) (hact : activeSet s = some b)
    (hdone : (tileOf s i.val).lane.work.done = false) (hidle : MemoryIdle s) (hok : Correctable hits)
    (ca cb : List (BitVec 16)) (ra rb : BitVec 16) (ts full : Bool) (late : List Nat)
    (hfault : (tileOf s i.val).port.state = .fault) (hmode : (tileOf s i.val).lane.work.mode = .placeholder)
    (hstop : (tileOf s i.val).lane.work.stopped = false) (hrow : (tileOf s i.val).lane.work.row < 776) :
    ∃ t, exec (.laneRow i ca cb ra rb ts late full hits) s = .next t ∧ t.cfg = s.cfg ∧ t.tick = s.tick ∧
      t.dram = (placeholderRow b i.val (tileOf s i.val).lane.work.row s).dram ∧
      (tileOf t i.val).lane.work.row = (tileOf s i.val).lane.work.row + 1 := by
  have e := laneRow_of_running i.isLt hact (by rw [hmode]; decide) hdone hstop hrow ca cb ra rb ts late full hits
  rw [hmode, portRow_of_fault hfault, if_neg (by simp)] at e
  obtain ⟨p, c, hu⟩ := (traffic_idle hidle hok (i.val / 16) (rowSpans s b i.val (tileOf s i.val).lane.work.row)).1
  have hu' : traffic (i.val / 16) hits (rowSpans s b i.val (tileOf s i.val).lane.work.row) s = setPorts p c s := hu
  dsimp only at e
  rw [hu', if_neg (by decide), placeholderRow_setPorts] at e
  refine ⟨_, congrArg Host.Outcome.next e, nextRow_eqs i.isLt (placeholderRow_rowHeld b i.val (tileOf s i.val).lane.work.row s) p c _⟩

/-- A row that the lane reads takes it to the next row; one that finds the buffer full stops it (R130, R145). -/
theorem laneRow_read (i : Fin 64) (s : State) (b : Bank) (hits : List (Nat × EccHit)) (hact : activeSet s = some b)
    (hdone : (tileOf s i.val).lane.work.done = false) (hidle : MemoryIdle s) (hok : Correctable hits)
    (ca cb : List (BitVec 16)) (ra rb : BitVec 16) (ts : Bool) (late : List Nat)
    (hmode : (tileOf s i.val).lane.work.mode = .read) (hstop : (tileOf s i.val).lane.work.stopped = false)
    (hrow : (tileOf s i.val).lane.work.row < 776) :
    (∃ t, exec (.laneRow i ca cb ra rb ts late false hits) s = .next t ∧ t.cfg = s.cfg ∧ t.tick = s.tick ∧
      (tileOf t i.val).lane.work.row = (tileOf s i.val).lane.work.row + 1) ∧
    (∃ t, exec (.laneRow i ca cb ra rb ts late true hits) s = .next t ∧ t.dram = s.dram ∧ t.cfg = s.cfg ∧
      (tileOf t i.val).lane.work.stopped = true ∧ (tileOf t i.val).lane.work.overrun = true ∧
      (tileOf t i.val).lane.tblLate = satInc (tileOf s i.val).lane.tblLate) := by
  have e := laneRow_of_running i.isLt hact (by rw [hmode]; decide) hdone hstop hrow ca cb ra rb ts late
  obtain ⟨hl, hc, ht, hd, hm⟩ := portRow_keeps i.isLt ra rb ts s
  rw [hmode] at e
  constructor
  · have e := e false hits
    rw [if_neg (by simp)] at e
    generalize portRow i.val ra rb ts s = w at e hl hc ht hd hm
    dsimp only at e
    rw [if_pos rfl] at e
    have hw : MemoryIdle w := by
      unfold MemoryIdle
      rw [hm]
      exact hidle
    obtain ⟨p, c, hu⟩ := (traffic_idle hw hok (i.val / 16) (rowSpans w b i.val (tileOf s i.val).lane.work.row)).1
    generalize traffic (i.val / 16) hits (rowSpans w b i.val (tileOf s i.val).lane.work.row) w = u at e hu
    obtain ⟨hcfg, htick, hrows⟩ := readRow_rowHeld b i.val (tileOf s i.val).lane.work.row ca cb late u
    generalize readRow b i.val (tileOf s i.val).lane.work.row ca cb late u = v at e hcfg htick hrows
    have huc : u.cfg = w.cfg := by rw [hu]
    have hut : u.tick = w.tick := by rw [hu]
    have hur : tileOf u i.val = tileOf w i.val := by rw [hu]; rfl
    refine ⟨_, congrArg Host.Outcome.next e, hcfg.trans (huc.trans hc), htick.trans (hut.trans ht), ?_⟩
    rw [modWork, modLane, tileOf_modTile_same i.isLt]
    have h := row_of_rows hrows i.isLt
    rw [hur, hl] at h
    exact congrArg (· + 1) h
  · have e := e true hits
    rw [if_pos (by simp)] at e
    refine ⟨_, congrArg Host.Outcome.next e, hd, hc, ?_⟩
    rw [modLane, tileOf_modTile_same i.isLt, hl]
    exact ⟨rfl, rfl, rfl⟩

/-! ### The end of a frame and its deadline -/

/-- Between the two states the sets, the tick block and the tiles are the same, and the memory stays idle. -/
def TileHeld (s t : State) : Prop := t.cfg = s.cfg ∧ t.tick = s.tick ∧ t.tiles = s.tiles ∧ MemoryIdle t

theorem TileHeld.trans {s t u : State} (a : TileHeld s t) (b : TileHeld t u) : TileHeld s u := by
  obtain ⟨ha, hb, hc, -⟩ := a
  obtain ⟨hd, he, hf, hg⟩ := b
  exact ⟨hd.trans ha, he.trans hb, hf.trans hc, hg⟩

theorem stageWrite_tileHeld {s : State} (h : MemoryIdle s) (a : Nat) (bs : List Byte) : TileHeld s (stageWrite a bs s) := by
  unfold stageWrite
  split
  · exact ⟨rfl, rfl, rfl, h⟩
  · exact ⟨rfl, rfl, rfl, h⟩

theorem traffic_tileHeld {s : State} (h : MemoryIdle s) {hits : List (Nat × EccHit)} (hok : Correctable hits) (port : Nat)
    (l : List Span) : TileHeld s (traffic port hits l s) := by
  have hp := (traffic_idle h hok port l).1
  obtain ⟨hc, ht, hx, -⟩ := hp.only
  exact ⟨hc, ht, hx, hp.keeps.2.2.1 h⟩

theorem putStats_tileHeld {s : State} (h : MemoryIdle s) (b : Bank) (t : Nat) (st : BitVec 8) :
    TileHeld s (putStats b t st s) := by
  have ht := traffic_tileHeld h (hits := []) (fun _ hx => absurd hx (List.not_mem_nil)) (t / 16)
    [writes (statsAddr s b + 64 + 1088 * t) 1088]
  exact ht.trans (stageWrite_tileHeld ht.2.2.2 _ _)

theorem putStatus_tileHeld {s : State} (h : MemoryIdle s) {hits : List (Nat × EccHit)} (hok : Correctable hits) (b : Bank)
    (t : Nat) (st : BitVec 8) : TileHeld s (putStatus b t st hits s) := by
  have ht := traffic_tileHeld h hok (t / 16) [writes (statsAddr s b + t) 1]
  exact ht.trans (stageWrite_tileHeld ht.2.2.2 _ _)

theorem putSide_tileHeld {s : State} (h : MemoryIdle s) (b : Bank) (t : Nat) (st : BitVec 8) : TileHeld s (putSide b t st s) := by
  unfold putSide
  split
  · exact ⟨rfl, rfl, rfl, h⟩
  · exact ⟨rfl, rfl, rfl, h⟩

/-- What the port judges of TSTAT touches no lane and no calibration. -/
theorem tstatJudge_keeps {t : Nat} (h : t < 64) (s : State) :
    (tileOf (tstatJudge t s) t).lane = (tileOf s t).lane ∧ (tileOf (tstatJudge t s) t).cal = (tileOf s t).cal ∧
      (tstatJudge t s).cfg = s.cfg ∧ (tstatJudge t s).tick = s.tick := by
  unfold tstatJudge
  extract_lets p chatter run stuck
  split
  · exact ⟨rfl, rfl, rfl, rfl⟩
  · rw [raiseErrs_cfg, raiseErrs_tick]
    have e (l : List ErrRec) (u : State) : tileOf (raiseErrs l u) t = tileOf u t := by
      rw [tileOf, raiseErrs_tiles, tileOf]
    rw [e, modPort, tileOf_modTile_same h]
    exact ⟨rfl, rfl, rfl, rfl⟩

/-- The frame's results go to the tile, with the status byte of R149; nothing else is written. -/
theorem recordFrame_eqs {t : Nat} (h : t < 64) (b : Bank) (los : Bool) (causes : BitVec 8) (ovr : Bool) (s : State) :
    let u := recordFrame b t los causes ovr s
    (tileOf u t).lane.status = statusByte s t los ovr ∧ (tileOf u t).lane.work.done = true ∧
      (tileOf u t).lane.work.overrun = (tileOf s t).lane.work.overrun ∧ (tileOf u t).cal.frameDone = true ∧
      u.cfg = s.cfg ∧ u.tick = s.tick ∧ u.memc = s.memc := by
  unfold recordFrame
  extract_lets st w a live slot
  rw [tileOf_modTile_same h]
  exact ⟨rfl, rfl, rfl, rfl, rfl, rfl, rfl⟩

/-- What follows the record of a frame leaves the lane, the calibration, the sets and the tick block. -/
theorem frameTail_keeps {t : Nat} (h : t < 64) {s u : State} (hu : TileHeld s u) (b : Bank) (st : BitVec 8) :
    let x := tstatJudge t (putSide b t st u)
    (tileOf x t).lane = (tileOf s t).lane ∧ (tileOf x t).cal = (tileOf s t).cal ∧ x.cfg = s.cfg ∧ x.tick = s.tick := by
  obtain ⟨hc, ht, hx, hm⟩ := hu
  obtain ⟨hc', ht', hx', -⟩ := putSide_tileHeld hm b t st
  obtain ⟨hl, hk, hc'', ht''⟩ := tstatJudge_keeps h (putSide b t st u)
  have e : tileOf (putSide b t st u) t = tileOf s t := by rw [tileOf, hx', hx, tileOf]
  exact ⟨hl.trans (congrArg Tile.lane e), hk.trans (congrArg Tile.cal e), hc''.trans (hc'.trans hc), ht''.trans (ht'.trans ht)⟩

theorem frameEnded (i : Fin 64) (s : State) (b : Bank) (hits : List (Nat × EccHit)) (hact : activeSet s = some b)
    (hdone : (tileOf s i.val).lane.work.done = false) (hidle : MemoryIdle s) (hok : Correctable hits)
    (hmode : (tileOf s i.val).lane.work.mode ≠ .idle) (hstop : (tileOf s i.val).lane.work.stopped = false)
    (hrow : 776 ≤ (tileOf s i.val).lane.work.row) :
    ∃ t, exec (.laneFrameEnd i hits) s = .next t ∧ t.cfg = s.cfg ∧ t.tick = s.tick ∧
      (tileOf t i.val).lane.work.done = true ∧ (tileOf t i.val).cal.frameDone = true ∧
      (tileOf t i.val).lane.status = statusByte s i.val (endCauses s i.val).1
        ((tileOf s i.val).lane.work.overrun || s.tick.crossLanes.getLsbD i.val) := by
  let u := recordFrame b i.val (endCauses s i.val).1 (endCauses s i.val).2
    ((tileOf s i.val).lane.work.overrun || s.tick.crossLanes.getLsbD i.val) s
  have e : laneFrameEnd i.val hits s = tstatJudge i.val (putSide b i.val (tileOf u i.val).lane.status
      (putStatus b i.val (tileOf u i.val).lane.status hits (putStats b i.val (tileOf u i.val).lane.status u))) := by
    unfold laneFrameEnd
    dsimp only
    rw [hact]
    exact if_neg (by simp [hmode, hdone, hstop, Nat.not_lt.2 hrow, spansWait_idle hidle.2.2])
  obtain ⟨hst, hd, -, hf, hc, ht, hm⟩ := recordFrame_eqs i.isLt b (endCauses s i.val).1 (endCauses s i.val).2
    ((tileOf s i.val).lane.work.overrun || s.tick.crossLanes.getLsbD i.val) s
  have hidle' : MemoryIdle u := by
    unfold MemoryIdle
    rw [show u.memc = s.memc from hm]
    exact hidle
  have h1 := putStats_tileHeld hidle' b i.val (tileOf u i.val).lane.status
  obtain ⟨hl, hk, hc', ht'⟩ := frameTail_keeps i.isLt
    (h1.trans (putStatus_tileHeld h1.2.2.2 hok b i.val (tileOf u i.val).lane.status)) b (tileOf u i.val).lane.status
  refine ⟨_, congrArg Host.Outcome.next e, hc'.trans hc, ht'.trans ht, ?_⟩
  rw [hl, hk]
  exact ⟨hd, hf, hst⟩

/-- The status byte of a frame that has overrun: bit 6 stands, and VALID does not. -/
theorem statusByte_of_overrun (s : State) (t : Nat) (los : Bool) :
    (statusByte s t los true).getLsbD 6 = true ∧ (statusByte s t los true).getLsbD 0 = false := by
  have key : ∀ a b c d e f : Bool, (BitVec.ofNat 8 (false.toNat + a.toNat * 2 + b.toNat * 4 + c.toNat * 8 + d.toNat * 16
      + e.toNat * 32 + true.toNat * 64 + f.toNat * 128)).getLsbD 6 = true ∧
      (BitVec.ofNat 8 (false.toNat + a.toNat * 2 + b.toNat * 4 + c.toNat * 8 + d.toNat * 16 + e.toNat * 32
      + true.toNat * 64 + f.toNat * 128)).getLsbD 0 = false := by decide
  unfold statusByte
  extract_lets x w read sat blend recorded los' stale good valid
  have hv : valid = false := by
    show (match recorded with | some r => r.testBit 0 && !true && !w.held | none => good) = false
    cases recorded with
    | none =>
      show (read && !w.held && !los' && !true && !w.blindFail && !supplyOut s t) = false
      simp
    | some r => simp
  rw [hv]
  exact key _ _ _ _ _ _

theorem frameCut (i : Fin 64) (s : State) (b : Bank) (hact : activeSet s = some b)
    (hdone : (tileOf s i.val).lane.work.done = false) (hidle : MemoryIdle s)
    (hmode : (tileOf s i.val).lane.work.mode ≠ .idle) :
    ∃ t, exec (.laneDeadline i) s = .next t ∧ t.cfg = s.cfg ∧ t.tick = s.tick ∧
      (tileOf t i.val).lane.work.done = true ∧ (tileOf t i.val).lane.work.overrun = true ∧
      (tileOf t i.val).lane.status.getLsbD 6 = true ∧ (tileOf t i.val).lane.status.getLsbD 0 = false := by
  let v := modWork i.val (fun w => { w with stopped := true, overrun := true }) s
  let u := recordFrame b i.val (endCauses v i.val).1 (endCauses v i.val).2 true v
  have e : laneCut i.val s = tstatJudge i.val (putSide b i.val (tileOf u i.val).lane.status
      (putStatus b i.val (tileOf u i.val).lane.status [] u)) := by
    unfold laneCut
    dsimp only
    rw [hact]
    exact if_neg (by simp [hmode, hdone])
  obtain ⟨hst, hd, ho, -, hc, ht, hm⟩ := recordFrame_eqs i.isLt b (endCauses v i.val).1 (endCauses v i.val).2 true v
  have hidle' : MemoryIdle u := by
    unfold MemoryIdle
    rw [show u.memc = s.memc from hm]
    exact hidle
  obtain ⟨hl, -, hc', ht'⟩ := frameTail_keeps i.isLt (putStatus_tileHeld hidle' (hits := [])
    (fun _ hx => absurd hx (List.not_mem_nil)) b i.val (tileOf u i.val).lane.status) b (tileOf u i.val).lane.status
  have hv : (tileOf v i.val).lane.work.overrun = true := by
    show (tileOf (modWork i.val _ s) i.val).lane.work.overrun = true
    rw [modWork, modLane, tileOf_modTile_same i.isLt]
  refine ⟨_, congrArg Host.Outcome.next e, hc'.trans hc, ht'.trans ht, ?_⟩
  rw [hl]
  refine ⟨hd, ho.trans hv, ?_⟩
  rw [show (tileOf u i.val).lane.status = statusByte v i.val (endCauses v i.val).1 true from hst]
  exact statusByte_of_overrun v i.val _

/-! ### The blanking work of a port that is not imaging -/

/-- The tap after its injection: the factors within the limits, or a rejection; what is in force stays (R121, R126). -/
structure Injected (lo hi : List (BitVec 16)) (x y : Tap) : Prop where
  inForce : y.w = x.w ∧ y.ofs = x.ofs ∧ y.gain = x.gain
  taken : ∀ o g, injection lo hi = some (o, g) → y.injOk = true ∧ y.held = some (BitVec.ofInt 32 o, BitVec.ofInt 32 g)
  refused : injection lo hi = none → y.injOk = false ∧ y.held = x.held

theorem inject_tap {t : Nat} (h : t < 64) (b : Bool) (lo hi : List (BitVec 16)) (s : State) :
    Injected lo hi (tapOf (tileOf s t) b) (tapOf (tileOf (inject t b lo hi s).1 t) b) := by
  unfold inject
  cases hi' : injection lo hi with
  | none =>
    dsimp only
    rw [modTap, tileOf_modTile_same h, modRdo, tileOf_modTile_same h]
    cases b
    · exact ⟨⟨rfl, rfl, rfl⟩, fun _ _ e => by simp [hi'] at e, fun _ => ⟨rfl, rfl⟩⟩
    · exact ⟨⟨rfl, rfl, rfl⟩, fun _ _ e => by simp [hi'] at e, fun _ => ⟨rfl, rfl⟩⟩
  | some x =>
    obtain ⟨o, g⟩ := x
    dsimp only
    rw [modTap, tileOf_modTile_same h]
    have hg (o' g' : Int) (e : injection lo hi = some (o', g')) : o' = o ∧ g' = g := by
      rw [hi'] at e
      simp only [Option.some.injEq, Prod.mk.injEq] at e
      exact ⟨e.1.symm, e.2.symm⟩
    cases b
    · refine ⟨⟨rfl, rfl, rfl⟩, fun o' g' e => ?_, fun e => by simp [hi'] at e⟩
      obtain ⟨rfl, rfl⟩ := hg o' g' e
      exact ⟨rfl, rfl⟩
    · refine ⟨⟨rfl, rfl, rfl⟩, fun o' g' e => ?_, fun e => by simp [hi'] at e⟩
      obtain ⟨rfl, rfl⟩ := hg o' g' e
      exact ⟨rfl, rfl⟩

/-- An injection of one tap leaves the other, the mark of the period, DRAM and the sets. -/
theorem inject_keeps {t : Nat} (h : t < 64) (b : Bool) (lo hi : List (BitVec 16)) (s : State) :
    let u := (inject t b lo hi s).1
    tapOf (tileOf u t) (!b) = tapOf (tileOf s t) (!b) ∧ (tileOf u t).rdo.blankDone = (tileOf s t).rdo.blankDone ∧
      u.dram = s.dram ∧ u.cfg = s.cfg := by
  unfold inject
  split
  · dsimp only
    rw [modTap, tileOf_modTile_same h]
    cases b
    · exact ⟨rfl, rfl, rfl, rfl⟩
    · exact ⟨rfl, rfl, rfl, rfl⟩
  · dsimp only
    rw [modTap, tileOf_modTile_same h, modRdo, tileOf_modTile_same h]
    cases b
    · exact ⟨rfl, rfl, rfl, rfl⟩
    · exact ⟨rfl, rfl, rfl, rfl⟩

theorem blankingDone (i : Fin 64) (la ha lb hb th : List (BitVec 16)) (s : State)
    (hst : (tileOf s i.val).port.state = .ready) (hclk : (tileOf s i.val).port.pclk = true)
    (hdone : (tileOf s i.val).rdo.blankDone = false) :
    ∃ t, exec (.blankingWorkEnd i la ha lb hb th []) s = .next t ∧ t.dram = s.dram ∧ t.cfg = s.cfg ∧
      (tileOf t i.val).rdo.blankDone = true ∧
      Injected la ha (tileOf s i.val).tapA (tileOf t i.val).tapA ∧ Injected lb hb (tileOf s i.val).tapB (tileOf t i.val).tapB := by
  obtain ⟨u, hu⟩ : ∃ u, u = modRdo i.val (fun r => { r with blankDone := true }) s := ⟨_, rfl⟩
  have e : blankingWork i.val la ha lb hb th [] s = raiseErrs
      (blankErr i.val 0 (inject i.val false la ha u).2
        ++ blankErr i.val 1 (inject i.val true lb hb (inject i.val false la ha u).1).2 ++ blankErr i.val 2 false)
      (inject i.val true lb hb (inject i.val false la ha u).1).1 := by
    rw [hu]
    unfold blankingWork
    dsimp only
    rw [hst, hclk, hdone]
    exact if_neg (by decide)
  have htile : tileOf u i.val = { tileOf s i.val with rdo := { (tileOf s i.val).rdo with blankDone := true } } := by
    rw [hu, modRdo, tileOf_modTile_same i.isLt]
  have hkeep : u.dram = s.dram ∧ u.cfg = s.cfg := by rw [hu]; exact ⟨rfl, rfl⟩
  obtain ⟨hB, hbd, hd, hc⟩ := inject_keeps i.isLt false la ha u
  obtain ⟨hA, hbd', hd', hc'⟩ := inject_keeps i.isLt true lb hb (inject i.val false la ha u).1
  have iA := inject_tap i.isLt false la ha u
  have iB := inject_tap i.isLt true lb hb (inject i.val false la ha u).1
  have htiles (l : List ErrRec) (v : State) : tileOf (raiseErrs l v) i.val = tileOf v i.val := by
    rw [tileOf, raiseErrs_tiles, tileOf]
  refine ⟨_, congrArg Host.Outcome.next e, ?_, ?_, ?_, ?_, ?_⟩
  · rw [raiseErrs_dram]
    exact hd'.trans (hd.trans hkeep.1)
  · rw [raiseErrs_cfg]
    exact hc'.trans (hc.trans hkeep.2)
  · rw [htiles, hbd', hbd, htile]
  · rw [htiles]
    have h := iA
    rw [htile] at h
    rw [show (tileOf (inject i.val true lb hb (inject i.val false la ha u).1).1 i.val).tapA
      = (tileOf (inject i.val false la ha u).1 i.val).tapA from hA]
    exact h
  · rw [htiles]
    have h := iB
    rw [show tapOf (tileOf (inject i.val false la ha u).1 i.val) true = (tileOf u i.val).tapB from hB, htile] at h
    exact h

/-- Settles O56: the rows of a lane, the end of its frame, its deadline, and the blanking work, each by its own rule. -/
theorem lanesAndBlankingRun : Obligations.LanesAndBlankingRun := by
  refine ⟨fun i s b hits hact hdone hidle hok =>
    ⟨fun ca cb ra rb ts full late hfault hmode hstop hrow => ?_,
      fun ca cb ra rb ts late => laneRow_read i s b hits hact hdone hidle hok ca cb ra rb ts late,
      frameEnded i s b hits hact hdone hidle hok, frameCut i s b hact hdone hidle⟩,
    fun i la ha lb hb th s hst hclk hdone => ?_⟩
  · have h := laneRow_placeholder i s b hits hact hdone hidle hok ca cb ra rb ts full late hfault hmode hstop hrow
    rw [placeholderRow] at h
    exact h
  · obtain ⟨t, e, hd, hc, hbd, hA, hB⟩ := blankingDone i la ha lb hb th s hst hclk hdone
    have h (b : Bool) : Injected (if b then lb else la) (if b then hb else ha) (tapOf (tileOf s i.val) b)
        (tapOf (tileOf t i.val) b) := by
      cases b
      · exact hA
      · exact hB
    exact ⟨t, e, hd, hc, hbd, fun b => (h b).inForce, fun b => (h b).taken, fun b => (h b).refused⟩

end Sys2Proof.Proofs
end

section
/-! PROOFS. Flat-field calibration: due tiles, the start, and the phases (06 R157 to R167). -/
namespace Sys2Proof.Proofs

open Sys2Proof Sys2Proof.Machine Sys2Proof.Laws

/-! ### A tile's calibration -/

theorem tileOf_modCal_same {t : Nat} (h : t < 64) (f : Cal → Cal) (s : State) :
    tileOf (modCal t f s) t = { tileOf s t with cal := f (tileOf s t).cal } := by
  rw [modCal, tileOf_modTile_same h]

theorem tileOf_modKeep (f : Keep → Keep) (s : State) (t : Nat) : tileOf (modKeep f s) t = tileOf s t := rfl

theorem tileOf_raiseErrs (l : List ErrRec) (s : State) (t : Nat) : tileOf (raiseErrs l s) t = tileOf s t := by
  rw [tileOf, raiseErrs_tiles, tileOf]

theorem coilOf_raiseErrs (l : List ErrRec) (s : State) (t : Nat) : coilOf (raiseErrs l s) t = coilOf s t := by
  simp only [coilOf, raiseErrs_shut]

/-- An answer to the SHUTTER_CALs that wait writes the requests and the replies alone. -/
theorem calAnswer_only {β : Type} {g : State → β} (hg : BlindPost g) (hc : ∀ s l, g { s with calReqs := l } = g s)
    (t : Nat) (rec : List Word) (s : State) : g (calAnswer t rec s) = g s := by
  unfold calAnswer
  exact (forEach_keeps (fun r s => replyParts_only hg _ _ _ _ s) _ _).trans (hc _ _)

theorem tileOf_calAnswer (t : Nat) (rec : List Word) (s : State) (u : Nat) : tileOf (calAnswer t rec s) u = tileOf s u :=
  calAnswer_only (g := fun s => tileOf s u) (fun _ _ _ _ => rfl) (fun _ _ => rfl) t rec s

theorem tileOf_setDue {t : Nat} (h : t < 64) (s : State) : tileOf (setDue t s) t = { tileOf s t with
    cal := { (tileOf s t).cal with dueSfn := sfnAdd (tileOf s t).cal.lastSfn (fCal s) } } := tileOf_modCal_same h _ s

/-- An abandonment counted once leaves all of the tile but its count and its mark. -/
theorem countAbandon_eqs {t : Nat} (h : t < 64) (s : State) : ∃ a n,
    tileOf (countAbandon t s) t = { tileOf s t with cal := { (tileOf s t).cal with abandonSeen := a, abandCnt := n } } ∧
      ((tileOf s t).cal.abandoning = false → n = satInc (tileOf s t).cal.abandCnt) ∧
      (countAbandon t s).shut = s.shut := by
  unfold countAbandon
  split
  · next ha => exact ⟨_, _, rfl, fun h => absurd ha (by rw [h]; exact Bool.false_ne_true), rfl⟩
  · refine ⟨true, satInc (tileOf s t).cal.abandCnt, ?_, fun _ => rfl, rfl⟩
    rw [tileOf_modKeep, tileOf_modCal_same h]

/-- A calibration that ends abandoned: the tile is IDLE, with the cause, and keeps its O region (R164, R165). -/
theorem calAbandoned_eqs {t : Nat} (h : t < 64) (cause : Nat) (last : Sfn) (s : State) :
    let u := calAbandoned t cause last s
    (tileOf u t).cal.phase = .idle ∧ (tileOf u t).cal.lastCause = BitVec.ofNat 4 cause ∧
      (tileOf u t).lane = (tileOf s t).lane ∧
      ((tileOf s t).cal.abandoning = false → (tileOf u t).cal.abandCnt = satInc (tileOf s t).cal.abandCnt) := by
  obtain ⟨a, n, hc, hn, -⟩ := countAbandon_eqs h s
  unfold calAbandoned
  dsimp only
  rw [tileOf_calAnswer, tileOf_setDue h, tileOf_modCal_same h, hc]
  exact ⟨rfl, rfl, rfl, hn⟩

/-- A calibration that completes: the O region and the target exchange roles (R162, R164). -/
theorem calComplete_eqs {t : Nat} (h : t < 64) (cause : Nat) (last : Sfn) (s : State) :
    let u := calComplete t cause last s
    (tileOf u t).cal.phase = .idle ∧ (tileOf u t).lane.o = (tileOf s t).cal.target ∧
      (tileOf u t).cal.target = (tileOf s t).lane.o ∧ (tileOf u t).cal.doneCnt = satInc (tileOf s t).cal.doneCnt := by
  unfold calComplete
  extract_lets v w
  have hv : tileOf w t = { tileOf s t with
      lane := { (tileOf s t).lane with o := (tileOf s t).cal.target },
      cal := { (tileOf s t).cal with target := (tileOf s t).lane.o, phase := .idle, index := 0, abandoning := false,
                                     lastCause := BitVec.ofNat 4 cause, tcal := (tileOf s t).cal.tcalHeld, tcalSet := true,
                                     doneSince := true, ended := true, holdoff := false,
                                     doneCnt := satInc (tileOf s t).cal.doneCnt, lastSfn := last, due := false } } :=
    tileOf_modTile_same h _ s
  have hk (l : List Byte) : tileOf (keepOwn t l w) t = tileOf w t :=
    keepOwn_only (g := fun s => tileOf s t) (fun _ _ => rfl) t l w
  clear_value w
  rw [tileOf_calAnswer, tileOf_setDue h, hk, hv]
  exact ⟨rfl, rfl, rfl, rfl⟩

/-- An abandonment that goes by way of OPEN keeps its cause, and the tile keeps its O region (R165). -/
theorem calToOpen_eqs {t : Nat} (h : t < 64) (cause : Nat) (s : State) :
    let u := calToOpen t cause s
    (tileOf u t).cal.phase = .open ∧ (tileOf u t).cal.abandoning = true ∧
      (tileOf u t).cal.causeNext = BitVec.ofNat 4 cause ∧ (tileOf u t).lane = (tileOf s t).lane := by
  obtain ⟨a, n, hc, -, -⟩ := countAbandon_eqs h s
  obtain ⟨w, hw⟩ : ∃ w, w = modCal t (fun c => { c with
      phase := .open, index := 0, abandoning := true, causeNext := BitVec.ofNat 4 cause }) (countAbandon t s) := ⟨_, rfl⟩
  have e : tileOf (calToOpen t cause s) t = tileOf w t := by
    unfold calToOpen
    dsimp only
    rw [← hw]
    split
    · rfl
    · rfl
  dsimp only
  rw [e, hw, tileOf_modCal_same h, hc]
  exact ⟨rfl, rfl, rfl, rfl⟩

/-! ### Which phase a decision belongs to -/

theorem phase_of_calMove_abandon {s : State} {t c : Nat} (h : calMove s t = .abandon c) :
    (c = 1 → (tileOf s t).cal.phase = .close) ∧ (c = 6 → (tileOf s t).cal.phase = .accum) := by
  unfold calMove at h
  dsimp only at h
  split at h
  · cases h
  · cases hp : (tileOf s t).cal.phase <;> rw [hp] at h <;> dsimp only at h
    all_goals (repeat' split at h) <;> cases h <;> simp

theorem phase_of_calMove_openUnconfirmed {s : State} {t : Nat} (h : calMove s t = .openUnconfirmed) :
    (tileOf s t).cal.phase = .open ∧ (tileOf s t).cal.abandoning = false := by
  unfold calMove at h
  dsimp only at h
  split at h
  · cases h
  · cases hp : (tileOf s t).cal.phase <;> rw [hp] at h <;> dsimp only at h
    pick_goal 5  -- the phase OPEN
    · cases ha : (tileOf s t).cal.abandoning with
      | false => exact ⟨rfl, rfl⟩
      | true =>
        rw [ha, if_pos rfl] at h
        (repeat' split at h) <;> cases h
    all_goals (repeat' split at h) <;> cases h

/-! ### The decisions applied -/

/-- What a decision first notes of the frame judged. -/
def noted (c : Cal) : Cal :=
  { c with
    frameDone := false, faultHeld := false,
    curVarC := if c.phase = .close then c.frameVar else c.curVarC,
    curVarO := if c.phase = .open then c.frameVar else c.curVarO,
    varO := if c.phase = .open && c.computed then c.frameVar else c.varO }

theorem tileOf_modCal_noted {t : Nat} (h : t < 64) (s : State) :
    tileOf (modCal t noted s) t = { tileOf s t with cal := noted (tileOf s t).cal } := tileOf_modCal_same h noted s

theorem coilOf_modCal (t : Nat) (f : Cal → Cal) (s : State) (u : Nat) : coilOf (modCal t f s) u = coilOf s u := rfl
theorem tileOf_imageFault (t code : Nat) (s : State) (u : Nat) : tileOf (imageFault t code s) u = tileOf s u := rfl
theorem tileOf_requestCoil (t : Nat) (close : Bool) (s : State) (u : Nat) : tileOf (requestCoil t close s) u = tileOf s u := rfl

theorem coilOf_requestCoil {t : Nat} (h : t < 64) (close : Bool) (s : State) :
    (coilOf (requestCoil t close s) t).requests = (coilOf s t).requests ++ [{ close, move := none }] := by
  rw [requestCoil, coilOf_modCoil_same h]

/-- The move of the phase that the frame decides, with the errors it raises. -/
theorem moveNow_of {s : State} {t : Nat} {m : CalMove} (h : calMove s t = m) :
    ∃ l, moveNow t m s = raiseErrs l (applyMove t m s).1 :=
  ⟨(applyMove t m s).2, if_pos h⟩

theorem enterCompute_eqs {t : Nat} (h : t < 64) (s : State) :
    (tileOf (enterCompute t s) t).cal.phase = .compute ∧ (tileOf (enterCompute t s) t).lane = (tileOf s t).lane ∧
      (coilOf (enterCompute t s) t).requests = (coilOf s t).requests ++ [{ close := false, move := none }] := by
  unfold enterCompute
  extract_lets tf anchor u
  have hu : (tileOf u t).cal.phase = .compute ∧ (tileOf u t).lane = (tileOf s t).lane := by
    show (tileOf (modCal t _ s) t).cal.phase = .compute ∧ (tileOf (modCal t _ s) t).lane = _
    rw [tileOf_modCal_same h]
    exact ⟨rfl, rfl⟩
  have hc : coilOf u t = coilOf s t := coilOf_modCal t _ s t
  clear_value u
  rw [tileOf_requestCoil, coilOf_requestCoil h, hc]
  exact ⟨hu.1, hu.2, rfl⟩

theorem accumComputes (i : Fin 64) (s : State) (h : calMove s i.val = .compute) :
    ∃ t, exec (.accumEnd i) s = .next t ∧ (tileOf t i.val).cal.phase = .compute ∧
      (tileOf t i.val).lane.o = (tileOf s i.val).lane.o ∧
      (coilOf t i.val).requests = (coilOf s i.val).requests ++ [{ close := false, move := none }] := by
  obtain ⟨l, e⟩ := moveNow_of h
  refine ⟨_, congrArg Host.Outcome.next ((if_pos h).trans e), ?_⟩
  have ha : (applyMove i.val .compute s).1 = enterCompute i.val (modCal i.val noted s) := rfl
  obtain ⟨hp, hl, hc⟩ := enterCompute_eqs i.isLt (modCal i.val noted s)
  rw [tileOf_raiseErrs, coilOf_raiseErrs, ha, hl, hc, tileOf_modCal_noted i.isLt, coilOf_modCal]
  exact ⟨hp, rfl, rfl⟩

theorem accumAbandons (i : Fin 64) (s : State) (h : calMove s i.val = .abandon 6) :
    ∃ t, exec (.accumEnd i) s = .next t ∧ (tileOf t i.val).cal.phase = .open ∧ (tileOf t i.val).cal.abandoning = true ∧
      (tileOf t i.val).cal.causeNext = 6 ∧ (tileOf t i.val).lane.o = (tileOf s i.val).lane.o := by
  obtain ⟨l, e⟩ := moveNow_of h
  have hphase := (phase_of_calMove_abandon h).2 rfl
  have ha : (applyMove i.val (.abandon 6) s).1 = calToOpen i.val 6 (modCal i.val noted s) := by
    unfold applyMove
    dsimp only
    rw [hphase]
    rfl
  obtain ⟨hp, hab, hc, hl⟩ := calToOpen_eqs i.isLt 6 (modCal i.val noted s)
  refine ⟨_, congrArg Host.Outcome.next ((if_neg (by rw [h]; decide)).trans e), ?_⟩
  rw [tileOf_raiseErrs, ha, hl, tileOf_modCal_noted i.isLt]
  exact ⟨hp, hab, hc, rfl⟩

theorem computeOpens (i : Fin 64) (s : State) (h : calMove s i.val = .open) :
    ∃ t, exec (.computeEnd i) s = .next t ∧ (tileOf t i.val).cal.phase = .open ∧
      (tileOf t i.val).cal.index = 0 ∧ (tileOf t i.val).lane.o = (tileOf s i.val).lane.o := by
  obtain ⟨l, e⟩ := moveNow_of h
  have ha : (applyMove i.val .open s).1 = modCal i.val (fun c => { c with phase := .open, index := 0 })
      (modCal i.val noted s) := rfl
  refine ⟨_, congrArg Host.Outcome.next e, ?_⟩
  rw [tileOf_raiseErrs, ha, tileOf_modCal_same i.isLt, tileOf_modCal_noted i.isLt]
  exact ⟨rfl, rfl, rfl⟩

theorem traverseFinishes (i : Fin 64) (s : State) (h : calMove s i.val = .finish) :
    ∃ t, exec (.traverseEnd i) s = .next t ∧ (tileOf t i.val).cal.phase = .idle ∧
      (tileOf t i.val).lane.o = (tileOf s i.val).cal.target ∧ (tileOf t i.val).cal.target = (tileOf s i.val).lane.o ∧
      (tileOf t i.val).cal.doneCnt = satInc (tileOf s i.val).cal.doneCnt ∧ t.keep.array = s.keep.array := by
  obtain ⟨l, e⟩ := moveNow_of h
  have ha : (applyMove i.val .finish s).1 = calComplete i.val 0 (prevSfn s.tick.sfn) (modCal i.val noted s) := rfl
  obtain ⟨hp, ho, ht, hd⟩ := calComplete_eqs i.isLt 0 (prevSfn s.tick.sfn) (modCal i.val noted s)
  obtain ⟨⟨-, -, harray, -⟩, -⟩ := moveNow_kept i.val .finish s
  refine ⟨_, rfl, ?_⟩
  rw [harray, e, tileOf_raiseErrs, ha, ho, ht, hd, tileOf_modCal_noted i.isLt]
  exact ⟨hp, rfl, rfl, rfl, rfl⟩

theorem closeAbandons (i : Fin 64) (s : State) (h : calMove s i.val = .abandon 1) :
    ∃ t, exec (.closeUnconfirmed i) s = .next t ∧ (tileOf t i.val).cal.phase = .open ∧
      (tileOf t i.val).cal.abandoning = true ∧ (tileOf t i.val).cal.causeNext = 1 ∧
      (tileOf t i.val).lane.o = (tileOf s i.val).lane.o := by
  obtain ⟨l, e⟩ := moveNow_of h
  have hphase := (phase_of_calMove_abandon h).1 rfl
  obtain ⟨w, hw, ha⟩ : ∃ w, tileOf w i.val = tileOf (modCal i.val noted s) i.val ∧
      (applyMove i.val (.abandon 1) s).1 = calToOpen i.val 1 w := by
    unfold applyMove
    dsimp only
    rw [hphase]
    refine ⟨_, ?_, rfl⟩
    split
    · rfl
    · rfl
  obtain ⟨hp, hab, hc, hl⟩ := calToOpen_eqs i.isLt 1 w
  refine ⟨_, congrArg Host.Outcome.next ((if_pos hphase).trans e), ?_⟩
  rw [tileOf_raiseErrs, ha, hl, hw, tileOf_modCal_noted i.isLt]
  exact ⟨hp, hab, hc, rfl⟩

theorem openAbandons (i : Fin 64) (s : State) (h : calMove s i.val = .openUnconfirmed) :
    ∃ t, exec (.openUnconfirmed i) s = .next t ∧ (tileOf t i.val).cal.phase = .idle ∧
      (tileOf t i.val).cal.lastCause = 2 ∧ (tileOf t i.val).lane.o = (tileOf s i.val).lane.o ∧
      (tileOf t i.val).cal.abandCnt = satInc (tileOf s i.val).cal.abandCnt := by
  obtain ⟨l, e⟩ := moveNow_of h
  obtain ⟨-, hab⟩ := phase_of_calMove_openUnconfirmed h
  have ha : (applyMove i.val .openUnconfirmed s).1 = calAbandoned i.val 2 (prevSfn s.tick.sfn)
      (imageFault i.val 6 (modCal i.val noted s)) := rfl
  obtain ⟨hp, hc, hl, hn⟩ := calAbandoned_eqs i.isLt 2 (prevSfn s.tick.sfn) (imageFault i.val 6 (modCal i.val noted s))
  rw [tileOf_imageFault, tileOf_modCal_noted i.isLt] at hl hn
  refine ⟨_, congrArg Host.Outcome.next ((if_pos h).trans e), ?_⟩
  rw [tileOf_raiseErrs, ha, hl, hn hab]
  exact ⟨hp, hc, rfl, rfl⟩

theorem openEndsAbandoned (i : Fin 64) (s : State) (h : calMove s i.val = .idleAfter true) :
    ∃ t, exec (.openUnconfirmed i) s = .next t ∧ (tileOf t i.val).cal.phase = .idle ∧
      (tileOf t i.val).cal.lastCause = (tileOf s i.val).cal.causeNext ∧
      (tileOf t i.val).lane.o = (tileOf s i.val).lane.o := by
  obtain ⟨l, e⟩ := moveNow_of h
  have ha : (applyMove i.val (.idleAfter true) s).1 = calAbandoned i.val (tileOf s i.val).cal.causeNext.toNat
      (prevSfn s.tick.sfn) (imageFault i.val 6 (modCal i.val noted s)) := rfl
  obtain ⟨hp, hc, hl, -⟩ := calAbandoned_eqs i.isLt (tileOf s i.val).cal.causeNext.toNat (prevSfn s.tick.sfn)
    (imageFault i.val 6 (modCal i.val noted s))
  rw [tileOf_imageFault, tileOf_modCal_noted i.isLt] at hl
  refine ⟨_, congrArg Host.Outcome.next ((if_neg (by rw [h]; decide)).trans e), ?_⟩
  rw [tileOf_raiseErrs, ha, hl, hc, BitVec.ofNat_toNat, BitVec.setWidth_eq]
  exact ⟨hp, rfl, rfl⟩

/-! ### Due tiles and the start -/

theorem calStarts (i : Fin 64) (s : State)
    (hreq : (tileOf s i.val).cal.requested = true ∨ ((tileOf s i.val).cal.due = true ∧ calEn s i.val = true))
    (hcan : calCanStart s i.val = true) :
    ∃ t, exec (.calStart i) s = .next t ∧ t.dram = s.dram ∧ (tileOf t i.val).cal.phase = .close ∧
      (tileOf t i.val).cal.index = 0 ∧ (tileOf t i.val).cal.firstHeld = s.tick.sfn ∧
      (tileOf t i.val).cal.slot = freeSlot s ∧
      (coilOf t i.val).requests = (coilOf s i.val).requests ++ [{ close := true, move := none }] := by
  have hcand : ((tileOf s i.val).cal.requested || ((tileOf s i.val).cal.due && calEn s i.val)) = true := by
    rcases hreq with h | ⟨h, h'⟩
    · rw [h, Bool.true_or]
    · rw [h, h', Bool.and_true, Bool.or_true]
  have e : exec (.calStart i) s = .next (calStart i.val s) :=
    congrArg Host.Outcome.next ((if_pos hcand).trans (if_pos hcan))
  refine ⟨_, e, rfl, ?_⟩
  unfold calStart
  dsimp only
  rw [tileOf_requestCoil, coilOf_requestCoil i.isLt, tileOf_modCal_same i.isLt, coilOf_modCal]
  exact ⟨rfl, rfl, rfl, rfl, rfl⟩

theorem holdoffEnds (i : Fin 64) (s : State) : ∃ t, exec (.abandonHoldoffEnd i) s = .next t ∧ t.dram = s.dram ∧
    t.shut = s.shut ∧ (heldOff s i.val = false → (tileOf t i.val).cal.holdoff = false) := by
  cases hh : heldOff s i.val with
  | true => exact ⟨s, congrArg Host.Outcome.next (if_pos hh), rfl, rfl, fun h => absurd h (by decide)⟩
  | false =>
    refine ⟨_, congrArg Host.Outcome.next (if_neg (by rw [hh]; exact Bool.false_ne_true)), rfl, rfl, fun _ => ?_⟩
    have hu : (tileOf (modCal i.val (fun c => { c with holdoff := false }) s) i.val).cal.holdoff = false := by
      rw [tileOf_modCal_same i.isLt]
    generalize modCal i.val (fun c => { c with holdoff := false }) s = u at hu ⊢
    unfold evalDue
    dsimp only
    rw [tileOf_modCal_same i.isLt]
    show heldOff u i.val = false
    unfold heldOff
    dsimp only
    rw [hu, Bool.false_and]

/-- Settles O57: each event applies one decision of the flat-field unit, by its rule. -/
theorem calibrationRuns : Obligations.CalibrationRuns := by
  refine ⟨fun i s => ⟨fun hd hs hp => ?_, holdoffEnds i s, calStarts i s⟩,
    fun i s => ⟨accumComputes i s, accumAbandons i s, computeOpens i s, traverseFinishes i s, closeAbandons i s,
      openAbandons i s, openEndsAbandoned i s⟩⟩
  refine ⟨_, congrArg Host.Outcome.next (if_pos (by rw [hd, hs, hp]; rfl)), rfl, rfl, ?_⟩
  rw [tileOf_modCal_same i.isLt]

end Sys2Proof.Proofs
end

section
/-! PROOFS. The shutter drive: the strokes of a coil and the sense grid (07 R174 to R185). -/
namespace Sys2Proof.Proofs

open Sys2Proof Sys2Proof.Machine Sys2Proof.Laws

/-! ### What the drive leaves -/

/-- Between the two states the tiles, DRAM, the time, the tick block and the number of the sample are the same. -/
def DriveHeld (s t : State) : Prop :=
  t.tiles = s.tiles ∧ t.dram = s.dram ∧ t.clock = s.clock ∧ t.tick = s.tick ∧ t.shut.sample = s.shut.sample

/-- Every coil stands in the same state with the same requests. -/
def CoilsKept (s t : State) : Prop :=
  ∀ n, (coilOf t n).state = (coilOf s n).state ∧ (coilOf t n).requests = (coilOf s n).requests

/-- Neither moves a coil nor takes a request. -/
def DriveQuiet (s t : State) : Prop := DriveHeld s t ∧ CoilsKept s t

/-- Changes coil `n` of the drive at most. -/
def OneCoil (n : Nat) (s t : State) : Prop := DriveHeld s t ∧ ∀ k, k ≠ n → coilOf t k = coilOf s k

theorem DriveHeld.refl (s : State) : DriveHeld s s := ⟨rfl, rfl, rfl, rfl, rfl⟩

theorem DriveHeld.trans {s t u : State} (a : DriveHeld s t) (b : DriveHeld t u) : DriveHeld s u := by
  obtain ⟨a1, a2, a3, a4, a5⟩ := a
  obtain ⟨b1, b2, b3, b4, b5⟩ := b
  exact ⟨b1.trans a1, b2.trans a2, b3.trans a3, b4.trans a4, b5.trans a5⟩

theorem DriveQuiet.refl (s : State) : DriveQuiet s s := ⟨DriveHeld.refl s, fun _ => ⟨rfl, rfl⟩⟩

theorem DriveQuiet.trans {s t u : State} (a : DriveQuiet s t) (b : DriveQuiet t u) : DriveQuiet s u :=
  ⟨a.1.trans b.1, fun n => ⟨(b.2 n).1.trans (a.2 n).1, (b.2 n).2.trans (a.2 n).2⟩⟩

theorem OneCoil.refl (n : Nat) (s : State) : OneCoil n s s := ⟨DriveHeld.refl s, fun _ _ => rfl⟩

theorem OneCoil.trans {n : Nat} {s t u : State} (a : OneCoil n s t) (b : OneCoil n t u) : OneCoil n s u :=
  ⟨a.1.trans b.1, fun k hk => (b.2 k hk).trans (a.2 k hk)⟩

theorem driveQuiet_forEach {α : Type} {f : α → State → State} (h : ∀ a s, DriveQuiet s (f a s)) (l : List α) (s : State) :
    DriveQuiet s (forEach l f s) :=
  forEach_invariant (P := DriveQuiet s) (fun a t ht => ht.trans (h a t)) l s (DriveQuiet.refl s)

theorem oneCoil_forEach {α : Type} {n : Nat} {f : α → State → State} (h : ∀ a s, OneCoil n s (f a s)) (l : List α)
    (s : State) : OneCoil n s (forEach l f s) :=
  forEach_invariant (P := OneCoil n s) (fun a t ht => ht.trans (h a t)) l s (OneCoil.refl n s)

theorem driveHeld_forEach_coil {f : Nat → State → State} (h : ∀ n s, OneCoil n s (f n s)) (l : List Nat) (s : State) :
    DriveHeld s (forEach l f s) :=
  forEach_invariant (P := DriveHeld s) (fun a t ht => ht.trans (h a t).1) l s (DriveHeld.refl s)

theorem forEach_coil_of_notMem {f : Nat → State → State} (h : ∀ n s, OneCoil n s (f n s)) {l : List Nat} {i : Nat}
    (hi : i ∉ l) (s : State) : coilOf (forEach l f s) i = coilOf s i := by
  induction l generalizing s with
  | nil => rfl
  | cons n l ih =>
    obtain ⟨hn, hl⟩ := not_or.1 (mt List.mem_cons.2 hi)
    exact (ih hl (f n s)).trans ((h n s).2 i hn)

/-- A loop in which each coil has one turn leaves a coil as its turn does, on a state where it is as before the loop. -/
theorem forEach_coil {f : Nat → State → State} (h : ∀ n s, OneCoil n s (f n s)) {l : List Nat} (hl : l.Nodup) {i : Nat}
    (hi : i ∈ l) (s : State) :
    ∃ u, coilOf u i = coilOf s i ∧ DriveHeld s u ∧ coilOf (forEach l f s) i = coilOf (f i u) i := by
  induction l generalizing s with
  | nil => exact absurd hi List.not_mem_nil
  | cons n l ih =>
    obtain ⟨hn, hl⟩ := List.nodup_cons.1 hl
    rcases List.mem_cons.1 hi with rfl | hi
    · exact ⟨s, rfl, DriveHeld.refl s, forEach_coil_of_notMem h hn _⟩
    · obtain ⟨u, hu, hd, e⟩ := ih hl hi (f n s)
      exact ⟨u, hu.trans ((h n s).2 i (fun e => hn (e ▸ hi))), (h n s).1.trans hd, e⟩

/-! ### The steps of the drive -/

theorem oneCoil_modCoil (n : Nat) (f : Coil → Coil) (s : State) : OneCoil n s (modCoil n f s) :=
  ⟨⟨rfl, rfl, rfl, rfl, rfl⟩, fun _ hk => coilOf_modCoil_ne hk f s⟩

theorem driveQuiet_modCoil {f : Coil → Coil} (n : Nat) (s : State) (h : (f (coilOf s n)).state = (coilOf s n).state ∧
    (f (coilOf s n)).requests = (coilOf s n).requests := by exact ⟨rfl, rfl⟩) : DriveQuiet s (modCoil n f s) := by
  refine ⟨⟨rfl, rfl, rfl, rfl, rfl⟩, fun k => ?_⟩
  by_cases e : k = n
  · subst e
    by_cases hk : k < 64
    · rw [coilOf_modCoil_same hk]
      exact h
    · simp [coilOf, modCoil, vmod, hk]
  · rw [coilOf_modCoil_ne e]
    exact ⟨rfl, rfl⟩

theorem driveHeld_modMoves (p : MoveReq → Bool) (f : MoveReq → MoveReq) (s : State) : DriveHeld s (modMoves p f s) :=
  ⟨rfl, rfl, rfl, rfl, rfl⟩

theorem oneCoil_modMoves (n : Nat) (p : MoveReq → Bool) (f : MoveReq → MoveReq) (s : State) : OneCoil n s (modMoves p f s) :=
  ⟨driveHeld_modMoves p f s, fun _ _ => rfl⟩

theorem oneCoil_groupIdle (n g : Nat) (s : State) : OneCoil n s (groupIdle g s) := by
  unfold groupIdle
  split
  · exact OneCoil.refl n s
  · exact ⟨⟨rfl, rfl, rfl, rfl, rfl⟩, fun _ _ => rfl⟩

theorem oneCoil_dropRequests (n : Nat) (s : State) : OneCoil n s (dropRequests n s) :=
  (oneCoil_modCoil n _ s).trans (oneCoil_modMoves n _ _ _)

theorem oneCoil_beginRelease (n : Nat) (s : State) : OneCoil n s (beginRelease n s) :=
  (oneCoil_modCoil n _ s).trans (oneCoil_groupIdle n _ _)

theorem oneCoil_takeRequest (n : Nat) (r : CoilReq) (s : State) : OneCoil n s (takeRequest n r s) := by
  unfold takeRequest
  extract_lets c u
  have hu : OneCoil n s u := (oneCoil_modCoil n _ s).trans (oneCoil_modMoves n _ _ _)
  clear_value u
  refine hu.trans ?_
  split
  · exact oneCoil_modCoil ..
  · exact oneCoil_modCoil ..
  · exact oneCoil_modCoil ..
  · exact oneCoil_modCoil ..
  · exact (oneCoil_modCoil ..).trans (oneCoil_beginRelease ..)
  · exact oneCoil_beginRelease ..
  · exact OneCoil.refl n u

theorem oneCoil_takeRequests (n : Nat) (s : State) : OneCoil n s (takeRequests n s) :=
  (oneCoil_modCoil n _ s).trans (oneCoil_forEach (oneCoil_takeRequest n) _ _)

theorem oneCoil_faultCoils (n : Nat) (s : State) : OneCoil n s (faultCoils n s) := by
  unfold faultCoils
  dsimp only
  split
  · exact ((oneCoil_dropRequests n s).trans (oneCoil_modCoil ..)).trans (oneCoil_groupIdle ..)
  · split
    · split
      · exact oneCoil_beginRelease n s
      · exact oneCoil_modCoil n _ s
    · exact OneCoil.refl n s

theorem driveQuiet_noteMove (n res dip : Nat) (s : State) : DriveQuiet s (noteMove n res dip s) :=
  ⟨driveHeld_modMoves _ _ s, fun _ => ⟨rfl, rfl⟩⟩

theorem dipStep_keeps (s : State) (g : Nat) (c : Coil) (code : Nat) :
    (dipStep s g c code).1.state = c.state ∧ (dipStep s g c code).1.requests = c.requests := by
  unfold dipStep
  dsimp only
  split
  · exact ⟨rfl, rfl⟩
  · exact ⟨rfl, rfl⟩

/-- A coil's own part of a sample changes that coil alone, and neither its state nor its requests (R181). -/
theorem coilSample_keeps (n code : Nat) (s : State) : OneCoil n s (coilSample n code s) ∧ DriveQuiet s (coilSample n code s) := by
  obtain ⟨hs, hr⟩ := dipStep_keeps s (n / 4) (coilOf s n) code
  unfold coilSample
  dsimp only
  split
  · split
    · exact ⟨oneCoil_modCoil .., driveQuiet_modCoil n s⟩
    · split
      · exact ⟨oneCoil_modCoil .., driveQuiet_modCoil n s⟩
      · split
        · exact ⟨(oneCoil_modCoil n _ s).trans (oneCoil_modMoves n _ _ _),
            (driveQuiet_modCoil n s ⟨hs, hr⟩).trans (driveQuiet_noteMove n 1 _ _)⟩
        · exact ⟨oneCoil_modCoil .., driveQuiet_modCoil n s ⟨hs, hr⟩⟩
  · exact ⟨oneCoil_modCoil .., driveQuiet_modCoil n s⟩
  · exact ⟨oneCoil_modCoil .., driveQuiet_modCoil n s⟩
  · exact ⟨OneCoil.refl n s, DriveQuiet.refl s⟩

theorem driveQuiet_raiseErr (e : ErrRec) (s : State) : DriveQuiet s (raiseErr e s) := by
  refine ⟨⟨raiseErr_tiles e s, raiseErr_dram e s, raiseErr_clock e s, raiseErr_tick e s, ?_⟩, fun n => ?_⟩
  · rw [raiseErr_shut]
  · rw [show coilOf (raiseErr e s) n = coilOf s n from coilOf_raiseErrs [e] s n]
    exact ⟨rfl, rfl⟩

theorem driveQuiet_modGroup (g : Nat) (f : Group → Group) (s : State) : DriveQuiet s (modGroup g f s) :=
  ⟨⟨rfl, rfl, rfl, rfl, rfl⟩, fun _ => ⟨rfl, rfl⟩⟩

theorem driveQuiet_ite {c : Prop} [Decidable c] {s t u : State} (ht : DriveQuiet s t) (hu : DriveQuiet s u) :
    DriveQuiet s (if c then t else u) := by
  split
  · exact ht
  · exact hu

theorem driveQuiet_groupFault (g code : Nat) (s : State) : DriveQuiet s (groupFault g code s) :=
  driveQuiet_forEach (fun n u => driveQuiet_ite (DriveQuiet.refl u)
    ((driveQuiet_modCoil n u).trans (driveQuiet_raiseErr _ _))) (groupCoils g) s

theorem driveQuiet_chopSample (g code : Nat) (s : State) : DriveQuiet s (chopSample g code s) := by
  unfold chopSample
  split
  · exact DriveQuiet.refl s
  · exact driveQuiet_modGroup ..

theorem driveQuiet_rechop (g code : Nat) (s : State) : DriveQuiet s (rechop g code s) := by
  unfold rechop
  split
  · exact DriveQuiet.refl s
  · exact driveQuiet_modGroup ..

theorem driveQuiet_groupSample (g code : Nat) (s : State) : DriveQuiet s (groupSample g code s) := by
  unfold groupSample
  extract_lets x ovc run u v w
  have hu : DriveQuiet s u := driveQuiet_chopSample g code s
  have hv : DriveQuiet u v := driveQuiet_modGroup ..
  have hw : DriveQuiet v w := driveQuiet_ite (driveQuiet_groupFault ..) (DriveQuiet.refl v)
  refine (hu.trans hv).trans (driveQuiet_ite (DriveQuiet.refl v) (hw.trans ?_))
  exact driveQuiet_ite (driveQuiet_groupFault ..) (DriveQuiet.refl w)

theorem driveQuiet_countDefers (s : State) : DriveQuiet s (countDefers s) :=
  driveQuiet_forEach (fun n u => DriveQuiet.trans (t := { u with shut := { u.shut with deferCnt := satInc u.shut.deferCnt } })
    ⟨⟨rfl, rfl, rfl, rfl, rfl⟩, fun _ => ⟨rfl, rfl⟩⟩ (driveQuiet_modCoil n _)) _ s

/-- The moves that are settled leave the list and are answered; the drive is not touched. -/
theorem moveReplies_only {β : Type} {g : State → β} (hg : BlindPost g)
    (hm : ∀ s l, g { s with shut := { s.shut with moves := l } } = g s) (s : State) : g (moveReplies s) = g s := by
  unfold moveReplies
  exact (forEach_keeps (fun m s => replyParts_only hg _ _ _ _ s) _ _).trans (hm _ _)

theorem coilOf_moveReplies (s : State) (n : Nat) : coilOf (moveReplies s) n = coilOf s n :=
  moveReplies_only (g := fun s => coilOf s n) (fun _ _ _ _ => rfl) (fun _ _ => rfl) s

theorem driveHeld_moveReplies (s : State) : DriveHeld s (moveReplies s) :=
  ⟨moveReplies_only (g := fun s => s.tiles) (fun _ _ _ _ => rfl) (fun _ _ => rfl) s,
    moveReplies_only (g := fun s => s.dram) (fun _ _ _ _ => rfl) (fun _ _ => rfl) s,
    moveReplies_only (g := fun s => s.clock) (fun _ _ _ _ => rfl) (fun _ _ => rfl) s,
    moveReplies_only (g := fun s => s.tick) (fun _ _ _ _ => rfl) (fun _ _ => rfl) s,
    moveReplies_only (g := fun s => s.shut.sample) (fun _ _ _ _ => rfl) (fun _ _ => rfl) s⟩

theorem driveQuiet_moveReplies (s : State) : DriveQuiet s (moveReplies s) :=
  ⟨driveHeld_moveReplies s, fun n => by rw [coilOf_moveReplies]; exact ⟨rfl, rfl⟩⟩

/-! ### A coil enters PULLIN -/

theorem lastPullin_coilSample (n code : Nat) (s : State) : (coilSample n code s).shut.lastPullin = s.shut.lastPullin := by
  unfold coilSample
  dsimp only
  split
  · split
    · rfl
    · split
      · rfl
      · split
        · rfl
        · rfl
  · rfl
  · rfl
  · rfl

theorem lastPullin_chopSample (g code : Nat) (s : State) : (chopSample g code s).shut.lastPullin = s.shut.lastPullin := by
  unfold chopSample
  split
  · rfl
  · rfl

theorem lastPullin_rechop (g code : Nat) (s : State) : (rechop g code s).shut.lastPullin = s.shut.lastPullin := by
  unfold rechop
  split
  · rfl
  · rfl

theorem lastPullin_groupFault (g code : Nat) (s : State) : (groupFault g code s).shut.lastPullin = s.shut.lastPullin := by
  refine forEach_keeps (g := fun s => s.shut.lastPullin) (fun n u => ?_) (groupCoils g) s
  split
  · rfl
  · rw [raiseErr_shut]
    rfl

theorem startPullin_eqs {t : Nat} (h : t < 64) (s : State) : (coilOf (startPullin t s) t).state = .pullin ∧
    (startPullin t s).shut.lastPullin = some s.shut.sample ∧ DriveHeld s (startPullin t s) := by
  unfold startPullin
  extract_lets g susp raw running u v sh w x y
  have hu : (coilOf u t).state = .pullin := by
    show (coilOf (modCoil t _ s) t).state = _
    rw [coilOf_modCoil_same h]
  have hsu : DriveHeld s u := (oneCoil_modCoil t _ s).1
  have huv : DriveQuiet u v := driveQuiet_ite (driveQuiet_noteMove ..) (DriveQuiet.refl u)
  have hvw : DriveQuiet v w := ⟨⟨rfl, rfl, rfl, rfl, rfl⟩, fun _ => ⟨rfl, rfl⟩⟩
  have hwp : w.shut.lastPullin = some v.shut.sample := rfl
  have hsample : v.shut.sample = s.shut.sample := (hsu.trans huv.1).2.2.2.2
  have hwx : DriveQuiet w x := (coilSample_keeps t raw w).2
  have hxp : x.shut.lastPullin = w.shut.lastPullin := lastPullin_coilSample t raw w
  have hxy : DriveQuiet x y := (driveQuiet_modGroup g _ x).trans (driveQuiet_chopSample ..)
  have hyp : y.shut.lastPullin = x.shut.lastPullin := lastPullin_chopSample ..
  have hsx : DriveQuiet u x := (huv.trans hvw).trans hwx
  clear_value y x w v u
  have done (z : State) (hz : DriveQuiet x z) (hp : z.shut.lastPullin = x.shut.lastPullin) :
      (coilOf z t).state = .pullin ∧ z.shut.lastPullin = some s.shut.sample ∧ DriveHeld s z :=
    ⟨((hsx.trans hz).2 t).1.trans hu, by rw [hp, hxp, hwp, hsample], hsu.trans (hsx.trans hz).1⟩
  split
  · exact done _ (driveQuiet_rechop ..) (lastPullin_rechop ..)
  · split
    · exact done _ (hxy.trans (driveQuiet_groupFault ..)) ((lastPullin_groupFault ..).trans hyp)
    · exact done _ hxy hyp

/-! ### The ends of a stroke -/

theorem latchCoil_eqs {t : Nat} (h : t < 64) {s : State} (hf : (coilOf s t).fault = 0) (code : Nat) :
    coilOf (latchCoil t code s) t = { coilOf s t with
      fault := BitVec.ofNat 4 code, faultCnt := satInc (coilOf s t).faultCnt, lifeFaults := satInc (coilOf s t).lifeFaults } ∧
      DriveHeld s (latchCoil t code s) := by
  have e : latchCoil t code s = raiseErr (mkErr 1 0x18 t code 0) (modCoil t (fun c => { c with
      fault := BitVec.ofNat 4 code, faultCnt := satInc c.faultCnt, lifeFaults := satInc c.lifeFaults }) s) :=
    if_neg (not_not.2 hf)
  rw [e]
  refine ⟨?_, (oneCoil_modCoil t _ s).1.trans (driveQuiet_raiseErr _ _).1⟩
  rw [show ∀ e u, coilOf (raiseErr e u) t = coilOf u t from fun e u => coilOf_raiseErrs [e] u t, coilOf_modCoil_same h]

/-- A release begun: the coil is in RELEASE with its retries and its fault as they were. -/
theorem beginRelease_eqs {t : Nat} (h : t < 64) (s : State) : (coilOf (beginRelease t s) t).state = .release ∧
    (coilOf (beginRelease t s) t).retry = (coilOf s t).retry ∧ (coilOf (beginRelease t s) t).fault = (coilOf s t).fault ∧
    (coilOf (beginRelease t s) t).requests = (coilOf s t).requests := by
  unfold beginRelease
  rw [groupIdle_coil, coilOf_modCoil_same h]
  exact ⟨rfl, rfl, rfl, rfl⟩

theorem coilOf_noteMove (n res dip : Nat) (s : State) (k : Nat) : coilOf (noteMove n res dip s) k = coilOf s k := rfl

theorem pullinEnds (i : Fin 64) (s : State) (hs : (coilOf s i.val).state = .pullin)
    (hm : (coilOf s i.val).moved = true ∨ (coilOf s i.val).suspended = true)
    (ht : 2 * pullinUs s (i.val / 4) < (coilOf s i.val).n) :
    ∃ t, exec (.pullinEnd i) s = .next t ∧ (coilOf t i.val).state = .hold ∧ (coilOf t i.val).newResult = true ∧
      t.tiles = s.tiles ∧ t.dram = s.dram := by
  have hc : ((coilOf s i.val).state = .pullin && ((coilOf s i.val).moved || (coilOf s i.val).suspended)
      && decide (2 * pullinUs s (i.val / 4) < (coilOf s i.val).n)) = true := by
    rw [decide_eq_true hs, decide_eq_true ht, Bool.or_eq_true_iff.2 hm]
    rfl
  refine ⟨_, congrArg Host.Outcome.next (if_pos hc), ?_⟩
  obtain ⟨htiles, hdram, -⟩ := driveHeld_moveReplies (modCoil i.val (fun c => { c with
    state := .hold, n := 0, newResult := true, result := if c.suspended then 3 else 1 }) s)
  rw [coilOf_moveReplies, coilOf_modCoil_same i.isLt]
  exact ⟨rfl, rfl, htiles, hdram⟩

theorem openCoilLatched (i : Fin 64) (s : State) (hs : (coilOf s i.val).state = .pullin)
    (hsusp : (coilOf s i.val).suspended = false) (hopen : (coilOf s i.val).opened = false)
    (hrel : (coilOf s i.val).releaseAfter = false) (ht : 2 * openUs s (i.val / 4) < (coilOf s i.val).n)
    (hf : (coilOf s i.val).fault = 0) :
    ∃ t, exec (.openCoil i) s = .next t ∧ (coilOf t i.val).releaseAfter = true ∧ (coilOf t i.val).fault = 4 ∧
      (coilOf t i.val).faultCnt = satInc (coilOf s i.val).faultCnt ∧ t.tiles = s.tiles ∧ t.dram = s.dram := by
  have hc : ((coilOf s i.val).state = .pullin && !(coilOf s i.val).suspended && !(coilOf s i.val).opened
      && !(coilOf s i.val).releaseAfter && decide (2 * openUs s (i.val / 4) < (coilOf s i.val).n)) = true := by
    rw [decide_eq_true hs, hsusp, hopen, hrel, decide_eq_true ht]
    rfl
  obtain ⟨hl, htiles, hdram, -⟩ := latchCoil_eqs i.isLt hf 4
  refine ⟨_, congrArg Host.Outcome.next (if_pos hc), ?_⟩
  rw [coilOf_modCoil_same i.isLt, hl]
  exact ⟨rfl, rfl, rfl, htiles, hdram⟩

/-- The dip window of a pull-in has ended without movement. -/
theorem noMove_cond {i : Fin 64} {s : State} (hs : (coilOf s i.val).state = .pullin)
    (hsusp : (coilOf s i.val).suspended = false) (hm : (coilOf s i.val).moved = false)
    (hrel : (coilOf s i.val).releaseAfter = false)
    (ht : min (2 * dipEndUs s (i.val / 4) + 1) (2 * pullinUs s (i.val / 4)) < (coilOf s i.val).n) :
    ((coilOf s i.val).state = .pullin && !(coilOf s i.val).suspended && !(coilOf s i.val).moved
      && !(coilOf s i.val).releaseAfter
      && decide (min (2 * dipEndUs s (i.val / 4) + 1) (2 * pullinUs s (i.val / 4)) < (coilOf s i.val).n)) = true := by
  rw [decide_eq_true hs, hsusp, hm, hrel, decide_eq_true ht]
  rfl

theorem noMoveRetried (i : Fin 64) (s : State) (hs : (coilOf s i.val).state = .pullin)
    (hsusp : (coilOf s i.val).suspended = false) (hm : (coilOf s i.val).moved = false)
    (hrel : (coilOf s i.val).releaseAfter = false)
    (ht : min (2 * dipEndUs s (i.val / 4) + 1) (2 * pullinUs s (i.val / 4)) < (coilOf s i.val).n)
    (hr : (coilOf s i.val).retry.toNat < shutRetries s (i.val / 4)) :
    ∃ t, exec (.noMove i) s = .next t ∧ (coilOf t i.val).state = .release ∧ (coilOf t i.val).retryAfter = true ∧
      (coilOf t i.val).result = 2 ∧ (coilOf t i.val).retry = satInc (coilOf s i.val).retry ∧
      (coilOf t i.val).fault = (coilOf s i.val).fault ∧ t.tiles = s.tiles ∧ t.dram = s.dram := by
  refine ⟨_, congrArg Host.Outcome.next ((if_pos (noMove_cond hs hsusp hm hrel ht)).trans (if_pos hr)), ?_⟩
  obtain ⟨h1, h2, h3, -⟩ := beginRelease_eqs i.isLt s
  obtain ⟨htiles, hdram, -⟩ := (oneCoil_beginRelease i.val s).1
  rw [coilOf_modCoil_same i.isLt, coilOf_noteMove]
  generalize beginRelease i.val s = w at h1 h2 h3 htiles hdram ⊢
  rw [← h2, ← h3, ← htiles, ← hdram]
  exact ⟨h1, rfl, rfl, rfl, rfl, rfl, rfl⟩

theorem noMoveLatched (i : Fin 64) (s : State) (hs : (coilOf s i.val).state = .pullin)
    (hsusp : (coilOf s i.val).suspended = false) (hm : (coilOf s i.val).moved = false)
    (hrel : (coilOf s i.val).releaseAfter = false)
    (ht : min (2 * dipEndUs s (i.val / 4) + 1) (2 * pullinUs s (i.val / 4)) < (coilOf s i.val).n)
    (hr : shutRetries s (i.val / 4) ≤ (coilOf s i.val).retry.toNat) (hf : (coilOf s i.val).fault = 0) :
    ∃ t, exec (.noMove i) s = .next t ∧ (coilOf t i.val).releaseAfter = true ∧ (coilOf t i.val).fault = 1 ∧
      (coilOf t i.val).faultCnt = satInc (coilOf s i.val).faultCnt ∧ t.tiles = s.tiles ∧ t.dram = s.dram := by
  obtain ⟨hl, htiles, hdram, -⟩ := latchCoil_eqs i.isLt hf 1
  refine ⟨_, congrArg Host.Outcome.next
    ((if_pos (noMove_cond hs hsusp hm hrel ht)).trans (if_neg (Nat.not_lt.2 hr))), ?_⟩
  rw [coilOf_modCoil_same i.isLt, coilOf_noteMove, hl]
  exact ⟨rfl, rfl, rfl, htiles, hdram⟩

theorem releaseEnds (i : Fin 64) (s : State) (hs : (coilOf s i.val).state = .release)
    (ht : 2 * releaseUs s (i.val / 4) ≤ (coilOf s i.val).n) :
    ∃ t, exec (.releaseEnd i) s = .next t ∧ t.tiles = s.tiles ∧ t.dram = s.dram ∧
      (coilOf t i.val).state = (if (coilOf s i.val).fault ≠ 0 then .fault else if (coilOf s i.val).retryAfter then .gap
        else if (coilOf s i.val).closeAgain then .wait else .open) := by
  have hc : ((coilOf s i.val).state = .release && decide (2 * releaseUs s (i.val / 4) ≤ (coilOf s i.val).n)) = true := by
    rw [decide_eq_true hs, decide_eq_true ht]
    rfl
  refine ⟨_, congrArg Host.Outcome.next (if_pos hc), ?_⟩
  obtain ⟨htiles, hdram, -⟩ := driveHeld_moveReplies (modCoil i.val (fun c =>
    if c.fault ≠ 0 then { c with state := .fault, n := 0, closeAgain := false, retryAfter := false }
    else if c.retryAfter then { c with state := .gap, n := 0, closeAgain := false }
    else if c.closeAgain then startWait c
    else { c with state := .open, n := 0 }) s)
  refine ⟨htiles, hdram, ?_⟩
  rw [coilOf_moveReplies, coilOf_modCoil_same i.isLt]
  simp only [apply_ite Coil.state]
  rfl

theorem gapEnds (i : Fin 64) (s : State) (hs : (coilOf s i.val).state = .gap)
    (ht : 2 * retryGapUs s (i.val / 4) ≤ (coilOf s i.val).n) :
    ∃ t, exec (.gapEnd i) s = .next t ∧ (coilOf t i.val).state = .wait ∧ t.tiles = s.tiles ∧ t.dram = s.dram := by
  have hc : ((coilOf s i.val).state = .gap && decide (2 * retryGapUs s (i.val / 4) ≤ (coilOf s i.val).n)) = true := by
    rw [decide_eq_true hs, decide_eq_true ht]
    rfl
  refine ⟨_, congrArg Host.Outcome.next (if_pos hc), ?_, rfl, rfl⟩
  rw [coilOf_modCoil_same i.isLt]

/-- A fault named by SHUT_FAULT_CLR is marked to go at the next tick; the fault itself stays until then (R185). -/
theorem faultsMarked (i : Fin 64) (m : Word) (s : State) :
    ∃ t, exec (.shutFaultClr (decide (32 ≤ i.val)) m) s = .next t ∧ t.tiles = s.tiles ∧ t.dram = s.dram ∧
      (coilOf t i.val).clearNext = ((coilOf s i.val).clearNext || m.getLsbD (i.val % 32)) ∧
      (coilOf t i.val).fault = (coilOf s i.val).fault := by
  obtain ⟨d, hd⟩ : ∃ d, d = if decide (32 ≤ i.val) then 32 else 0 := ⟨_, rfl⟩
  have e : shutFaultClr (decide (32 ≤ i.val)) m s
      = forEach ((maskList m).map (· + d)) (fun n => modCoil n fun c => { c with clearNext := true }) s := by
    rw [hd]
    exact forEach_map (· + if decide (32 ≤ i.val) then 32 else 0)
      (fun n => modCoil n fun c => { c with clearNext := true }) (maskList m) s
  have hsum : i.val % 32 + d = i.val := by
    have := i.isLt
    rw [hd]
    by_cases h : 32 ≤ i.val
    · rw [if_pos (decide_eq_true h)]
      omega
    · rw [if_neg (by simpa using h)]
      omega
  have hnodup : ((maskList m).map (· + d)).Nodup := (nodup_maskList m).map fun _ _ h => Nat.add_right_cancel h
  have hmem : i.val ∈ (maskList m).map (· + d) ↔ m.getLsbD (i.val % 32) = true := by
    rw [List.mem_map]
    constructor
    · rintro ⟨k, hk, hki⟩
      rw [Nat.add_right_cancel (hsum.trans hki.symm)]
      exact mem_maskList.1 hk
    · exact fun hm => ⟨i.val % 32, mem_maskList.2 hm, hsum⟩
  have hcoil := coilOf_forEach_modCoil (f := fun _ c => { c with clearNext := true }) hnodup i.isLt s
  obtain ⟨x, hx⟩ := onlyShut_forEach (f := fun n => modCoil n fun c => { c with clearNext := true })
    (fun n s => onlyShut_modCoil n _ s) ((maskList m).map (· + d)) s
  refine ⟨_, congrArg Host.Outcome.next e, by rw [hx], by rw [hx], ?_⟩
  rw [hcoil]
  by_cases hm : m.getLsbD (i.val % 32) = true
  · rw [if_pos (hmem.2 hm), hm, Bool.or_true]
    exact ⟨rfl, rfl⟩
  · rw [if_neg (mt hmem.1 hm), (Bool.not_eq_true _).mp hm, Bool.or_false]
    exact ⟨rfl, rfl⟩

/-! ### One instant of the sense grid -/

/-- The code of its group is shown, and no other group's (R174). -/
theorem groupOf_groupFault (g code : Nat) (s : State) (k : Nat) : groupOf (groupFault g code s) k = groupOf s k := by
  refine forEach_keeps (g := fun s => groupOf s k) (fun n u => ?_) (groupCoils g) s
  split
  · rfl
  · unfold groupOf
    rw [raiseErr_shut]
    rfl

theorem groupOf_chopSample_ne {g k : Nat} (h : k ≠ g) (code : Nat) (s : State) :
    groupOf (chopSample g code s) k = groupOf s k := by
  unfold chopSample
  split
  · rfl
  · exact groupOf_modGroup_ne h _ s

/-- The code of its group is shown, and no other group's (R174). -/
theorem groupOf_groupSample (g code : Nat) (s : State) : ∃ f : Group → Group, (∀ x, (f x).raw = BitVec.ofNat 12 code) ∧
    ∀ k, groupOf (groupSample g code s) k = groupOf (modGroup g f (chopSample g code s)) k := by
  unfold groupSample
  extract_lets x ovc run u v w
  refine ⟨fun x => { x with raw := BitVec.ofNat 12 code, fullRun := run }, fun _ => rfl, fun k => ?_⟩
  have hv : v = modGroup g (fun x => { x with raw := BitVec.ofNat 12 code, fullRun := run }) u := rfl
  have hw : groupOf w k = groupOf v k := by
    show groupOf (if ovc then groupFault g 2 v else v) k = _
    split
    · exact groupOf_groupFault ..
    · rfl
  rw [← hv]
  clear_value w v
  split
  · rfl
  · split
    · exact (groupOf_groupFault ..).trans hw
    · exact hw

theorem raw_groupSample {g : Nat} (h : g < 16) (code : Nat) (s : State) :
    (groupOf (groupSample g code s) g).raw = BitVec.ofNat 12 code := by
  obtain ⟨f, hf, e⟩ := groupOf_groupSample g code s
  rw [e, groupOf_modGroup_same h, hf]

theorem raw_groupSample_ne {g k : Nat} (h : k ≠ g) (code : Nat) (s : State) :
    (groupOf (groupSample g code s) k).raw = (groupOf s k).raw := by
  obtain ⟨f, -, e⟩ := groupOf_groupSample g code s
  rw [e, groupOf_modGroup_ne h, groupOf_chopSample_ne h]

theorem raw_countDefers (s : State) (g : Nat) : groupOf (countDefers s) g = groupOf s g := by
  unfold countDefers
  generalize deferredCoils s = l
  refine forEach_keeps (g := fun s => groupOf s g) (fun n u => ?_) l s
  rfl

theorem groupOf_moveReplies (s : State) (g : Nat) : groupOf (moveReplies s) g = groupOf s g :=
  moveReplies_only (g := fun s => groupOf s g) (fun _ _ _ _ => rfl) (fun _ _ => rfl) s

/-- A coil in RELEASE takes its requests in RELEASE (R177). -/
theorem takeRequest_release {n : Nat} (h : n < 64) (r : CoilReq) {s : State} (hs : (coilOf s n).state = .release) :
    (coilOf (takeRequest n r s) n).state = .release := by
  unfold takeRequest
  extract_lets c u
  have hu : (coilOf u n).state = .release := by
    show (coilOf (modCoil n _ s) n).state = _
    rw [coilOf_modCoil_same h]
    exact hs
  have hc : c.state = .release := hs
  clear_value u
  rw [hc]
  dsimp only
  rw [coilOf_modCoil_same h]
  exact hu

theorem requests_modCoil {n : Nat} (h : n < 64) {f : Coil → Coil} (s : State)
    (hf : ∀ c, (f c).requests = c.requests := by exact fun _ => rfl) :
    (coilOf (modCoil n f s) n).requests = (coilOf s n).requests := by
  rw [coilOf_modCoil_same h, hf]

theorem takeRequest_requests {n : Nat} (h : n < 64) (r : CoilReq) (s : State) :
    (coilOf (takeRequest n r s) n).requests = (coilOf s n).requests := by
  unfold takeRequest
  extract_lets c u
  have hu : (coilOf u n).requests = (coilOf s n).requests := by
    show (coilOf (modCoil n _ s) n).requests = _
    rw [coilOf_modCoil_same h]
  have hrel (w : State) := (beginRelease_eqs h w).2.2.2
  clear_value u
  rw [← hu]
  split
  · exact requests_modCoil h u
  · exact requests_modCoil h u
  · exact requests_modCoil h u
  · exact requests_modCoil h u
  · exact (hrel _).trans (requests_modCoil h u)
  · exact hrel u
  · rfl

theorem takeRequests_eqs {n : Nat} (h : n < 64) (s : State) : (coilOf (takeRequests n s) n).requests = [] ∧
    ((coilOf s n).state = .release → (coilOf (takeRequests n s) n).state = .release) := by
  obtain ⟨u, hu⟩ : ∃ u, u = modCoil n (fun c => { c with requests := [] }) s := ⟨_, rfl⟩
  have e : takeRequests n s = forEach (coilOf s n).requests (takeRequest n) u := by rw [hu]; rfl
  have hn : coilOf u n = { coilOf s n with requests := [] } := by rw [hu, coilOf_modCoil_same h]
  rw [e]
  refine ⟨forEach_invariant (P := fun s => (coilOf s n).requests = []) (fun r w hw =>
    (takeRequest_requests h r w).trans hw) _ u (by rw [hn]), fun hs => ?_⟩
  exact forEach_invariant (P := fun s => (coilOf s n).state = .release) (fun r w hw => takeRequest_release h r hw) _ u
    (by rw [hn]; exact hs)

/-- A coil whose release was to begin at this sample begins it (R183). -/
theorem faultCoils_release {n : Nat} (h : n < 64) {s : State} (hr : (coilOf s n).releaseAfter = true)
    (hf : (coilOf s n).faultAfter = false) (hs : (coilOf s n).state = .pullin) :
    (coilOf (faultCoils n s) n).state = .release := by
  have e : faultCoils n s = beginRelease n s := by
    unfold faultCoils
    dsimp only
    rw [hf, hr, if_neg Bool.false_ne_true, if_pos rfl]
    exact if_pos (by rw [energised, hs]; rfl)
  rw [e]
  exact (beginRelease_eqs h s).1

/-- The requests of a coil are taken, or dropped in a replayed frame, where the coils are not driven (02 R69). -/
def takeTurn (n : Nat) (s : State) : State :=
  if s.tick.replaying then modCoil n (fun c => { c with requests := [] }) s else takeRequests n s

theorem oneCoil_takeTurn (n : Nat) (s : State) : OneCoil n s (takeTurn n s) := by
  unfold takeTurn
  split
  · exact oneCoil_modCoil n _ s
  · exact oneCoil_takeRequests n s

theorem takeTurn_eqs {n : Nat} (h : n < 64) (s : State) : (coilOf (takeTurn n s) n).requests = [] ∧
    ((coilOf s n).state = .release → (coilOf (takeTurn n s) n).state = .release) := by
  unfold takeTurn
  split
  · rw [coilOf_modCoil_same h]
    exact ⟨rfl, fun hs => hs⟩
  · exact takeRequests_eqs h s

/-- The sample after its requests: the coils' own parts, the codes of the groups, the deferred starts and the moves. -/
def sampleTail (code : Nat → Nat) (l : List Nat) (s : State) : State :=
  moveReplies (countDefers (forEach (List.range 16) (fun g => groupSample g (code g))
    (forEach l (fun n => coilSample n (code (n / 4))) s)))

theorem driveQuiet_sampleTail (code : Nat → Nat) (l : List Nat) (s : State) : DriveQuiet s (sampleTail code l s) :=
  (((driveQuiet_forEach (fun n u => (coilSample_keeps n _ u).2) l s).trans
    (driveQuiet_forEach (fun g u => driveQuiet_groupSample g _ u) _ _)).trans (driveQuiet_countDefers _)).trans
    (driveQuiet_moveReplies _)

theorem raw_sampleTail (code : Nat → Nat) (l : List Nat) (s : State) {g : Nat} (h : g < 16) :
    (groupOf (sampleTail code l s) g).raw = BitVec.ofNat 12 (code g) := by
  unfold sampleTail
  rw [groupOf_moveReplies, raw_countDefers]
  refine forEach_settles (f := fun g => groupSample g (code g)) (P := fun s => (groupOf s g).raw = BitVec.ofNat 12 (code g))
    (fun s => raw_groupSample h _ s) (fun k s hs => ?_) (List.mem_range.2 h) _
  by_cases e : g = k
  · rw [← e]
    exact raw_groupSample h _ s
  · exact (raw_groupSample_ne e _ s).trans hs

/-- From 1 µs after the tick on, each coil has its turn (R177). -/
def takeAll (s : State) : State :=
  if decide (s.clock.lastTick + 1000 ≤ s.clock.now) then forEach (List.range 64) takeTurn s else s

theorem senseSample_eq (codes : List (BitVec 12)) (s : State) : ∃ l, senseSample codes s = sampleTail
    (fun g => (codes.getD g 0).toNat) l
    (takeAll (forEach (List.range 64) faultCoils { s with shut := { s.shut with sample := s.shut.sample + 1 } })) := by
  unfold senseSample sampleTail takeAll
  generalize List.range 64 = l
  generalize List.range 16 = m
  exact ⟨_, rfl⟩

theorem sensed (codes : List (BitVec 12)) (s : State) : ∃ t, exec (.senseSample codes) s = .next t ∧ t.tiles = s.tiles ∧
    t.dram = s.dram ∧ t.shut.sample = s.shut.sample + 1 ∧ (∀ g : Fin 16, (groupOf t g.val).raw = codes.getD g.val 0) ∧
    (∀ i : Fin 64, (coilOf s i.val).releaseAfter = true → (coilOf s i.val).faultAfter = false →
      (coilOf s i.val).state = .pullin → (coilOf t i.val).state = .release) ∧
    (s.clock.lastTick + 1000 ≤ s.clock.now → ∀ i : Fin 64, (coilOf t i.val).requests = []) := by
  obtain ⟨l, e⟩ := senseSample_eq codes s
  obtain ⟨s₁, h₁⟩ : ∃ u, u = { s with shut := { s.shut with sample := s.shut.sample + 1 } } := ⟨_, rfl⟩
  obtain ⟨u, hu⟩ : ∃ u, u = forEach (List.range 64) faultCoils s₁ := ⟨_, rfl⟩
  obtain ⟨v, hv⟩ : ∃ v, v = takeAll u := ⟨_, rfl⟩
  rw [← h₁, ← hu, ← hv] at e
  have d₁ : s₁.tiles = s.tiles ∧ s₁.dram = s.dram ∧ s₁.shut.sample = s.shut.sample + 1 ∧ s₁.clock = s.clock ∧
      ∀ n, coilOf s₁ n = coilOf s n := by
    rw [h₁]
    exact ⟨rfl, rfl, rfl, rfl, fun _ => rfl⟩
  obtain ⟨htiles, hdram, hsample, hclock, hcoil⟩ := d₁
  have du : DriveHeld s₁ u := by
    rw [hu]
    exact driveHeld_forEach_coil oneCoil_faultCoils _ _
  have dv : DriveHeld u v := by
    rw [hv, takeAll]
    split
    · exact driveHeld_forEach_coil oneCoil_takeTurn _ _
    · exact DriveHeld.refl u
  obtain ⟨⟨t1, t2, -, -, t5⟩, hkept⟩ := driveQuiet_sampleTail (fun g => (codes.getD g 0).toNat) l v
  obtain ⟨w1, w2, w3, -, w5⟩ := du.trans dv
  refine ⟨_, congrArg Host.Outcome.next e, t1.trans (w1.trans htiles), t2.trans (w2.trans hdram),
    t5.trans (w5.trans hsample), fun g => ?_, fun i hr hf hs => ?_, fun ht i => ?_⟩
  · rw [raw_sampleTail _ _ _ g.isLt, BitVec.ofNat_toNat, BitVec.setWidth_eq]
  · rw [(hkept i.val).1]
    have hrel : (coilOf u i.val).state = .release := by
      obtain ⟨w, hw, -, ew⟩ := forEach_coil oneCoil_faultCoils List.nodup_range (List.mem_range.2 i.isLt) s₁
      rw [hu, ew]
      rw [hcoil] at hw
      exact faultCoils_release i.isLt (by rw [hw, hr]) (by rw [hw, hf]) (by rw [hw, hs])
    rw [hv, takeAll]
    split
    · obtain ⟨w, hw, -, ew⟩ := forEach_coil oneCoil_takeTurn List.nodup_range (List.mem_range.2 i.isLt) u
      rw [ew]
      exact (takeTurn_eqs i.isLt w).2 (by rw [hw, hrel])
    · exact hrel
  · rw [(hkept i.val).2, hv]
    have hc : u.clock = s.clock := du.2.2.1.trans hclock
    rw [takeAll, hc, if_pos (decide_eq_true ht)]
    obtain ⟨w, -, -, ew⟩ := forEach_coil oneCoil_takeTurn List.nodup_range (List.mem_range.2 i.isLt) u
    rw [ew]
    exact (takeTurn_eqs i.isLt w).1

/-- Settles O58: the strokes of a coil, and the instant of the grid, each by its own rule. -/
theorem coilsRun : Obligations.CoilsRun := by
  refine ⟨fun i s => ⟨fun hm => ?_, pullinEnds i s, openCoilLatched i s,
    fun hs hsusp hm hrel ht => ⟨noMoveRetried i s hs hsusp hm hrel ht, noMoveLatched i s hs hsusp hm hrel ht⟩,
    releaseEnds i s, gapEnds i s, fun m => faultsMarked i m s⟩, sensed⟩
  obtain ⟨hs, hl, htiles, hdram, -⟩ := startPullin_eqs i.isLt s
  exact ⟨_, congrArg Host.Outcome.next (if_pos hm), hs, hl, htiles, hdram⟩

end Sys2Proof.Proofs
end

section
/-! PROOFS. Stream engines: slots, faults, the stop point and the operators (02 R42; 08 R191 to R215). -/
namespace Sys2Proof.Proofs

open Sys2Proof Sys2Proof.Machine Sys2Proof.Laws

/-! ### An engine's slots, and what an abandoned one leaves of them -/

theorem ended_congr {s t : State} (h : t.eng = s.eng) (j : Nat) : slotEnded t j = slotEnded s j := by
  unfold slotEnded
  rw [h]

/-- What a fault of another slot leaves of an engine: it runs nothing still, and the first capture stands (08 R215, R216). -/
def EngKept (x y : Eng) : Prop :=
  (x.running = none → y.running = none) ∧ y.eccUncorr = x.eccUncorr ∧ (x.faultSeen = true → y.faultSeen = true) ∧
    (x.faultValid = true → y.faultValid = true ∧ y.faultSlot = x.faultSlot ∧ y.faultCause = x.faultCause) ∧
    (x.stopped = true → y.stopped = true)

theorem EngKept.refl (x : Eng) : EngKept x x := ⟨id, rfl, id, fun h => ⟨h, rfl, rfl⟩, id⟩

theorem EngKept.trans {x y z : Eng} (a : EngKept x y) (b : EngKept y z) : EngKept x z := by
  obtain ⟨hr, hc, hf, hv, hs⟩ := a
  obtain ⟨hr', hc', hf', hv', hs'⟩ := b
  refine ⟨hr' ∘ hr, hc'.trans hc, hf' ∘ hf, fun h => ?_, hs' ∘ hs⟩
  obtain ⟨hv1, hslot, hcause⟩ := hv h
  obtain ⟨hv2, hslot', hcause'⟩ := hv' hv1
  exact ⟨hv2, hslot'.trans hslot, hcause'.trans hcause⟩

/-- Between the two states DRAM is the same, an ended slot has still ended, and each engine keeps what `EngKept` says. -/
def FaultKept (s t : State) : Prop :=
  t.dram = s.dram ∧ (∀ j, slotEnded s j = true → slotEnded t j = true) ∧ ∀ e, e < 96 → EngKept (engOf s e) (engOf t e)

theorem FaultKept.refl (s : State) : FaultKept s s := ⟨rfl, fun _ => id, fun _ _ => EngKept.refl _⟩

theorem FaultKept.trans {s t u : State} (a : FaultKept s t) (b : FaultKept t u) : FaultKept s u := by
  obtain ⟨hd, he, hk⟩ := a
  obtain ⟨hd', he', hk'⟩ := b
  exact ⟨hd'.trans hd, fun j => he' j ∘ he j, fun e h => (hk e h).trans (hk' e h)⟩

theorem faultKept_of_engs {s t : State} (hd : t.dram = s.dram) (he : t.eng = s.eng) (hes : t.engs = s.engs) : FaultKept s t := by
  refine ⟨hd, fun j h => ?_, fun e _ => ?_⟩
  · rw [ended_congr he]
    exact h
  · unfold engOf
    rw [hes]
    exact EngKept.refl _

theorem forEach_faultKept {α : Type} {f : α → State → State} (h : ∀ a s, FaultKept s (f a s)) (l : List α) (s : State) :
    FaultKept s (forEach l f s) :=
  forEach_invariant (P := FaultKept s) (fun a t ht => ht.trans (h a t)) l s (FaultKept.refl s)

theorem raiseErr_faultKept (x : ErrRec) (s : State) : FaultKept s (raiseErr x s) :=
  faultKept_of_engs (raiseErr_only (g := State.dram) (fun _ _ _ _ _ => rfl) x s)
    (raiseErr_only (g := State.eng) (fun _ _ _ _ _ => rfl) x s) (raiseErr_only (g := State.engs) (fun _ _ _ _ _ => rfl) x s)

/-! ### Event records as a slot ends -/

theorem startDelivery_host (m : Nat) (s : State) : ∃ h, startDelivery m s = { s with host := h } := by
  unfold startDelivery
  split
  · exact ⟨s.host, rfl⟩
  · split
    · exact ⟨s.host, rfl⟩
    · extract_lets
      split
      · exact ⟨_, rfl⟩
      · exact ⟨_, rfl⟩

theorem loseDelivery_host (m : Nat) (s : State) : ∃ h, loseDelivery m s = { s with host := h } := by
  unfold loseDelivery
  split
  · exact ⟨_, rfl⟩
  · exact ⟨s.host, rfl⟩

/-- The event records of a slot that ends go out: a reading that messages and the host's part do not change stays. -/
theorem eventsAtSlotEnd_only {β : Type} {g : State → β} (hg : BlindPost g) (b : Bank) (before : List Byte) (s : State) :
    g (eventsAtSlotEnd b before s) = g s := by
  have hhost (t : State) (h) : g { t with host := h } = g t := hg t t.out h t.cmdq
  refine forEach_keeps (fun m t => ?_) _ _
  obtain ⟨h, e⟩ := startDelivery_host m t
  have hstart : g (startDelivery m t) = g t := by rw [e, hhost]
  refine Eq.trans ?_ hstart
  generalize startDelivery m t = u
  change g (writeEvents m b before u) = g u
  unfold writeEvents
  split
  · rfl
  · split
    · obtain ⟨h, e⟩ := loseDelivery_host m u
      rw [e, hhost]
    · exact extentWrite_only (fun t o => hg t o t.host t.cmdq) ..

theorem afterSlots_dram (b : Bank) (l : List Byte) (s : State) : (afterSlots b l s).dram = s.dram :=
  eventsAtSlotEnd_only (g := State.dram) (fun _ _ _ _ => rfl) b l s
theorem afterSlots_eng (b : Bank) (l : List Byte) (s : State) : (afterSlots b l s).eng = s.eng :=
  eventsAtSlotEnd_only (g := State.eng) (fun _ _ _ _ => rfl) b l s
theorem afterSlots_engs (b : Bank) (l : List Byte) (s : State) : (afterSlots b l s).engs = s.engs :=
  eventsAtSlotEnd_only (g := State.engs) (fun _ _ _ _ => rfl) b l s

theorem afterSlots_faultKept (b : Bank) (l : List Byte) (s : State) : FaultKept s (afterSlots b l s) :=
  faultKept_of_engs (afterSlots_dram b l s) (afterSlots_eng b l s) (afterSlots_engs b l s)

/-! ### A slot is abandoned -/

/-- The registers of the engine of a slot that is abandoned with a cause. -/
def abandonEng (i cause : Nat) (f : Sfn) (x : Eng) : Eng :=
  let x := captureFault cause i f x
  let x := if x.running = some i then { x with running := none } else x
  { x with abandonSeen := true, abandonedNow := x.abandonedNow || cause = 3,
           faultSeen := true,
           abandonCnt := if cause = 3 then satInc x.abandonCnt else x.abandonCnt,
           faultCnt := if cause = 3 then x.faultCnt else satInc x.faultCnt }

/-- The fate of a slot is noted, and its tiles are marked. -/
def noteFate (b : Bank) (i cause : Nat) (s : State) : State :=
  { s with eng := { s.eng with fates := s.eng.fates ++ [(i, if cause = 3 then .abandoned else .faulted)] },
           tick := { s.tick with engOvrTiles := s.tick.engOvrTiles ||| slotMarks b i } }

theorem abandonSlot_of_live {b : Bank} {i cause : Nat} {s : State} (h : slotEnded s i = false) :
    abandonSlot b i cause s =
      modEng (Bank.slotEng b i) (abandonEng i cause ((frameSfn s 1).getD 0)) (noteFate b i cause s) := by
  unfold abandonSlot
  rw [h]
  rfl

theorem abandonSlot_of_ended {b : Bank} {i cause : Nat} {s : State} (h : slotEnded s i = true) :
    abandonSlot b i cause s = s := by
  unfold abandonSlot
  rw [h]
  rfl

/-- A fault captured stays until VALID is cleared; else this one is captured (08 R216). -/
theorem captureFault_eq (cause i : Nat) (f : Sfn) (x : Eng) : ∃ n, captureFault cause i f x = { x with
    faultValid := true, faultSfn := n,
    faultSlot := if x.faultValid then x.faultSlot else BitVec.ofNat 12 i,
    faultCause := if x.faultValid then x.faultCause else BitVec.ofNat 4 cause } := by
  unfold captureFault
  by_cases h : x.faultValid = true
  · rw [if_pos h, if_pos h, if_pos h, ← h]
    exact ⟨x.faultSfn, rfl⟩
  · rw [if_neg h, if_neg h, if_neg h]
    exact ⟨f, rfl⟩

theorem abandonEng_eq (i cause : Nat) (f : Sfn) (x : Eng) : ∃ n seen cnt lost, abandonEng i cause f x = { x with
    running := if x.running = some i then none else x.running, faultValid := true, faultSfn := n,
    faultSlot := if x.faultValid then x.faultSlot else BitVec.ofNat 12 i,
    faultCause := if x.faultValid then x.faultCause else BitVec.ofNat 4 cause,
    abandonSeen := true, abandonedNow := seen, faultSeen := true, abandonCnt := cnt, faultCnt := lost } := by
  obtain ⟨n, h⟩ := captureFault_eq cause i f x
  unfold abandonEng
  rw [h]
  dsimp only
  by_cases hr : x.running = some i
  · rw [if_pos hr, if_pos hr]
    exact ⟨_, _, _, _, rfl⟩
  · rw [if_neg hr, if_neg hr]
    exact ⟨_, _, _, _, rfl⟩

theorem abandonEng_kept (i cause : Nat) (f : Sfn) (x : Eng) : EngKept x (abandonEng i cause f x) := by
  obtain ⟨n, seen, cnt, lost, h⟩ := abandonEng_eq i cause f x
  rw [h]
  refine ⟨fun hr => ?_, rfl, fun _ => rfl, fun hv => ⟨rfl, if_pos hv, if_pos hv⟩, id⟩
  change (if x.running = some i then none else x.running) = none
  rw [hr]
  rfl

theorem ended_noteFate (b : Bank) (i cause : Nat) (s : State) (j : Nat) :
    slotEnded (noteFate b i cause s) j = (slotEnded s j || decide (i = j)) := by
  simp [slotEnded, noteFate]

/-- An abandoned slot has ended, and no other ends with it. -/
theorem ended_abandonSlot (b : Bank) (i cause : Nat) (s : State) (j : Nat) :
    slotEnded (abandonSlot b i cause s) j = (slotEnded s j || decide (i = j)) := by
  cases h : slotEnded s i with
  | false => exact (congrArg (slotEnded · j) (abandonSlot_of_live h)).trans (ended_noteFate b i cause s j)
  | true =>
    rw [abandonSlot_of_ended h]
    by_cases e : i = j
    · rw [← e, h]
      rfl
    · simp [e]

theorem modEng_faultKept {e : Nat} {f : Eng → Eng} (h : ∀ x, EngKept x (f x)) (s : State) : FaultKept s (modEng e f s) := by
  refine ⟨rfl, fun _ => id, fun u hu => ?_⟩
  by_cases eq : u = e
  · subst eq
    rw [engOf_modEng_same hu]
    exact h _
  · rw [engOf_modEng_ne eq]
    exact EngKept.refl _

theorem noteFate_faultKept (b : Bank) (i cause : Nat) (s : State) : FaultKept s (noteFate b i cause s) := by
  refine ⟨rfl, fun j h => ?_, fun _ _ => EngKept.refl _⟩
  rw [ended_noteFate, h]
  rfl

theorem abandonSlot_faultKept (b : Bank) (i cause : Nat) (s : State) : FaultKept s (abandonSlot b i cause s) := by
  cases h : slotEnded s i with
  | false =>
    rw [abandonSlot_of_live h]
    exact (noteFate_faultKept b i cause s).trans (modEng_faultKept (abandonEng_kept i cause _) _)
  | true =>
    rw [abandonSlot_of_ended h]
    exact FaultKept.refl s

theorem propagate_faultKept (b : Bank) (n : Nat) (l : List Nat) (s : State) : FaultKept s (propagate b n l s) := by
  induction n generalizing l s with
  | zero => exact FaultKept.refl s
  | succ n ih =>
    unfold propagate
    extract_lets w
    split
    · exact FaultKept.refl s
    · exact (forEach_faultKept (fun j => abandonSlot_faultKept b j 4) w s).trans (ih _ _)

/-! ### The faults of a running slot (08 R215) -/

/-- What the fault of the running slot leaves: it has ended, its engine runs nothing, and the first fault is captured. -/
theorem faultSlot_eqs {b : Bank} {e i cause : Nat} {s : State} (he : e < 96) (hrun : (engOf s e).running = some i)
    (hlive : slotEnded s i = false) (hhome : Bank.slotEng b i = e) (before : List Byte) :
    ∃ t, afterSlots b before (faultSlot b e i cause s) = t ∧ t.dram = s.dram ∧ (engOf t e).running = none ∧
      slotEnded t i = true ∧ (engOf t e).faultSeen = true ∧ (engOf t e).eccUncorr = (engOf s e).eccUncorr ∧
      ((engOf s e).faultValid = false → (engOf t e).faultSlot = BitVec.ofNat 12 i ∧
        (engOf t e).faultCause = BitVec.ofNat 4 cause) := by
  have hkept : FaultKept (abandonSlot b i cause s) (afterSlots b before (faultSlot b e i cause s)) :=
    ((raiseErr_faultKept _ _).trans (propagate_faultKept _ _ _ _)).trans (afterSlots_faultKept _ _ _)
  generalize afterSlots b before (faultSlot b e i cause s) = t at hkept ⊢
  obtain ⟨hdram, hended, heng⟩ := (abandonSlot_faultKept b i cause s).trans hkept
  obtain ⟨-, hended', heng'⟩ := hkept
  obtain ⟨hrun', -, hseen, hcap, -⟩ := heng' e he
  obtain ⟨-, hecc, -⟩ := heng e he
  have hself : engOf (abandonSlot b i cause s) e = abandonEng i cause ((frameSfn s 1).getD 0) (engOf s e) := by
    rw [abandonSlot_of_live hlive, hhome]
    exact engOf_modEng_same he _ _
  obtain ⟨n, seen, cnt, lost, heq⟩ := abandonEng_eq i cause ((frameSfn s 1).getD 0) (engOf s e)
  rw [hself, heq] at hrun' hseen hcap
  obtain ⟨-, hslot, hcause⟩ := hcap rfl
  refine ⟨t, rfl, hdram, hrun' (if_pos hrun), hended' i ?_, hseen rfl, hecc, fun h => ⟨hslot.trans ?_, hcause.trans ?_⟩⟩
  · rw [ended_abandonSlot]
    simp
  · exact if_neg (by rw [h]; exact Bool.false_ne_true)
  · exact if_neg (by rw [h]; exact Bool.false_ne_true)

theorem operatorFaults (e : Fin 96) (s : State) (b : Bank) (i : Nat) (check : LmemCheck) (hits : List (Nat × EccHit))
    (hset : engineSet s = some b) (hrun : (engOf s e.val).running = some i) (hops : (engOf s e.val).opsEnded = false)
    (hlive : slotEnded s i = false) (hhome : Bank.slotEng b i = e.val) (hidle : MemoryIdle s)
    (hcheck : check = .uncorrectable ∨ (check = .dmaError ∧
      ((opCtx s b e.val i).o.isLoad = true ∨ (opCtx s b e.val i).o.isStore = true))) :
    ∃ t, exec (.operatorEnd e check hits) s = .next t ∧ t.dram = s.dram ∧ (engOf t e.val).running = none ∧
      slotEnded t i = true ∧ (engOf t e.val).faultSeen = true ∧
      (engOf t e.val).eccUncorr = (if check = .uncorrectable then satInc (engOf s e.val).eccUncorr
        else (engOf s e.val).eccUncorr) ∧
      ((engOf s e.val).faultValid = false → (engOf t e.val).faultSlot = BitVec.ofNat 12 i ∧
        (engOf t e.val).faultCause = if check = .uncorrectable then 1 else 2) := by
  obtain ⟨hquiet, -, hreqs⟩ := hidle
  have hwait : ¬ ((((opCtx s b e.val i).o.isLoad || (opCtx s b e.val i).o.isStore)
      && (s.memc.quiet || spansWait s (4 + e.val / 24) (opSpans s (opCtx s b e.val i)))) = true) := by
    rw [hquiet, spansWait_idle hreqs]
    simp
  have hopen : ¬ ((engOf s e.val).opsEnded = true) := by rw [hops]; exact Bool.false_ne_true
  rcases hcheck with rfl | ⟨rfl, hdma⟩
  · obtain ⟨u, hu⟩ : ∃ u, u = modEng e.val (fun m => { m with eccUncorr := satInc m.eccUncorr }) s := ⟨_, rfl⟩
    have hself : engOf u e.val = { engOf s e.val with eccUncorr := satInc (engOf s e.val).eccUncorr } := by
      rw [hu]
      exact engOf_modEng_same e.isLt _ s
    have hexec : endOperator e.val .uncorrectable hits s = afterSlots b (settledEvents u b) (faultSlot b e.val i 1 u) := by
      unfold endOperator
      rw [hset, hrun, hu]
      exact (if_neg hopen).trans (if_neg hwait)
    obtain ⟨t, ht, hdram, hran, hended, hseen, hecc, hcap⟩ := faultSlot_eqs (b := b) (i := i) (cause := 1) (s := u) e.isLt
      (by rw [hself]; exact hrun) (by rw [hu]; exact hlive) hhome (settledEvents u b)
    refine ⟨t, congrArg Host.Outcome.next (hexec.trans ht), ?_, hran, hended, hseen, ?_, fun h => hcap ?_⟩
    · rw [hdram, hu]
      rfl
    · rw [hecc, hself]
      rfl
    · rw [hself]
      exact h
  · have hdma' : ((opCtx s b e.val i).o.isLoad || (opCtx s b e.val i).o.isStore) = true := by
      rw [Bool.or_eq_true]
      exact hdma
    have hexec : endOperator e.val .dmaError hits s = afterSlots b (settledEvents s b) (faultSlot b e.val i 2 s) := by
      unfold endOperator
      rw [hset, hrun]
      refine (if_neg hopen).trans ((if_neg hwait).trans ((if_neg (by decide)).trans (if_pos ?_)))
      rw [hdma']
      rfl
    obtain ⟨t, ht, hrest⟩ := faultSlot_eqs (b := b) (i := i) (cause := 2) (s := s) e.isLt hrun hlive hhome (settledEvents s b)
    exact ⟨t, congrArg Host.Outcome.next (hexec.trans ht), hrest⟩

/-! ### The stop point (08 R214) -/

theorem ended_raiseErr (x : ErrRec) (s : State) (j : Nat) : slotEnded (raiseErr x s) j = slotEnded s j :=
  raiseErr_only (g := fun s => slotEnded s j) (fun _ _ _ _ _ => rfl) x s

/-- The error of a slot that no other slot's fault marks. -/
def stopErr (b : Bank) (marked : List Nat) (i : Nat) (s : State) : State :=
  if marked.contains i then s else raiseErr (mkErr 1 0x19 (Bank.slotEng b i) 3 (word i)) s

theorem stopErr_faultKept (b : Bank) (marked : List Nat) (i : Nat) (s : State) : FaultKept s (stopErr b marked i s) := by
  unfold stopErr
  split
  · exact FaultKept.refl s
  · exact raiseErr_faultKept _ s

theorem ended_stopErr (b : Bank) (marked : List Nat) (i : Nat) (s : State) (j : Nat) :
    slotEnded (stopErr b marked i s) j = slotEnded s j := by
  unfold stopErr
  split
  · rfl
  · exact ended_raiseErr _ s j

theorem stopSlot_faultKept (b : Bank) (marked : List Nat) (i : Nat) (s : State) : FaultKept s (stopSlot b marked i s) :=
  (stopErr_faultKept b marked i s).trans (abandonSlot_faultKept b i 3 _)

theorem ended_stopSlot (b : Bank) (marked : List Nat) (i : Nat) (s : State) (j : Nat) :
    slotEnded (stopSlot b marked i s) j = (slotEnded s j || decide (i = j)) :=
  (ended_abandonSlot b i 3 (stopErr b marked i s) j).trans (by rw [ended_stopErr])

theorem ended_stopSlots (b : Bank) (marked l : List Nat) (s : State) (j : Nat) :
    slotEnded (forEach l (stopSlot b marked) s) j = true ↔ slotEnded s j = true ∨ j ∈ l := by
  induction l generalizing s with
  | nil => simp [forEach]
  | cons i l ih =>
    refine (ih (stopSlot b marked i s)).trans ?_
    rw [ended_stopSlot, Bool.or_eq_true, decide_eq_true_iff, List.mem_cons, or_assoc, @eq_comm _ i]

theorem stopEng_kept (x : Eng) : EngKept x { x with stopped := true } :=
  ⟨id, rfl, id, fun h => ⟨h, rfl, rfl⟩, fun _ => rfl⟩

theorem stopEngine_faultKept (b : Bank) (marked : List Nat) (e : Nat) (s : State) : FaultKept s (stopEngine b marked e s) := by
  unfold stopEngine
  extract_lets l
  split
  · exact FaultKept.refl s
  · exact FaultKept.trans (forEach_faultKept (stopSlot_faultKept b marked) l s) (modEng_faultKept stopEng_kept _)

/-- The slots of an engine that stops have ended, and no other slot ends with them. -/
theorem ended_stopEngine (b : Bank) (marked : List Nat) (e : Nat) (s : State) (j : Nat) :
    slotEnded (stopEngine b marked e s) j = true ↔ slotEnded s j = true ∨ j ∈ Bank.engSlots b e := by
  unfold stopEngine
  extract_lets l
  have hl : j ∈ l ↔ j ∈ Bank.engSlots b e ∧ slotEnded s j = false := by simp [l]
  have hcases : (slotEnded s j = true ∨ j ∈ l) ↔ slotEnded s j = true ∨ j ∈ Bank.engSlots b e := by
    rw [hl]
    cases slotEnded s j <;> simp
  split
  · next hempty =>
    rw [← hcases, List.isEmpty_iff.1 hempty]
    simp
  · exact (ended_stopSlots b marked l s j).trans hcases

theorem stopped_stopEngine {b : Bank} {marked : List Nat} {e j : Nat} {s : State} (he : e < 96)
    (hj : j ∈ Bank.engSlots b e) (hlive : slotEnded s j = false) : (engOf (stopEngine b marked e s) e).stopped = true := by
  unfold stopEngine
  extract_lets l
  have hmem : j ∈ l := List.mem_filter.2 ⟨hj, by rw [hlive]; rfl⟩
  rw [if_neg (by rw [List.isEmpty_iff]; exact List.ne_nil_of_mem hmem), engOf_modEng_same he]

/-- A slot belongs to one engine. -/
theorem slotEng_of_mem {b : Bank} {e i : Nat} (h : i ∈ Bank.engSlots b e) : Bank.slotEng b i = e := by
  unfold Bank.engSlots at h
  rw [List.mem_insertionSort, List.mem_filter] at h
  exact of_decide_eq_true h.2

theorem stopEach_eqs {b : Bank} {marked : List Nat} {e i : Nat} (he : e < 96) (hi : i ∈ Bank.engSlots b e) (l : List Nat)
    (s : State) (h : e ∈ l) : slotEnded (forEach l (stopEngine b marked) s) i = true ∧
      (slotEnded s i = false → (engOf (forEach l (stopEngine b marked) s) e).stopped = true) := by
  induction l generalizing s with
  | nil => exact absurd h List.not_mem_nil
  | cons a l ih =>
    by_cases ha : e = a
    · subst ha
      obtain ⟨-, hended, heng⟩ := forEach_faultKept (stopEngine_faultKept b marked) l (stopEngine b marked e s)
      obtain ⟨-, -, -, -, hstopped⟩ := heng e he
      exact ⟨hended i ((ended_stopEngine b marked e s i).2 (.inr hi)), fun hlive => hstopped (stopped_stopEngine he hi hlive)⟩
    · have hl : e ∈ l := (List.mem_cons.1 h).resolve_left ha
      have hother : slotEnded (stopEngine b marked a s) i = slotEnded s i := by
        rw [Bool.eq_iff_iff, ended_stopEngine]
        exact or_iff_left fun hm => ha ((slotEng_of_mem hi).symm.trans (slotEng_of_mem hm))
      obtain ⟨hend, hstop⟩ := ih (stopEngine b marked a s) hl
      exact ⟨hend, fun hlive => hstop (hother.trans hlive)⟩

theorem stopPoint (s : State) (b : Bank) (hset : engineSet s = some b) (hact : s.eng.active = true) :
    ∃ t, exec .engineStopPoint s = .next t ∧ t.dram = s.dram ∧
      (∀ (e : Fin 96) (i : Nat), i ∈ Bank.engSlots b e.val → slotEnded t i = true ∧
        (slotEnded s i = false → (engOf t e.val).stopped = true)) := by
  have hexec : stopEngines s = afterSlots b (settledEvents s b) (forEach (List.range 96) (stopEngine b (stopMarked s b)) s) := by
    unfold stopEngines
    rw [hset, hact]
    rfl
  generalize stopMarked s b = marked at hexec
  obtain ⟨hdram, -⟩ := forEach_faultKept (stopEngine_faultKept b marked) (List.range 96) s
  refine ⟨_, congrArg Host.Outcome.next hexec, (afterSlots_dram ..).trans hdram, fun e i hi => ?_⟩
  obtain ⟨hend, hstop⟩ := stopEach_eqs (marked := marked) e.isLt hi (List.range 96) s (List.mem_range.2 e.isLt)
  obtain ⟨-, hended, heng⟩ := afterSlots_faultKept b (settledEvents s b) (forEach (List.range 96) (stopEngine b marked) s)
  obtain ⟨-, -, -, -, hstopped⟩ := heng e.val e.isLt
  exact ⟨hended i hend, fun hlive => hstopped (hstop hlive)⟩

/-! ### A slot starts and ends (02 R42, 08 R213) -/

theorem toPass_eqs (b : Bank) (i p : Nat) (x : Eng) :
    (toPass b i p x).lmem = x.lmem ∧ (toPass b i p x).running = x.running ∧ (toPass b i p x).slotReg = x.slotReg ∧
      match passFrom b i p with
      | some (q, j) => (toPass b i p x).pass = q ∧ (toPass b i p x).op = j ∧ (toPass b i p x).opsEnded = false
      | none => (toPass b i p x).opsEnded = true := by
  unfold toPass
  cases passFrom b i p with
  | some q => exact ⟨rfl, rfl, rfl, rfl, rfl, rfl⟩
  | none => exact ⟨rfl, rfl, rfl, rfl⟩

/-- The local memory with the ZERO buffers of a chain cleared, and the minimum fields of its STATS records set
(08 R195, R206). -/
def zeroed (b : Bank) (c : Nat) (x : Eng) : Eng :=
  let stats := (List.range (Bank.nOps b c)).filterMap fun j =>
    let o := oprOf b c j
    if o.opc = 0x10 then some o.out else none
  forEach (Bank.zeroBufs b c) (fun k x =>
    let x := lmemPut x (Bank.lofs b c k) (List.replicate (Bank.bufBytes b c k) 0)
    if stats.contains k then lmemPut x (Bank.lofs b c k + 8) [0xFF, 0xFF] else x) x

theorem startSlot_of_ready {e i : Nat} {s : State} {b : Bank} (hset : engineSet s = some b)
    (hnext : nextSlot s b e = some i)
    (hready : (!s.eng.active || (engOf s e).running.isSome || (engOf s e).stopped
      || !barrierDone s b (Bank.slotWait b i)) = false) :
    startSlot e s = modEng e (fun x => toPass b i 0 { zeroed b (Bank.slotChain b i) x with
      running := some i, pass := 0, op := 0, slotReg := BitVec.ofNat 12 i, produced := [],
      runCapped := false, clCapped := false }) s := by
  unfold startSlot
  rw [hset]
  dsimp only
  rw [hnext]
  exact if_neg (by rw [hready]; exact Bool.false_ne_true)

theorem slotStarts (e : Fin 96) (s : State) (b : Bank) (i : Nat) (hset : engineSet s = some b)
    (hnext : nextSlot s b e.val = some i) (hact : s.eng.active = true) (hrun : (engOf s e.val).running = none)
    (hstop : (engOf s e.val).stopped = false) (hbar : barrierDone s b (Bank.slotWait b i) = true) :
    ∃ t, exec (.slotStart e) s = .next t ∧ t.dram = s.dram ∧ t.eng = s.eng ∧ (engOf t e.val).running = some i ∧
      (engOf t e.val).slotReg = BitVec.ofNat 12 i ∧
      match passFrom b i 0 with
      | some (p, j) => (engOf t e.val).pass = p ∧ (engOf t e.val).op = j ∧ (engOf t e.val).opsEnded = false
      | none => (engOf t e.val).opsEnded = true := by
  have hready := startSlot_of_ready hset hnext (by rw [hact, hrun, hstop, hbar]; rfl)
  refine ⟨_, congrArg Host.Outcome.next hready, rfl, rfl, ?_⟩
  rw [engOf_modEng_same e.isLt]
  obtain ⟨-, hr, hs, hpass⟩ := toPass_eqs b i 0 { zeroed b (Bank.slotChain b i) (engOf s e.val) with
    running := some i, pass := 0, op := 0, slotReg := BitVec.ofNat 12 i, produced := [], runCapped := false, clCapped := false }
  exact ⟨hr, hs, hpass⟩

/-- The registers of the engine of a slot that has finished at `now` and was planned to last `plan`. -/
def finishEng (now plan : Nat) (x : Eng) : Eng :=
  { x with
    running := none, opsEnded := false, finishNow := now,
    lateMax := if x.lateMax.toNat < now - plan then satNat 32 (now - plan) else x.lateMax,
    lateSeen := x.lateSeen || decide (plan < now) }

theorem endSlot_of_done {e i : Nat} {s : State} {b : Bank} (hset : engineSet s = some b) (hrun : (engOf s e).running = some i)
    (hops : (engOf s e).opsEnded = true) :
    endSlot e s = afterSlots b (settledEvents s b) (modEng e (finishEng (s.clock.now - s.clock.lastTick) (planNs b i))
      { s with eng := { s.eng with fates := s.eng.fates ++ [(i, .finished)] } }) := by
  unfold endSlot
  rw [hset, hrun]
  exact if_neg (by rw [hops]; exact Bool.false_ne_true)

theorem slotEnds (e : Fin 96) (s : State) (b : Bank) (i : Nat) (hset : engineSet s = some b)
    (hrun : (engOf s e.val).running = some i) (hops : (engOf s e.val).opsEnded = true) :
    ∃ t, exec (.slotEnd e) s = .next t ∧ t.eng.fates = s.eng.fates ++ [(i, .finished)] ∧ t.dram = s.dram ∧
      (engOf t e.val).running = none ∧ (engOf t e.val).finishNow = s.clock.now - s.clock.lastTick := by
  refine ⟨_, congrArg Host.Outcome.next (endSlot_of_done hset hrun hops), ?_⟩
  unfold engOf
  rw [afterSlots_dram, afterSlots_eng, afterSlots_engs]
  change _ ∧ _ ∧ (engOf (modEng e.val _ _) e.val).running = _ ∧ (engOf (modEng e.val _ _) e.val).finishNow = _
  rw [engOf_modEng_same e.isLt]
  exact ⟨rfl, rfl, rfl, rfl⟩

/-! ### An operator and its engine's place (08 R191, R194) -/

/-- The two states of an engine stand at one pass, with the same word on whether its operators have ended. -/
def PassHeld (x y : Eng) : Prop := y.pass = x.pass ∧ y.opsEnded = x.opsEnded

theorem PassHeld.refl (x : Eng) : PassHeld x x := ⟨rfl, rfl⟩
theorem PassHeld.trans {x y z : Eng} (a : PassHeld x y) (b : PassHeld y z) : PassHeld x z := by
  obtain ⟨hp, ho⟩ := a
  obtain ⟨hp', ho'⟩ := b
  exact ⟨hp'.trans hp, ho'.trans ho⟩

theorem PassHeld.ite {c : Prop} [Decidable c] {x y z : Eng} (hy : PassHeld x y) (hz : PassHeld x z) :
    PassHeld x (if c then y else z) := by
  split
  · exact hy
  · exact hz

theorem forEach_passHeld {α : Type} {f : α → Eng → Eng} (h : ∀ a m, PassHeld m (f a m)) (l : List α) (m : Eng) :
    PassHeld m (forEach l f m) := by
  induction l generalizing m with
  | nil => exact PassHeld.refl m
  | cons a l ih => exact (h a m).trans (ih (f a m))

theorem overRect_passHeld {f : Int → Int → Eng → Eng} (h : ∀ y c m, PassHeld m (f y c m)) (rows cols : Nat) (m : Eng) :
    PassHeld m (overRect rows cols f m) :=
  forEach_passHeld (fun _ m => forEach_passHeld (fun _ m => h _ _ m) _ m) _ m

theorem lmemPut_passHeld (m : Eng) (a : Nat) (bs : List Byte) : PassHeld m (lmemPut m a bs) := PassHeld.refl m

theorem setField_passHeld (x : OpCtx) (k ofs n v : Nat) (m : Eng) : PassHeld m (x.setField k ofs n v m) := lmemPut_passHeld m _ _

theorem put_passHeld (x : OpCtx) (k ty : Nat) (y c v : Int) (m : Eng) : PassHeld m (x.put k ty y c v m) := by
  unfold OpCtx.put
  exact PassHeld.ite (lmemPut_passHeld m _ _) (lmemPut_passHeld m _ _)

theorem result_passHeld (x : OpCtx) (y c : Int) (r : Option Int) (m : Eng) : PassHeld m (x.result y c r m) := by
  cases r <;> exact put_passHeld ..

/-- An operator that gives each element of its output a result. -/
theorem over_result_passHeld (x : OpCtx) (r : Int → Int → Eng → Option Int) (m : Eng) :
    PassHeld m (x.over (fun y c m => x.result y c (r y c m) m) m) :=
  overRect_passHeld (fun y c m => result_passHeld x y c (r y c m) m) _ _ m

theorem opWarp_passHeld (x : OpCtx) (m : Eng) : PassHeld m (opWarp x m) := by
  refine overRect_passHeld (fun y c m => ?_) _ _ m
  extract_lets
  exact PassHeld.ite (PassHeld.refl m) (result_passHeld ..)

theorem opHist_passHeld (x : OpCtx) (m : Eng) : PassHeld m (opHist x m) := by
  refine overRect_passHeld (fun y c m => ?_) _ _ m
  split
  · exact lmemPut_passHeld m _ _
  · exact PassHeld.refl m

theorem opStats_passHeld (x : OpCtx) (m : Eng) : PassHeld m (opStats x m) := by
  refine overRect_passHeld (fun y c m => ?_) _ _ m
  dsimp only
  split
  · refine PassHeld.trans ?_ (PassHeld.ite (lmemPut_passHeld ..) (PassHeld.refl _))
    exact PassHeld.ite (PassHeld.refl m) (PassHeld.refl m)
  · exact lmemPut_passHeld m _ _

theorem opMask_passHeld (x : OpCtx) (m : Eng) : PassHeld m (opMask x m) :=
  PassHeld.ite (over_result_passHeld ..) (over_result_passHeld ..)

theorem appendRun_passHeld (x : OpCtx) (k cap : Nat) (r : Run) (m : Eng) : PassHeld m (appendRun x k cap r m) := by
  unfold appendRun
  extract_lets n u
  have hu : PassHeld m u := (lmemPut_passHeld m _ (runBytes r)).trans (setField_passHeld ..)
  clear_value u
  exact PassHeld.ite (setField_passHeld ..) (hu.trans (PassHeld.ite (setField_passHeld ..) (PassHeld.refl u)))

theorem opRor_passHeld (x : OpCtx) (m : Eng) : PassHeld m (opRor x m) := by
  unfold opRor
  extract_lets o reset u
  have hu : PassHeld m u := by
    refine forEach_passHeld (fun y m => ?_) _ m
    extract_lets px v runs
    have hv : PassHeld m v := forEach_passHeld (fun p m => (put_passHeld ..).trans (put_passHeld ..)) _ m
    exact hv.trans (forEach_passHeld (fun r m => appendRun_passHeld x _ _ r m) _ v)
  clear_value u
  exact PassHeld.ite (hu.trans (PassHeld.refl u)) hu

theorem opCluster_passHeld (x : OpCtx) (m : Eng) : PassHeld m (opCluster x m) := by
  unfold opCluster
  extract_lets
  split
  exact PassHeld.ite (PassHeld.refl m) (PassHeld.refl m)

/-- A compute operator leaves its engine at its pass. -/
theorem compute_passHeld (x : OpCtx) (m : Eng) : PassHeld m (compute x m) := by
  unfold compute
  split
  case h_1 => exact over_result_passHeld x (fun _ _ _ => some (x.par 0)) m
  case h_2 => exact over_result_passHeld ..
  case h_3 => exact over_result_passHeld ..
  case h_4 => exact over_result_passHeld ..
  case h_5 => exact over_result_passHeld ..
  case h_6 => exact over_result_passHeld ..
  case h_7 => exact over_result_passHeld ..
  case h_8 => exact over_result_passHeld ..
  case h_9 => exact over_result_passHeld ..
  case h_10 => exact over_result_passHeld ..
  case h_11 => exact overRect_passHeld (fun y c m => result_passHeld x y c _ m) _ _ m
  case h_12 => exact opWarp_passHeld x m
  case h_13 => exact opHist_passHeld x m
  case h_14 => exact opStats_passHeld x m
  case h_15 => exact lmemPut_passHeld m _ _
  case h_16 => exact overRect_passHeld (fun y c m => put_passHeld x _ _ y c _ m) _ _ m
  case h_17 => exact opMask_passHeld x m
  case h_18 => exact opRor_passHeld x m
  case h_19 => exact PassHeld.refl m
  case h_20 => exact opCluster_passHeld x m
  case h_21 => exact PassHeld.refl m
  case h_22 => exact PassHeld.refl m

theorem loadRect_passHeld (s : State) (x : OpCtx) (m : Eng) : PassHeld m (loadRect s x m) := by
  refine overRect_passHeld (fun y c m => ?_) _ _ m
  extract_lets
  exact PassHeld.ite (lmemPut_passHeld m _ _) (lmemPut_passHeld m _ _)

theorem loadOp_passHeld (s : State) (x : OpCtx) (m : Eng) : PassHeld m (loadOp s x m) :=
  PassHeld.ite (PassHeld.refl m) ((loadRect_passHeld s x m).trans (PassHeld.refl _))

/-! ### A store, and the accesses before it -/

/-- The two states agree in the local memory, the pass and the word on the operators of each engine. -/
def EnginesHeld (s t : State) : Prop :=
  ∀ e, e < 96 → (engOf t e).lmem = (engOf s e).lmem ∧ PassHeld (engOf s e) (engOf t e)

theorem enginesHeld_of_engs {s t : State} (h : t.engs = s.engs) : EnginesHeld s t := by
  intro e _
  unfold engOf
  rw [h]
  exact ⟨rfl, PassHeld.refl _⟩

theorem EnginesHeld.trans {s t u : State} (a : EnginesHeld s t) (b : EnginesHeld t u) : EnginesHeld s u := by
  intro e he
  obtain ⟨hl, hp⟩ := a e he
  obtain ⟨hl', hp'⟩ := b e he
  exact ⟨hl'.trans hl, hp.trans hp'⟩

theorem dmaNow_enginesHeld (e : Nat) (f : Eng → Nat) (s : State) :
    EnginesHeld s (modEng e (fun m => { m with dmaNow := f m }) s) := by
  intro u hu
  by_cases h : u = e
  · subst h
    rw [engOf_modEng_same hu]
    exact ⟨rfl, rfl, rfl⟩
  · rw [engOf_modEng_ne h]
    exact ⟨rfl, PassHeld.refl _⟩

theorem storeRect_engs (x : OpCtx) (m : Eng) (s : State) : (storeRect x m s).engs = s.engs := by
  unfold storeRect
  refine forEach_keeps (g := State.engs) (fun y s => forEach_keeps (g := State.engs) (fun k s => ?_) _ s) _ s
  dsimp only
  split
  · exact stageWrite_engs ..
  · exact stageWrite_engs ..

theorem holdAppend_engs (x : OpCtx) (data : List Byte) (s : State) : (holdAppend x data s).engs = s.engs := by
  unfold holdAppend
  split
  · rfl
  · exact (stageWrite_engs ..).trans (stageWrite_engs ..)

theorem eventAppend_engs (x : OpCtx) (data : List Byte) (s : State) : (eventAppend x data s).engs = s.engs :=
  stageWrite_engs ..

/-- A STORE counts the bytes that it moves, and changes nothing else of an engine. -/
theorem storeOp_enginesHeld (x : OpCtx) (s : State) : EnginesHeld s (storeOp x s) := by
  unfold storeOp
  extract_lets m bs data u
  split
  · exact EnginesHeld.trans (enginesHeld_of_engs (stageWrite_engs ..)) (dmaNow_enginesHeld _ (fun m => m.dmaNow + bs.length) _)
  · have hu : EnginesHeld s u := dmaNow_enginesHeld _ (fun m => m.dmaNow + data.length) s
    clear_value u
    split
    · exact hu.trans (enginesHeld_of_engs (eventAppend_engs ..))
    · exact hu.trans (enginesHeld_of_engs (holdAppend_engs ..))
  · exact EnginesHeld.trans (enginesHeld_of_engs (storeRect_engs ..)) (dmaNow_enginesHeld _ (fun m => m.dmaNow + rectBytes x) _)

theorem storeRect_setPorts (p : Vector ReqPort 12) (c : Vector Memch 8) (x : OpCtx) (m : Eng) (s : State) :
    storeRect x m (setPorts p c s) = setPorts p c (storeRect x m s) := by
  unfold storeRect
  refine forEach_setPorts p c (fun y s => forEach_setPorts p c (fun k s => ?_) _ s) _ s
  dsimp only
  rw [apply_ite (setPorts p c), ← stageWrite_setPorts, ← stageWrite_setPorts]
  rfl

theorem holdAppend_setPorts (p : Vector ReqPort 12) (c : Vector Memch 8) (x : OpCtx) (data : List Byte) (s : State) :
    holdAppend x data (setPorts p c s) = setPorts p c (holdAppend x data s) := by
  have hrec : holdRecords (setPorts p c s) x.b = holdRecords s x.b := rfl
  have hwrite (h : Nat) (bs : List Byte) : holdRingWrite x.b h bs (setPorts p c s) = setPorts p c (holdRingWrite x.b h bs s) := by
    unfold holdRingWrite
    dsimp only
    rw [stageWrite_setPorts, stageWrite_setPorts]
  unfold holdAppend
  rw [apply_ite (setPorts p c), hrec]
  refine if_congr Iff.rfl rfl ?_
  dsimp only
  rw [show (setPorts p c s).hold = s.hold from rfl, hwrite]
  rfl

theorem eventAppend_setPorts (p : Vector ReqPort 12) (c : Vector Memch 8) (x : OpCtx) (data : List Byte) (s : State) :
    eventAppend x data (setPorts p c s) = setPorts p c (eventAppend x data s) := by
  unfold eventAppend
  dsimp only
  rw [show (setPorts p c s).eng = s.eng from rfl, show engIndex (setPorts p c s) = engIndex s from rfl, stageWrite_setPorts]
  rfl

theorem storeOp_setPorts (p : Vector ReqPort 12) (c : Vector Memch 8) (x : OpCtx) (s : State) :
    storeOp x (setPorts p c s) = setPorts p c (storeOp x s) := by
  have hmod (f : Eng → Eng) (s : State) : modEng x.e f (setPorts p c s) = setPorts p c (modEng x.e f s) := rfl
  have heng : engOf (setPorts p c s) x.e = engOf s x.e := rfl
  have hlin : linearAddr (setPorts p c s) x true = linearAddr s x true := rfl
  unfold storeOp
  rw [heng, hlin]
  extract_lets m bs data u v
  have hu : u = setPorts p c v := rfl
  clear_value u v
  subst hu
  split
  · rw [stageWrite_setPorts, hmod]
  · rw [apply_ite (setPorts p c), eventAppend_setPorts, holdAppend_setPorts]
  · rw [storeRect_setPorts, hmod]

/-! ### An operator ends without an error (08 R191, R194) -/

/-- What the operator at hand does to the state. -/
def runOperator (e : Nat) (x : OpCtx) (s : State) : State :=
  if x.o.isLoad then modEng e (loadOp s x) s
  else if x.o.isStore then storeOp x s
  else modEng e (compute x) s

/-- The engine after an operator: the next of its pass, the next pass that runs one, or its operators have ended. -/
def nextPlace (b : Bank) (i : Nat) (x : OpCtx) (m : Eng) : Eng :=
  match (passOps b i x.passNo).filter fun j => x.i < j with
  | j :: _ => { m with op := j }
  | [] => toPass b i (x.passNo + 1) m

theorem opSpans_of_compute {s : State} {x : OpCtx} (hl : x.o.isLoad = false) (hs : x.o.isStore = false) : opSpans s x = [] := by
  unfold opSpans
  rw [hl, hs]
  rfl

/-- An operator that ends without an error, with the memory as a LOAD or STORE needs it, changes the ports of the
controller at most before it runs. -/
theorem endOperator_of_clean {e i : Nat} {s : State} {b : Bank} {hits : List (Nat × EccHit)} (hset : engineSet s = some b)
    (hrun : (engOf s e).running = some i) (hops : (engOf s e).opsEnded = false)
    (hmem : (opCtx s b e i).o.isLoad = true ∨ (opCtx s b e i).o.isStore = true →
      MemoryIdle s ∧ memServes s = true ∧ Correctable hits) :
    ∃ p c, endOperator e .clean hits s = modEng e (nextPlace b i (opCtx s b e i))
      { runOperator e (opCtx s b e i) (setPorts p c s) with
        free := (runOperator e (opCtx s b e i) (setPorts p c s)).free + 33
          + (opCtx s b e i).g.rows * (opCtx s b e i).g.cols } := by
  have hopen : ¬ ((engOf s e).opsEnded = true) := by rw [hops]; exact Bool.false_ne_true
  unfold endOperator
  rw [hset, hrun]
  dsimp only
  generalize opCtx s b e i = x at hmem ⊢
  have hports : ∃ p c, traffic (4 + e / 24) hits (opSpans s x) s = setPorts p c s := by
    by_cases h : x.o.isLoad = true ∨ x.o.isStore = true
    · obtain ⟨⟨-, -, hreqs⟩, -, hok⟩ := hmem h
      exact (onlyPorts_iff_setPorts _ _).1 (onlyPorts_traffic _ hits _ s hreqs hok)
    · rw [not_or, Bool.not_eq_true, Bool.not_eq_true] at h
      rw [opSpans_of_compute h.1 h.2]
      exact ⟨s.memc.ports, s.memch, rfl⟩
  obtain ⟨p, c, hp⟩ := hports
  have hwait : ¬ (((x.o.isLoad || x.o.isStore) && (s.memc.quiet || spansWait s (4 + e / 24) (opSpans s x))) = true) := by
    intro h
    rw [Bool.and_eq_true, Bool.or_eq_true] at h
    obtain ⟨⟨hquiet, -, hreqs⟩, -⟩ := hmem h.1
    rw [hquiet, spansWait_idle hreqs] at h
    exact Bool.false_ne_true h.2
  have hserves (k : Bool) (hk : k = false) : ¬ (((x.o.isLoad || x.o.isStore) && (k || !memServes s)) = true) := by
    intro h
    rw [Bool.and_eq_true, Bool.or_eq_true] at h
    obtain ⟨-, hserve, -⟩ := hmem h.1
    rw [hserve, hk] at h
    exact Bool.false_ne_true h.2
  have hclean : ¬ (LmemCheck.clean = LmemCheck.uncorrectable) := by decide
  refine ⟨p, c, (if_neg hopen).trans ((if_neg hwait).trans ((if_neg hclean).trans ((if_neg (hserves _ rfl)).trans ?_)))⟩
  rw [hp]
  exact if_neg (hserves false rfl)

theorem nextPlace_eqs (b : Bank) (i : Nat) (x : OpCtx) (m : Eng) (hops : m.opsEnded = false) :
    (nextPlace b i x m).lmem = m.lmem ∧
      match (passOps b i x.passNo).filter fun j => x.i < j with
      | j :: _ => (nextPlace b i x m).op = j ∧ (nextPlace b i x m).pass = m.pass ∧ (nextPlace b i x m).opsEnded = false
      | [] => match passFrom b i (x.passNo + 1) with
        | some (p, j) => (nextPlace b i x m).pass = p ∧ (nextPlace b i x m).op = j ∧ (nextPlace b i x m).opsEnded = false
        | none => (nextPlace b i x m).opsEnded = true := by
  unfold nextPlace
  cases (passOps b i x.passNo).filter fun j => x.i < j with
  | cons j l => exact ⟨rfl, rfl, rfl, hops⟩
  | nil =>
    obtain ⟨hl, -, -, hp⟩ := toPass_eqs b i (x.passNo + 1) m
    exact ⟨hl, hp⟩

theorem operatorRuns (e : Fin 96) (s : State) (b : Bank) (i : Nat) (hits : List (Nat × EccHit))
    (hset : engineSet s = some b) (hrun : (engOf s e.val).running = some i) (hops : (engOf s e.val).opsEnded = false)
    (hmem : (opCtx s b e.val i).o.isLoad = true ∨ (opCtx s b e.val i).o.isStore = true →
      MemoryIdle s ∧ memServes s = true ∧ Correctable hits) :
    ∃ t, exec (.operatorEnd e .clean hits) s = .next t ∧
      ((opCtx s b e.val i).o.isLoad = true → t.dram = s.dram ∧
        (engOf t e.val).lmem = (loadOp s (opCtx s b e.val i) (engOf s e.val)).lmem) ∧
      ((opCtx s b e.val i).o.isLoad = false → (opCtx s b e.val i).o.isStore = true →
        t.dram = (storeOp (opCtx s b e.val i) s).dram ∧ (engOf t e.val).lmem = (engOf s e.val).lmem) ∧
      ((opCtx s b e.val i).o.isLoad = false → (opCtx s b e.val i).o.isStore = false → t.dram = s.dram ∧ t.hold = s.hold ∧
        (engOf t e.val).lmem = (compute (opCtx s b e.val i) (engOf s e.val)).lmem) ∧
      match (passOps b i (opCtx s b e.val i).passNo).filter fun j => (opCtx s b e.val i).i < j with
      | j :: _ => (engOf t e.val).op = j ∧ (engOf t e.val).pass = (engOf s e.val).pass ∧ (engOf t e.val).opsEnded = false
      | [] => match passFrom b i ((opCtx s b e.val i).passNo + 1) with
        | some (p, j) => (engOf t e.val).pass = p ∧ (engOf t e.val).op = j ∧ (engOf t e.val).opsEnded = false
        | none => (engOf t e.val).opsEnded = true := by
  obtain ⟨p, c, hend⟩ := endOperator_of_clean hset hrun hops hmem
  refine ⟨_, congrArg Host.Outcome.next hend, ?_⟩
  generalize opCtx s b e.val i = x
  obtain ⟨u, hu⟩ : ∃ u, u = runOperator e.val x (setPorts p c s) := ⟨_, rfl⟩
  have hload (h : x.o.isLoad = true) : u = setPorts p c (modEng e.val (loadOp s x) s) := hu.trans (if_pos h)
  have hstore (h : x.o.isLoad = false) (h' : x.o.isStore = true) : u = setPorts p c (storeOp x s) := by
    refine hu.trans ((if_neg ?_).trans ((if_pos h').trans (storeOp_setPorts p c x s)))
    rw [h]
    exact Bool.false_ne_true
  have hcomp (h : x.o.isLoad = false) (h' : x.o.isStore = false) : u = setPorts p c (modEng e.val (compute x) s) := by
    refine hu.trans ((if_neg ?_).trans (if_neg ?_))
    · rw [h]
      exact Bool.false_ne_true
    · rw [h']
      exact Bool.false_ne_true
  have hself (f : Eng → Eng) : engOf (setPorts p c (modEng e.val f s)) e.val = f (engOf s e.val) := engOf_modEng_same e.isLt f s
  have hheld : PassHeld (engOf s e.val) (engOf u e.val) := by
    cases h : x.o.isLoad with
    | true =>
      rw [hload h, hself]
      exact loadOp_passHeld s x _
    | false =>
      cases h' : x.o.isStore with
      | true =>
        rw [hstore h h']
        exact (storeOp_enginesHeld x s e.val e.isLt).2
      | false =>
        rw [hcomp h h', hself]
        exact compute_passHeld x _
  rw [← hu, engOf_modEng_same e.isLt]
  change (_ → u.dram = _ ∧ (nextPlace b i x (engOf u e.val)).lmem = _) ∧
    (_ → _ → u.dram = _ ∧ (nextPlace b i x (engOf u e.val)).lmem = _) ∧
    (_ → _ → u.dram = _ ∧ u.hold = _ ∧ (nextPlace b i x (engOf u e.val)).lmem = _) ∧ _
  obtain ⟨hpass, hopen⟩ := hheld
  obtain ⟨hlmem, hplace⟩ := nextPlace_eqs b i x (engOf u e.val) (hopen.trans hops)
  rw [hlmem]
  refine ⟨fun h => ?_, fun h h' => ?_, fun h h' => ?_, ?_⟩
  · rw [hload h, hself]
    exact ⟨rfl, rfl⟩
  · rw [hstore h h']
    exact ⟨rfl, (storeOp_enginesHeld x s e.val e.isLt).1⟩
  · rw [hcomp h h', hself]
    exact ⟨rfl, rfl, rfl⟩
  · rw [← hpass]
    exact hplace

/-- Settles O59: a fault of another slot leaves an engine's first capture and its idleness, a slot ends at the stop
point with its own engine alone, and every operator leaves its engine at its pass. -/
theorem enginesRun : Obligations.EnginesRun :=
  ⟨⟨slotStarts, slotEnds, operatorFaults, stopPoint⟩, operatorRuns⟩

end Sys2Proof.Proofs
end

section
/-! PROOFS. The release from reset, the load window and the firmware check (20 R437 to R442). -/
namespace Sys2Proof.Proofs

open Sys2Proof Sys2Proof.Machine Sys2Proof.Laws

/-! ### The release from reset (20 R437, R438) -/

/-- The device once the main die is released with a value of BOOTSEL. -/
def releaseDev (bs : BitVec 2) (d : Dev) : Dev :=
  { d with
    released := true, bootsel := bs, pend := 0, coreOk := true, sramOk := true, io18Ok := true,
    porCause := d.pend.getLsbD 0, brownoutCause := d.pend.getLsbD 1, resetNCause := d.pend.getLsbD 2,
    perstCause := d.pend.getLsbD 3, phase := if bs.getLsbD 0 then .hostWait else .flash }

/-- The release changes the device as `releaseDev` says, whatever it counts and reports of the keeping store. -/
theorem release_dev {bs : BitVec 2} {s : State} (h : mayRelease s = true) : (release bs s).dev = releaseDev bs s.dev := by
  have hmay : ¬ ((!mayRelease s) = true) := by rw [h]; exact Bool.false_ne_true
  unfold release
  rw [if_neg hmay]
  extract_lets p por u v
  have hu : u.dev = releaseDev bs s.dev := rfl
  have hv : v.dev = u.dev := (apply_ite State.dev _ _ _).trans (ite_self _)
  split
  · exact (raiseErr_only (g := State.dev) (fun _ _ _ _ _ => rfl) _ _).trans (hv.trans hu)
  · exact hv.trans hu

theorem releases (bs : BitVec 2) (s : State) (hrel : s.dev.released = false) (hset : s.keep.settled = true)
    (hcur : s.keep.current = none) :
    ∃ t, exec (.resetRelease bs) s = .next t ∧ t.dev.released = true ∧ t.dev.bootsel = bs ∧ t.dev.pend = 0 ∧
      t.dev.phase = (if bs.getLsbD 0 then .hostWait else .flash) ∧ t.dev.perstCause = s.dev.pend.getLsbD 3 ∧
      t.dev.porCause = s.dev.pend.getLsbD 0 ∧ t.dev.power = s.dev.power := by
  have hmay : mayRelease s = true := by
    unfold mayRelease
    rw [hrel, hset, hcur]
    rfl
  refine ⟨_, rfl, ?_⟩
  rw [release_dev hmay]
  exact ⟨rfl, rfl, rfl, rfl, rfl, rfl, rfl⟩

/-! ### The load window and GO (20 R441) -/

theorem windowServes (ofs v : Word) (s : State) :
    (s.dev.phase = .hostWait →
      (s.host.flr = false → exec (.firmwareWindowWrite ofs v) s = .next { s with dev := { s.dev with
        fwWindow := writeCells zeroByte s.dev.fwWindow (ofs.toNat % 16777216 / 4 * 4) (leBytes 4 v.toNat) } }) ∧
      exec .fwGo s = .next { s with dev := { s.dev with phase := .verify } }) ∧
    (s.dev.phase ≠ .hostWait →
      (s.host.flr = false → exec (.firmwareWindowWrite ofs v) s = .next { s with dev := { s.dev with fwDrop := true } }) ∧
      exec .fwGo s = .next { s with dev := { s.dev with fwDrop := true } }) := by
  have hdev {f : Dev → Dev} {d : Dev} (h : f s.dev = d) : modDev f s = { s with dev := d } :=
    congrArg (fun d => { s with dev := d }) h
  refine ⟨fun h => ⟨fun hflr => ?_, congrArg Host.Outcome.next (hdev (if_pos h))⟩,
    fun h => ⟨fun hflr => ?_, congrArg Host.Outcome.next (hdev (if_neg h))⟩⟩
  · exact congrArg Host.Outcome.next ((barAccess_of_live hflr _).trans (hdev (if_pos h)))
  · exact congrArg Host.Outcome.next ((barAccess_of_live hflr _).trans (hdev (if_neg h)))

/-! ### The check of an image (20 R440, R442) -/

theorem flash_checkable {s : State} (hrel : s.dev.released = true) (hflash : s.dev.phase = .flash) :
    ¬ ((!(decide (s.dev.phase = .verify) || decide (s.dev.phase = .flash)) || !s.dev.released) = true) := by
  rw [hrel, hflash]
  decide

theorem firmwareCheckEnd_of_flash {l : List Byte} {k g : Bool} {s : State} (hrel : s.dev.released = true)
    (hflash : s.dev.phase = .flash) :
    firmwareCheckEnd l k g s = if bootFault l k g = 0 then startFirmware false l s else modDev (fun d => { d with
      failCause := BitVec.ofNat 3 (bootFault l k g), sigFailSeen := d.sigFailSeen || 3 ≤ bootFault l k g,
      phase := if d.bootsel = 0 then .hostWait else .failed }) s := by
  have hhost : decide (s.dev.phase = .verify) = false := by rw [hflash]; rfl
  unfold firmwareCheckEnd
  refine (if_neg (flash_checkable hrel hflash)).trans ?_
  rw [hhost]
  simp only [Bool.false_or, decide_eq_true_eq, Bool.false_eq_true, if_false]

theorem imageChecked (l : List Byte) (k g : Bool) (s : State) (hrel : s.dev.released = true) (hflash : s.dev.phase = .flash) :
    (bootFault l k g = 0 → ∃ t, exec (.firmwareCheckEnd l k g) s = .next t ∧ t.dev.power = .parked ∧
      t.dev.phase = .train ∧ t.dev.fromHost = false ∧ t.tick.running = true ∧ t.tick.sfn = 0 ∧ t.clock = Clock.reset) ∧
    (bootFault l k g ≠ 0 → s.dev.bootsel = 0 → ∃ t, exec (.firmwareCheckEnd l k g) s = .next t ∧
      t.dev.phase = .hostWait ∧ t.dev.failCause = BitVec.ofNat 3 (bootFault l k g) ∧ t.dev.power = s.dev.power ∧
      t.tick = s.tick) := by
  have hend := firmwareCheckEnd_of_flash (l := l) (k := k) (g := g) hrel hflash
  refine ⟨fun h => ⟨_, congrArg Host.Outcome.next (hend.trans (if_pos h)), rfl, rfl, rfl, rfl, rfl, rfl⟩,
    fun h hbs => ⟨_, congrArg Host.Outcome.next (hend.trans (if_neg h)), if_pos hbs, rfl, rfl, rfl⟩⟩

/-- Settles O52, by the phase of startup that each event finds. -/
theorem startupRuns : Obligations.StartupRuns :=
  ⟨releases, windowServes, imageChecked⟩

end Sys2Proof.Proofs
end

section
/-! PROOFS. The serial controller and the serial target (17 R380 to R388). -/
namespace Sys2Proof.Proofs

open Sys2Proof Sys2Proof.Machine Sys2Proof.Laws

/-! ### The serial controller (17 R380 to R383) -/

theorem spcWrite_of_booted {s : State} (h : s.dev.power ≠ .off) (f : State → State) : spcWrite f s = f s := by
  have hboot : bootEnded s = true := decide_eq_true h
  unfold spcWrite
  exact if_pos hboot

/-- With a word to send and room for the one received, the next word starts. -/
theorem spcNext_of_room {s : State} {w : Word} {r : List Word} (htx : s.spc.tx = w :: r) (hrx : s.spc.rx.length < 16) :
    spcNext s = { s with
      spc := { s.spc with tx := r, stalled := false },
      out := .spcWord (word (maskBits (spcBits s s.spc.sel.toNat) w.toNat)) :: s.out } := by
  unfold spcNext
  rw [htx]
  exact if_pos hrx

theorem spcStarts (s : State) (hpow : s.dev.power ≠ .off) (sel : BitVec 4) (hold : Bool) (n : BitVec 16) (w : Word)
    (r : List Word) (hfree : s.spc.asserted = false) (htx : s.spc.tx = w :: r) (hrx : s.spc.rx.length < 16) :
    exec (.spcGo sel hold n) s = .next { s with
      spc := { s.spc with busy := true, asserted := true, sel := sel, hold := hold, left := n.toNat + 1,
                          aborting := false, tx := r, stalled := false },
      out := .spcWord (word (maskBits (spcBits s sel.toNat) w.toNat)) :: s.out } := by
  refine congrArg Host.Outcome.next ((spcWrite_of_booted hpow _).trans ?_)
  dsimp only
  rw [hfree]
  exact spcNext_of_room htx hrx

/-- The last word of a transfer that holds no select ends it. -/
theorem spcWordEnd_of_last {s : State} (rx : Word) (hasserted : s.spc.asserted = true) (hleft : s.spc.left = 1)
    (hstall : s.spc.stalled = false) (hreset : s.spc.resetting = false) (habort : s.spc.aborting = false)
    (hhold : s.spc.hold = false) :
    spcWordEnd rx s = spcRelease (modSpc (fun p => { p with
      rx := p.rx ++ [word (maskBits (spcBits s s.spc.sel.toNat) rx.toNat)], doneCnt := satInc p.doneCnt,
      left := p.left - 1 }) s) := by
  have hway : wordUnderWay s.spc = true := by
    unfold wordUnderWay
    rw [hasserted, hleft, hstall]
    rfl
  have hnone : ¬ 0 < s.spc.left - 1 := by omega
  have hoff {b : Bool} (h : b = false) : ¬ (b = true) := by rw [h]; exact Bool.false_ne_true
  unfold spcWordEnd
  rw [hway]
  exact (if_neg (hoff hreset)).trans ((if_neg (hoff habort)).trans ((if_neg hnone).trans (if_neg (hoff hhold))))

theorem spcWordEnds (s : State) (rx : Word) (hasserted : s.spc.asserted = true) (hleft : s.spc.left = 1)
    (hstall : s.spc.stalled = false) (hreset : s.spc.resetting = false) (habort : s.spc.aborting = false)
    (hhold : s.spc.hold = false) :
    ∃ t, exec (.spcWordEnd rx) s = .next t ∧ t.spc.asserted = false ∧ t.spc.busy = false ∧
      t.spc.rx = s.spc.rx ++ [word (maskBits (spcBits s s.spc.sel.toNat) rx.toNat)] ∧
      t.spc.doneCnt = satInc s.spc.doneCnt ∧ t.out = .spcRelease s.spc.sel.toNat :: s.out :=
  ⟨_, congrArg Host.Outcome.next (spcWordEnd_of_last rx hasserted hleft hstall hreset habort hhold),
    rfl, rfl, rfl, rfl, rfl⟩

theorem spcResumes (s : State) (w : Word) (r : List Word) (hasserted : s.spc.asserted = true) (hleft : 0 < s.spc.left)
    (hstall : s.spc.stalled = true) (htx : s.spc.tx = w :: r) (hrx : s.spc.rx.length < 16) :
    exec .spcResume s = .next { s with
      spc := { s.spc with tx := r, stalled := false },
      out := .spcWord (word (maskBits (spcBits s s.spc.sel.toNat) w.toNat)) :: s.out } := by
  have hstalled : (s.spc.asserted && decide (0 < s.spc.left) && s.spc.stalled) = true := by
    rw [hasserted, hstall, decide_eq_true hleft]
    rfl
  exact congrArg Host.Outcome.next ((if_pos hstalled).trans (spcNext_of_room htx hrx))

/-- An abort at a word boundary ends the transfer at once. -/
theorem spcAborts (s : State) (hpow : s.dev.power ≠ .off) (hasserted : s.spc.asserted = true) (hstall : s.spc.stalled = true) :
    ∃ t, exec .spcAbort s = .next t ∧ t.spc.asserted = false ∧ t.spc.busy = false ∧ t.spc.tx = s.spc.tx.drop s.spc.left ∧
      t.spc.rx = s.spc.rx ∧ t.spc.abortedCnt = satAdd s.spc.abortedCnt s.spc.left := by
  have hway : ¬ (wordUnderWay s.spc = true) := by
    unfold wordUnderWay
    rw [hstall, Bool.not_true, Bool.and_false]
    exact Bool.false_ne_true
  exact ⟨_, congrArg Host.Outcome.next ((spcWrite_of_booted hpow _).trans ((if_neg hway).trans (if_pos hasserted))),
    rfl, rfl, rfl, rfl, rfl⟩

theorem spcPushes (s : State) (hpow : s.dev.power ≠ .off) (v : Word) (hflr : s.host.flr = false) :
    exec (.spcTxdataWrite v) s = .next { s with spc := if s.spc.tx.length < 16
      then { s.spc with tx := s.spc.tx ++ [v] } else { s.spc with txDrop := true } } := by
  refine congrArg Host.Outcome.next ((barAccess_of_live hflr _).trans ((spcWrite_of_booted hpow _).trans ?_))
  exact (apply_ite (fun p : Spc => { s with spc := p }) (s.spc.tx.length < 16) _ _).symm

/-! ### The serial target (17 R386, R387) -/

/-- A frame of an aligned address is performed. -/
theorem sptFrame_of_aligned {cmd : Word} {s : State} (hrel : s.dev.released = true) (hal : sptAddr cmd % 4 = 0)
    (f : State → State) : sptFrame cmd f s = f s := by
  unfold sptFrame
  rw [hrel]
  exact if_neg (not_not.2 hal)

/-- A reading that an error does not change, a miss and a word read of BAR0 do not change. -/
theorem bar0Miss_only {β : Type} {g : State → β} (hg : BlindErr g) (a : Nat) (write : Bool) (s : State) :
    g (bar0Miss a write s) = g s := (raiseErr_only hg _ _).trans (hg.host _ s)

theorem bar0Read_only {β : Type} {g : State → β} (hg : BlindErr g) (a : Nat) (s : State) : g (bar0Read a s).2.2 = g s := by
  unfold bar0Read
  split
  · rfl
  · exact bar0Miss_only hg a false s

theorem sptReadWords_only {β : Type} {g : State → β} (hg : BlindErr g) (n a : Nat) (s : State) :
    g (sptReadWords n a s).2.2 = g s := by
  induction n generalizing a s with
  | zero => rfl
  | succ n ih => exact (ih (a + 4) _).trans (bar0Read_only hg a s)

theorem sptWrites (s : State) (hrel : s.dev.released = true) (cmd : Word) (ws : List Word) (hal : sptAddr cmd % 4 = 0) :
    let u := writeWords (sptAddr cmd) (ws.take (sptCount cmd)) s
    exec (.sptWrite cmd ws false) s = .next u ∧
    (ws.length < sptCount cmd →
      exec (.sptWrite cmd ws true) s = .next { u with spt := { u.spt with framing := satInc u.spt.framing } }) :=
  ⟨congrArg Host.Outcome.next (sptFrame_of_aligned hrel hal _),
    fun h => congrArg Host.Outcome.next ((sptFrame_of_aligned hrel hal _).trans (if_pos (decide_eq_true h)))⟩

theorem sptRead_of_aligned {cmd : Word} {s : State} (hrel : s.dev.released = true) (hal : sptAddr cmd % 4 = 0) :
    sptRead cmd s = modSpt (fun p => { p with
      buffer := (sptReadWords (sptCount cmd) (sptAddr cmd) s).1, miss := (sptReadWords (sptCount cmd) (sptAddr cmd) s).2.1,
      done := true, words := BitVec.ofNat 5 (sptCount cmd) }) (sptReadWords (sptCount cmd) (sptAddr cmd) s).2.2 :=
  sptFrame_of_aligned hrel hal _

theorem sptReads (s : State) (hrel : s.dev.released = true) (cmd : Word) (hal : sptAddr cmd % 4 = 0) :
    ∃ t, exec (.sptRead cmd) s = .next t ∧ t.spt.done = true ∧
      t.spt.buffer = (sptReadWords (sptCount cmd) (sptAddr cmd) s).1 ∧ t.spt.words = BitVec.ofNat 5 (sptCount cmd) ∧
      t.tick = s.tick ∧ t.cfg = s.cfg ∧ t.dram = s.dram :=
  ⟨_, congrArg Host.Outcome.next (sptRead_of_aligned hrel hal), rfl, rfl, rfl,
    sptReadWords_only (g := State.tick) (fun _ _ _ _ _ => rfl) _ _ s,
    sptReadWords_only (g := State.cfg) (fun _ _ _ _ _ => rfl) _ _ s,
    sptReadWords_only (g := State.dram) (fun _ _ _ _ _ => rfl) _ _ s⟩

theorem sptFetches (s : State) (hrel : s.dev.released = true) (cmd : Word) (hal : sptAddr cmd % 4 = 0)
    (hdone : s.spt.done = true) : exec (.sptFetch cmd) s = .next { s with
      out := .sptWords (sptStatus s.spt :: (List.range (sptCount cmd)).map fun i => s.spt.buffer.getD i 0) :: s.out } := by
  refine congrArg Host.Outcome.next ((sptFrame_of_aligned hrel hal _).trans ?_)
  rw [hdone]
  rfl

theorem sptDiscards (s : State) (hrel : s.dev.released = true) :
    exec (.sptBadFrame none) s = .next { s with spt := { s.spt with framing := satInc s.spt.framing } } ∧
    (∀ (cmd : Word), sptAddr cmd % 4 ≠ 0 → exec (.sptBadFrame (some cmd)) s = .next { s with
      spt := { s.spt with badcmd := satInc s.spt.badcmd } }) := by
  have hserved : ¬ ((!s.dev.released) = true) := by rw [hrel]; exact Bool.false_ne_true
  have hbad {cmd : Word} (h : sptAddr cmd % 4 ≠ 0) :
      (decide (bits cmd.toNat 31 30 = 3) || decide (sptAddr cmd % 4 ≠ 0)) = true := by
    rw [decide_eq_true h, Bool.or_true]
  exact ⟨congrArg Host.Outcome.next (if_neg hserved),
    fun cmd h => congrArg Host.Outcome.next ((if_neg hserved).trans (if_pos (hbad h)))⟩

/-- Settles O53, by what each event of the two ports finds at its word boundary. -/
theorem serialPortsRun : Obligations.SerialPortsRun :=
  ⟨fun s hpow => ⟨spcStarts s hpow, spcWordEnds s, spcResumes s, spcAborts s hpow,
      congrArg Host.Outcome.next (spcWrite_of_booted hpow _), spcPushes s hpow⟩,
    fun s hrel => ⟨sptWrites s hrel, sptReads s hrel, sptFetches s hrel, sptDiscards s hrel⟩⟩

end Sys2Proof.Proofs
end

section
/-! PROOFS. RESET_BLOCK (13 R325) and the accesses of registers (00 R11, R13; 12 R285). -/
namespace Sys2Proof.Proofs

open Sys2Proof Sys2Proof.Machine Sys2Proof.Laws

/-! ### RESET_BLOCK (13 R325) -/

/-- RESET_BLOCK of a block whose type accepts it has the block's effect, and is answered OK. -/
theorem resetBlock_of_accepted {h : Hdr} {ty i : Nat} {s : State} (hoff : s.dev.power ≠ .off) {f : State → State}
    (hf : blockReset ty i (counted s) = some f) (hi : i < instCount ty) :
    resetBlock h ty i s = reply h 0x72 stOk [] (f (counted s)) := by
  refine (runAtTick_of_free hoff (by decide)).trans ?_
  rw [hf]
  exact if_pos hi

theorem resetBlock_of_refused {h : Hdr} {ty i : Nat} {s : State} (hoff : s.dev.power ≠ .off)
    (hf : blockReset ty i (counted s) = none) : resetBlock h ty i s = reply h 0x72 stRefused [] (counted s) := by
  refine (runAtTick_of_free hoff (by decide)).trans ?_
  rw [hf]

/-- The registers of an engine at their reset values, with what the frame in progress needs (08 R216). -/
def resetEngRegs (x : Eng) : Eng :=
  { Eng.reset with
    lmem := x.lmem, lmemEpoch := x.lmemEpoch, next := x.next, pass := x.pass, op := x.op, opsEnded := x.opsEnded,
    stopped := x.stopped, finishNow := x.finishNow, produced := x.produced, abandonedNow := x.abandonedNow,
    dmaNow := x.dmaNow }

theorem resetEng_of_idle {e : Nat} {s : State} (h : (engOf s e).running = none) :
    resetEng e s = modEng e resetEngRegs s := by
  unfold resetEng
  rw [h]
  cases engineSet s <;> rfl

theorem engineReset (h : Hdr) (s : State) (hoff : s.dev.power ≠ .off) (e : Fin 96) (hidle : (engOf s e.val).running = none) :
    ∃ t, exec (.resetBlock h 0x41 (BitVec.ofNat 16 e.val)) s = .next t ∧
      t.dram = s.dram ∧ (engOf t e.val).abandonCnt = 0 ∧ (engOf t e.val).faultValid = false ∧
      (engOf t e.val).eccCorr = 0 ∧ ∀ d : Fin 96, d ≠ e → engOf t d.val = engOf s d.val := by
  have hnum : (BitVec.ofNat 16 e.val).toNat = e.val := by
    rw [BitVec.toNat_ofNat]
    omega
  have hexec : resetBlock h 0x41 e.val s = reply h 0x72 stOk [] (modEng e.val resetEngRegs (counted s)) := by
    rw [resetBlock_of_accepted hoff (f := resetEng e.val) rfl e.isLt, resetEng_of_idle (s := counted s) hidle]
  have hengs (d : Nat) : engOf (reply h 0x72 stOk [] (modEng e.val resetEngRegs (counted s))) d =
      engOf (modEng e.val resetEngRegs s) d :=
    reply_only (g := fun s => engOf s d) (fun _ _ _ _ => rfl) _ _ _ _ _
  refine ⟨_, congrArg Host.Outcome.next ((congrArg (resetBlock h 0x41 · s) hnum).trans hexec), reply_dram .., ?_⟩
  rw [hengs e.val, engOf_modEng_same e.isLt]
  refine ⟨rfl, rfl, rfl, fun d hd => ?_⟩
  rw [hengs d.val]
  exact engOf_modEng_ne (fun h => hd (Fin.ext h)) _ s

/-- A record of the active set's hold buffer starts anew as HOST is reset (12 R288). -/
theorem holdReset_eqs {s : State} {b : Bank} (hb : activeSet s = some b) (hhas : Bank.hasHold b = true) :
    (holdReset s).dram = s.dram ∧ (holdReset s).cfg = s.cfg ∧ (holdReset s).hold.state = .recording ∧
      (holdReset s).hold.retained = [] ∧ (holdReset s).hold.endSfn = 0 ∧ (holdReset s).hold.delivering = false ∧
      (holdReset s).hold.incompleteCnt = 0 := by
  unfold holdReset
  extract_lets u v
  have hcfg : u.cfg = s.cfg := forEach_keeps (g := State.cfg) (fun _ _ => reply_cfg ..) _ s
  have hdram : u.dram = s.dram := forEach_keeps (g := State.dram) (fun _ _ => reply_dram ..) _ s
  have hact : activeSet u = some b := (activeSet_congr hcfg).trans hb
  have hv : v = holdRestart true u := congrArg (holdRestart · u) (by rw [hact]; exact hhas)
  clear_value u v
  rw [hv]
  exact ⟨(holdRestart_kept true u).2.trans hdram, (holdRestart_setHeld true u).1.trans hcfg, rfl, rfl, rfl, rfl, rfl⟩

theorem hostBlockReset (h : Hdr) (s : State) (hoff : s.dev.power ≠ .off) (b : Bank) (hb : activeSet s = some b)
    (hhas : Bank.hasHold b = true) :
    ∃ t, exec (.resetBlock h 0x11 0) s = .next t ∧ t.dram = s.dram ∧ t.cfg = s.cfg ∧ t.hold.state = .recording ∧
      t.hold.retained = [] ∧ t.hold.endSfn = 0 ∧ t.hold.delivering = false ∧ t.hold.incompleteCnt = 0 := by
  have hexec := resetBlock_of_accepted (h := h) (ty := 0x11) (i := 0) hoff (f := resetHost) rfl (by decide)
  refine ⟨_, congrArg Host.Outcome.next hexec, ?_⟩
  rw [reply_dram, reply_cfg, reply_hold]
  exact holdReset_eqs (s := resetHostRegs (counted s)) hb hhas

/-- The channels at their reset values, and the masks at their home bits (10 R250, R265). -/
theorem resetMemc_eqs (s : State) : (resetMemc s).memc.hash = hashReset ∧ (resetMemc s).memc.mapLock = false ∧
    (resetMemc s).memc.trained = false ∧ (resetMemc s).memc.frzCnt = 0 ∧
    (resetMemc s).memch = s.memch.map resetMemch := by
  unfold resetMemc
  extract_lets moved u v
  split
  · exact ⟨rfl, rfl, rfl, rfl, rfl⟩
  · exact ⟨rfl, rfl, rfl, rfl, rfl⟩

theorem memoryReset (h : Hdr) (s : State) (hoff : s.dev.power ≠ .off) (hpark : s.dev.power = .parked) :
    ∃ t, exec (.resetBlock h 0x20 0) s = .next t ∧ t.memc.hash = hashReset ∧ t.memc.mapLock = false ∧
      t.memc.trained = false ∧ t.memc.frzCnt = 0 ∧ ∀ n : Fin 8, (chOf t n.val).trained = false := by
  have hexec := resetBlock_of_accepted (h := h) (ty := 0x20) (i := 0) hoff (f := resetMemc) (if_pos hpark) (by decide)
  obtain ⟨hhash, hlock, htrained, hcnt, hch⟩ := resetMemc_eqs (counted s)
  refine ⟨_, congrArg Host.Outcome.next hexec, ?_⟩
  unfold chOf
  rw [reply_memc, reply_memch, hch]
  exact ⟨hhash, hlock, htrained, hcnt, fun n => by simp [vget, resetMemch, Memch.reset]⟩

/-- Settles O45, by the effect of RESET_BLOCK on each type of block. -/
theorem blocksReset : Obligations.BlocksReset :=
  fun h s hoff => ⟨congrArg Host.Outcome.next (resetBlock_of_accepted (ty := 0x33) (i := 0) hoff rfl (by decide)),
    engineReset h s hoff, hostBlockReset h s hoff, memoryReset h s hoff,
    congrArg Host.Outcome.next (resetBlock_of_refused (ty := 0x12) (i := 0) hoff rfl)⟩

/-! ### Registers of TICK (00 R11, R13; 12 R285) -/

/-- The block TICK of the BAR0 map. -/
def tickBlock : Block := ⟨⟨0x05, 1, 0x00013000, 0x1000, 0⟩, 0⟩

theorem sub_tickBlock (o : Nat) : 0x13000 + o - tickBlock.base = o := by
  change 0x13000 + o - (0x13000 + 0 * 0x1000) = o
  omega

theorem blockAt_tick {o : Nat} (h : o < 0x1000) : blockAt (0x13000 + o) = some tickBlock := by
  have hl : ∀ u ∈ blockTypes.take 4, u.base + u.count * u.size ≤ 0x13000 := by decide
  rw [blockAt_of_split (l := blockTypes.take 4) (t := ⟨0x05, 1, 0x00013000, 0x1000, 0⟩) (r := blockTypes.drop 5) rfl
    (fun u hu => (hl u hu).trans (Nat.le_add_right ..)) (Nat.le_add_right ..) (by dsimp only; omega)]
  exact congrArg (fun i => some (Block.mk ⟨0x05, 1, 0x00013000, 0x1000, 0⟩ i)) (Nat.div_eq_of_lt (by dsimp only; omega))

theorem served_of_on {s : State} (hoff : s.dev.power ≠ .off) (ty : Nat) : blockServed s ty = true := by
  unfold blockServed
  rw [decide_eq_true hoff]
  rfl

/-- A full word at a register of TICK. -/
theorem bar0Write_tick {o : Nat} (ho : o ≤ 0x2C) {s : State} (hoff : s.dev.power ≠ .off) (v : Word) :
    bar0Write (0x13000 + o) v 0xF s = writeTickReg o v s := by
  have himp : isImplemented tickBlock.type.ty (0x13000 + o - tickBlock.base) = true := by
    rw [sub_tickBlock]
    simp [tickBlock, isImplemented, implemented, ho]
  rw [bar0Write_of_block (blockAt_tick (by omega)) himp (served_of_on hoff _) v, sub_tickBlock]
  rfl

theorem stickyCleared (s : State) (hoff : s.dev.power ≠ .off) (hflr : s.host.flr = false) (v : Word) :
    exec (.registerWrite 0x00013014 v 0xF) s = .next { s with tick := { s.tick with
      tableTouch := s.tick.tableTouch && !v.getLsbD 0, shadowDrop := s.tick.shadowDrop && !v.getLsbD 1,
      lateSeen := s.tick.lateSeen && !v.getLsbD 2, overrunSeen := s.tick.overrunSeen && !v.getLsbD 3 } } := by
  have haddr : wordAddr 0x00013014 = 0x13000 + 0x14 := by decide
  refine congrArg Host.Outcome.next ((barAccess_of_live hflr _).trans ?_)
  rw [haddr, bar0Write_tick (by decide) hoff]
  rfl

/-- A miss is counted and flagged, and the first one shows its place (12 R285). -/
theorem bar0Miss_host (a : Nat) (w : Bool) (s : State) : (bar0Miss a w s).host.addrMiss = true ∧
    (bar0Miss a w s).host.missBar0 = satInc s.host.missBar0 ∧
    (s.host.addrMiss = false → (bar0Miss a w s).host.missOfs = BitVec.ofNat 26 a ∧ (bar0Miss a w s).host.missWrite = w) := by
  unfold bar0Miss raiseErr
  extract_lets u
  obtain ⟨p, e⟩ := raiseErrs_sameHost [mkErr 2 0x25 0xFF 0 (word a)] u
  rw [e]
  have hfirst (h : s.host.addrMiss = false) : ¬ (s.host.addrMiss = true) := by rw [h]; exact Bool.false_ne_true
  exact ⟨rfl, rfl, fun h => ⟨if_neg (hfirst h), if_neg (hfirst h)⟩⟩

/-- A write of part of a register is a miss, but for one of the load window. -/
theorem bar0Write_of_part {a : Nat} {b : Block} {be : BitVec 4} (hb : blockAt a = some b)
    (himp : isImplemented b.type.ty (a - b.base) = true) (hty : b.type.ty ≠ 0x82) (hbe : be ≠ 0xF) (v : Word) (s : State) :
    bar0Write a v be s = bar0Miss a true s := by
  have himp' : ¬ ((!isImplemented b.type.ty (a - b.base)) = true) := by rw [himp]; exact Bool.false_ne_true
  have hwin : ¬ ((decide (b.type.ty = 0x82) && decide (s.dev.phase ≠ .hostWait)) = true) := by
    rw [decide_eq_false hty]
    exact Bool.false_ne_true
  unfold bar0Write
  rw [hb]
  exact (if_neg himp').trans ((if_pos hbe).trans (if_neg hwin))

theorem bar0Write_of_unimplemented {a : Nat} (h : bar0Implemented a = false) (v : Word) (be : BitVec 4) (s : State) :
    bar0Write a v be s = bar0Miss a true s := by
  unfold bar0Implemented at h
  unfold bar0Write
  cases hb : blockAt a with
  | none => rfl
  | some b =>
    rw [hb] at h
    have himp : isImplemented b.type.ty (a - b.base) = false := h
    exact if_pos (by rw [himp]; rfl)

theorem bar0Read_of_unimplemented {a : Nat} (h : bar0Implemented a = false) (s : State) :
    bar0Read a s = (0, true, bar0Miss a false s) := by
  have hnone : bar0Word s a = none := by
    unfold bar0Implemented at h
    unfold bar0Word
    cases hb : blockAt a with
    | none => rfl
    | some b =>
      rw [hb] at h
      have himp : isImplemented b.type.ty (a - b.base) = false := h
      exact if_pos (by rw [himp]; rfl)
  unfold bar0Read
  rw [hnone]

theorem partMissed (s : State) (hflr : s.host.flr = false) (v : Word) (be : BitVec 4) (hbe : be ≠ 0xF) :
    ∃ t, exec (.registerWrite 0x00013014 v be) s = .next t ∧ t.tick = s.tick ∧ t.host.addrMiss = true ∧
      t.host.missBar0 = satInc s.host.missBar0 := by
  have himp : isImplemented tickBlock.type.ty (0x13000 + 0x14 - tickBlock.base) = true := by decide
  have hpart := bar0Write_of_part (blockAt_tick (o := 0x14) (by decide)) himp (by decide) hbe v s
  obtain ⟨hseen, hcnt, -⟩ := bar0Miss_host 0x13014 true s
  exact ⟨_, congrArg Host.Outcome.next ((barAccess_of_live hflr _).trans hpart),
    bar0Miss_only (g := State.tick) (fun _ _ _ _ _ => rfl) .., hseen, hcnt⟩

/-- The access of an unimplemented offset: a miss, and of a read the enabled bytes of a zero word. -/
theorem unimplementedAccess_eq {a : Word} (h : bar0Implemented (wordAddr a) = false) (w : Bool) (be : BitVec 4) {s : State}
    (hflr : s.host.flr = false) : exec (.bar0UnimplementedAccess a w be) s = .next (if w then bar0Miss (wordAddr a) true s
      else emit (.readData (((leBytes 4 (0 : Word).toNat).zipIdx.filter fun p => be.getLsbD p.2).map fun p => p.1))
        (bar0Miss (wordAddr a) false s)) := by
  refine congrArg Host.Outcome.next ((barAccess_of_live hflr _).trans ?_)
  cases w with
  | true =>
    refine (if_neg ?_).trans (bar0Write_of_unimplemented h 0 be s)
    rw [h]
    exact Bool.false_ne_true
  | false =>
    change bar0HostRead (wordAddr a) be s = _
    unfold bar0HostRead
    rw [bar0Read_of_unimplemented h]
    rfl

theorem unimplementedMissed (s : State) (hflr : s.host.flr = false) (a : Word) (w : Bool) (be : BitVec 4)
    (h : bar0Implemented (wordAddr a) = false) :
    ∃ t, exec (.bar0UnimplementedAccess a w be) s = .next t ∧ t.tick = s.tick ∧ t.cmdq = s.cmdq ∧ t.cfg = s.cfg ∧
      t.host.addrMiss = true ∧ t.host.missBar0 = satInc s.host.missBar0 ∧
      (s.host.addrMiss = false → t.host.missOfs = BitVec.ofNat 26 (wordAddr a) ∧ t.host.missWrite = w) ∧
      (w = false → be = 0xF → t.out.head? = some (.readData [0, 0, 0, 0])) := by
  refine ⟨_, unimplementedAccess_eq h w be hflr, ?_⟩
  have hmiss (w : Bool) : (bar0Miss (wordAddr a) w s).tick = s.tick ∧ (bar0Miss (wordAddr a) w s).cmdq = s.cmdq ∧
      (bar0Miss (wordAddr a) w s).cfg = s.cfg :=
    ⟨bar0Miss_only (g := State.tick) (fun _ _ _ _ _ => rfl) .., bar0Miss_only (g := State.cmdq) (fun _ _ _ _ _ => rfl) ..,
      bar0Miss_only (g := State.cfg) (fun _ _ _ _ _ => rfl) ..⟩
  obtain ⟨ht, hq, hc⟩ := hmiss w
  obtain ⟨hseen, hcnt, hfirst⟩ := bar0Miss_host (wordAddr a) w s
  cases w with
  | true => exact ⟨ht, hq, hc, hseen, hcnt, hfirst, fun h => absurd h.symm Bool.false_ne_true⟩
  | false =>
    refine ⟨ht, hq, hc, hseen, hcnt, hfirst, fun _ hbe => ?_⟩
    rw [hbe]
    rfl

theorem sfnRead (s : State) (hoff : s.dev.power ≠ .off) (hflr : s.host.flr = false) (be : BitVec 4) :
    exec (.bar0UnimplementedAccess 0x00013004 false be) s = .next { s with
      out := .readData (((leBytes 4 s.tick.sfn.toNat).zipIdx.filter fun p => be.getLsbD p.2).map fun p => p.1) :: s.out } := by
  have hword : bar0Word s 0x13004 = some s.tick.sfn := by
    unfold bar0Word
    rw [blockAt_tick (o := 4) (by decide)]
    dsimp only
    rw [served_of_on hoff]
    rfl
  have haddr : wordAddr 0x00013004 = 0x13004 := by decide
  refine congrArg Host.Outcome.next ((barAccess_of_live hflr _).trans ?_)
  rw [haddr, if_neg Bool.false_ne_true]
  unfold bar0HostRead bar0Read
  rw [hword]
  rfl

theorem parkWritten (s : State) (hoff : s.dev.power ≠ .off) (hflr : s.host.flr = false) (v : Word) :
    exec (.tickParkPeriodWrite v) s = .next { s with tick := { s.tick with
      parkPeriod := if 10000000 ≤ v.toNat ∧ v.toNat ≤ 1000000000 then v else s.tick.parkPeriod } } := by
  have haddr : 0x0001300C = 0x13000 + 0x0C := by decide
  refine congrArg Host.Outcome.next ((barAccess_of_live hflr _).trans ?_)
  rw [haddr, bar0Write_tick (by decide) hoff]
  change parkWrite v s = _
  unfold parkWrite
  by_cases h : 10000000 ≤ v.toNat ∧ v.toNat ≤ 1000000000
  · rw [if_pos h, if_pos (by rw [decide_eq_true h.1, decide_eq_true h.2]; rfl)]
    rfl
  · rw [if_neg h, if_neg (by rwa [Bool.and_eq_true, decide_eq_true_iff, decide_eq_true_iff])]

/-- Settles O46, by the block and the register that each address names. -/
theorem registerWrites : Obligations.RegisterWrites :=
  fun s hoff hflr => ⟨stickyCleared s hoff hflr, partMissed s hflr, unimplementedMissed s hflr, sfnRead s hoff hflr,
    parkWritten s hoff hflr⟩

end Sys2Proof.Proofs
end

section
/-! PROOFS. The queue of the keeping store and its commands (18 R391, R392, R401, R405). -/
namespace Sys2Proof.Proofs

open Sys2Proof Sys2Proof.Machine Sys2Proof.Laws

/-! ### What reads, checks and errors leave of the store -/

/-- Between the two states the array and its bad groups, the voltage last measured, and READY are the same. -/
def StoreHeld (s t : State) : Prop :=
  t.keep.array = s.keep.array ∧ t.keep.badGroups = s.keep.badGroups ∧ t.keep.vkeepMv = s.keep.vkeepMv ∧
    t.keep.ready = s.keep.ready

theorem StoreHeld.refl (s : State) : StoreHeld s s := ⟨rfl, rfl, rfl, rfl⟩

theorem StoreHeld.trans {s t u : State} (a : StoreHeld s t) (b : StoreHeld t u) : StoreHeld s u := by
  obtain ⟨ha, hb, hv, hr⟩ := a
  obtain ⟨ha', hb', hv', hr'⟩ := b
  exact ⟨ha'.trans ha, hb'.trans hb, hv'.trans hv, hr'.trans hr⟩

theorem StoreHeld.ite {c : Prop} [Decidable c] {s t u : State} (ht : StoreHeld s t) (hu : StoreHeld s u) :
    StoreHeld s (if c then t else u) := by
  split
  · exact ht
  · exact hu

theorem storeHeld_of_keep {s t : State} (h : t.keep = s.keep) : StoreHeld s t := by
  unfold StoreHeld
  rw [h]
  exact ⟨rfl, rfl, rfl, rfl⟩

theorem modKeep_storeHeld {f : Keep → Keep} (s : State)
    (h : ∀ k, (f k).array = k.array ∧ (f k).badGroups = k.badGroups ∧ (f k).vkeepMv = k.vkeepMv ∧ (f k).ready = k.ready := by
      intro _; exact ⟨rfl, rfl, rfl, rfl⟩) : StoreHeld s (modKeep f s) := h s.keep

theorem forEach_storeHeld {α : Type} {f : α → State → State} (h : ∀ a s, StoreHeld s (f a s)) (l : List α) (s : State) :
    StoreHeld s (forEach l f s) :=
  forEach_invariant (P := StoreHeld s) (fun a t ht => ht.trans (h a t)) l s (StoreHeld.refl s)

theorem keepOwn_storeHeld (r : Nat) (p : List Byte) (s : State) : StoreHeld s (keepOwn r p s) := modKeep_storeHeld s

theorem logCapture_storeHeld (c : Nat) (s : State) : StoreHeld s (logCapture c s) := by
  unfold logCapture
  extract_lets last due e frz payload
  exact StoreHeld.ite ((keepOwn_storeHeld 69 payload s).trans (modKeep_storeHeld _)) (StoreHeld.refl s)

theorem raiseOne_storeHeld (r : ErrRec) (s : State) : StoreHeld s (raiseOne r s) := by
  unfold raiseOne
  extract_lets u e
  have hu : StoreHeld s u := modKeep_storeHeld s
  clear_value u
  split
  · exact hu
  · refine hu.trans (StoreHeld.trans ?_ (logCapture_storeHeld _ _))
    exact storeHeld_of_keep (sendVector_only (g := State.keep) (fun _ _ => rfl) (fun _ _ => rfl) _ _)

theorem raiseErr_storeHeld (e : ErrRec) (s : State) : StoreHeld s (raiseErr e s) := by
  unfold raiseErr raiseErrs
  split
  · exact storeHeld_of_keep rfl
  · exact forEach_storeHeld raiseOne_storeHeld _ s

theorem keepCheck_storeHeld (a n : Nat) (s : State) : StoreHeld s (keepCheck a n s) :=
  forEach_storeHeld (fun _ s => StoreHeld.ite (modKeep_storeHeld s) ((modKeep_storeHeld s).trans (raiseErr_storeHeld _ _))) _ s

theorem resolveRing_storeHeld (r : Nat) (s : State) : StoreHeld s (resolveRing r s) := by
  refine forEach_storeHeld (fun q s => ?_) _ s
  extract_lets valid slots k u
  have hu : StoreHeld s u := modKeep_storeHeld s
  clear_value u
  exact StoreHeld.ite (StoreHeld.refl s) (StoreHeld.ite (hu.trans ((modKeep_storeHeld u).trans (raiseErr_storeHeld _ _))) hu)

theorem indexRing_storeHeld (r : Nat) (s : State) : StoreHeld s (indexRing r s) :=
  (resolveRing_storeHeld r s).trans (modKeep_storeHeld _)

theorem reply_storeHeld (h : Hdr) (op : Nat) (st : BitVec 16) (ws : List Word) (s : State) : StoreHeld s (reply h op st ws s) :=
  storeHeld_of_keep (reply_keep ..)

theorem serveRead_storeHeld (w : KeepWork) (s : State) : StoreHeld s (serveRead w s) := by
  unfold serveRead
  split
  · exact (keepCheck_storeHeld ..).trans (reply_storeHeld ..)
  · extract_lets u valid
    have hu : StoreHeld s u := indexRing_storeHeld _ s
    clear_value valid u
    cases valid with
    | nil => exact hu.trans (reply_storeHeld ..)
    | cons p l =>
      dsimp only
      split
      · exact hu.trans (reply_storeHeld ..)
      · exact hu.trans ((keepCheck_storeHeld ..).trans (reply_storeHeld ..))
  · exact StoreHeld.refl s

theorem beginScrub_storeHeld (s : State) : StoreHeld s (beginScrub s) := by
  unfold beginScrub
  split
  · exact (keepCheck_storeHeld ..).trans (modKeep_storeHeld _)
  · exact StoreHeld.refl s

theorem foldl_storeHeld {α β : Type} {f : α × State → β → α × State} (h : ∀ x b, StoreHeld x.2 (f x b).2) (l : List β)
    (x : α × State) : StoreHeld x.2 (l.foldl f x).2 := by
  induction l generalizing x with
  | nil => exact StoreHeld.refl x.2
  | cons b l ih => exact (h x b).trans (ih (f x b))

/-- Serving the queue's reads and beginning a scrub leave the array, its bad groups, VKEEP and READY. -/
theorem keepPump_storeHeld (s : State) : StoreHeld s (keepPump s) := by
  refine StoreHeld.trans ?_ (beginScrub_storeHeld _)
  refine StoreHeld.trans ?_ (modKeep_storeHeld _)
  refine StoreHeld.trans (modKeep_storeHeld s) (foldl_storeHeld (fun x w => ?_) s.keep.queue (([] : List KeepWork), _))
  split
  · exact serveRead_storeHeld w x.2
  · exact StoreHeld.refl x.2

/-! ### The items that an error adds to the queue -/

/-- No scrub is among the items of the queue. -/
def NoScrub (s : State) : Prop := ∀ h, KeepWork.scrub h ∉ s.keep.queue

theorem noScrub_of_keep {s t : State} (h : t.keep = s.keep) (hs : NoScrub s) : NoScrub t := by
  unfold NoScrub
  rwa [h]

theorem mem_put {ring : Nat} {payload : List Byte} {w : KeepWork} (l : List KeepWork) (busy : Bool)
    (h : w ∈ keepOwn.put ring payload l busy) : w = .own ring payload ∨ w ∈ l := by
  induction l generalizing busy with
  | nil => exact .inl (List.mem_singleton.1 h)
  | cons x l ih =>
    have hrest (h : w ∈ x :: keepOwn.put ring payload l false) : w = .own ring payload ∨ w ∈ x :: l := by
      rcases List.mem_cons.1 h with h | h
      · exact .inr (h ▸ List.mem_cons_self)
      · exact (ih false h).imp_right (List.mem_cons_of_mem x)
    unfold keepOwn.put at h
    split at h
    · split at h
      · exact (List.mem_cons.1 h).imp_right (List.mem_cons_of_mem _)
      · exact hrest h
    · exact hrest h

theorem keepOwn_noScrub {s : State} (r : Nat) (p : List Byte) (h : NoScrub s) : NoScrub (keepOwn r p s) := by
  intro x hx
  rcases mem_put s.keep.queue s.keep.current.isSome hx with e | e
  · exact KeepWork.noConfusion e
  · exact h x e

theorem logCapture_noScrub {s : State} (c : Nat) (h : NoScrub s) : NoScrub (logCapture c s) := by
  unfold logCapture
  extract_lets last due e frz payload
  split
  · exact keepOwn_noScrub 69 payload h
  · exact h

theorem raiseOne_noScrub (r : ErrRec) {s : State} (h : NoScrub s) : NoScrub (raiseOne r s) := by
  unfold raiseOne
  extract_lets u e
  have hu : NoScrub u := h
  clear_value u
  split
  · exact hu
  · exact logCapture_noScrub _
      (noScrub_of_keep (sendVector_only (g := State.keep) (fun _ _ => rfl) (fun _ _ => rfl) _ _) hu)

theorem raiseErr_noScrub (e : ErrRec) {s : State} (h : NoScrub s) : NoScrub (raiseErr e s) := by
  unfold raiseErr raiseErrs
  split
  · exact h
  · exact forEach_invariant (P := NoScrub) (fun r t => raiseOne_noScrub r) _ s h

theorem indexRing_noScrub (r : Nat) {s : State} (h : NoScrub s) : NoScrub (indexRing r s) := by
  refine forEach_invariant (P := NoScrub) (fun q t ht => ?_) _ s h
  extract_lets valid slots k u
  have hu : NoScrub u := ht
  clear_value u
  split
  · exact ht
  · split
    · exact raiseErr_noScrub (s := modKeep _ u) _ hu
    · exact hu

theorem beginScrub_of_noScrub {s : State} (h : NoScrub s) : beginScrub s = s := by
  unfold beginScrub
  split
  · next hd l hq _ => exact absurd (hq ▸ List.mem_cons_self) (h hd)
  · rfl

/-! ### The queue with one item -/

theorem withQueue_self {s : State} {l : List KeepWork} (h : s.keep.queue = l) :
    { s with keep := { s.keep with queue := l } } = s := by
  subst h
  rfl

theorem keepCheck_of_good {s : State} (h : s.keep.badGroups = []) (a n : Nat) : keepCheck a n s = s := by
  unfold keepCheck
  rw [h]
  rfl

theorem badCount_of_good {s : State} (h : s.keep.badGroups = []) (a n : Nat) (c : Bool) : badCount s a n c = 0 := by
  unfold badCount
  rw [h]
  rfl

theorem keepPump_of_nil {s : State} (h : s.keep.queue = []) : keepPump s = s := by
  have hpump : keepPump s = beginScrub { s with keep := { s.keep with queue := [] } } := by
    unfold keepPump
    rw [h]
    rfl
  rw [hpump, withQueue_self h]
  exact beginScrub_of_noScrub fun x hx => List.not_mem_nil (h ▸ hx)

/-- One item that is no read stays in the queue. -/
theorem keepPump_of_one {s : State} {w : KeepWork} (h : s.keep.queue = [w]) (hw : isRead w = false) :
    keepPump s = beginScrub s := by
  have hpump : keepPump s = beginScrub { s with keep := { s.keep with queue := [w] } } := by
    unfold keepPump
    rw [h]
    dsimp only
    rw [List.foldl_cons, List.foldl_nil, hw]
    rfl
  rw [hpump, withQueue_self h]

/-- One read that does not stall is served. -/
theorem keepPump_of_read {s : State} {w : KeepWork} (h : s.keep.queue = [w]) (hw : isRead w = true)
    (hst : stalls { s with keep := { s.keep with queue := [] } } [] w = false) :
    keepPump s = beginScrub (serveRead w { s with keep := { s.keep with queue := [] } }) := by
  have hpump : keepPump s = beginScrub (modKeep (fun k => { k with queue := [] ++ k.queue })
      (serveRead w { s with keep := { s.keep with queue := [] } })) := by
    unfold keepPump
    rw [h]
    dsimp only
    rw [List.foldl_cons, List.foldl_nil]
    have hgo : (isRead w && !stalls (modKeep (fun k => { k with queue := [] }) s) [] w) = true := by
      rw [hw]
      exact congrArg (! ·) hst
    rw [if_pos hgo]
    rfl
  exact hpump

/-! ### The commands (18 R391, R401, R405) -/

theorem keepTaken {h : Hdr} {op : Nat} {w : KeepWork} {s : State} (hoff : s.dev.power ≠ .off)
    (hop : (decide (0x20 ≤ op) && decide (op ≤ 0x34) && decide (op ≠ 0x21) && decide (op ≠ 0x32)) = false)
    (hq : s.keep.queue = []) : runAtTick h op (keepEnqueue w) s =
      keepPump { counted s with keep := { s.keep with queue := [w] } } := by
  rw [runAtTick_of_free hoff hop]
  unfold keepEnqueue modKeep
  change keepPump { counted s with keep := { s.keep with queue := s.keep.queue ++ [w] } } = _
  rw [hq]
  rfl

theorem keepReads (h : Hdr) (s : State) (hoff : s.dev.power ≠ .off) (hq : s.keep.queue = []) (hgood : s.keep.badGroups = [])
    (a n : Word) : exec (.keepRead h a n) s = .next (reply h 0x50 stOk
      (fields [(n.toNat, 0), (0, 16), (0, 24)] :: bytesWords (keepBytes s a.toNat n.toNat)) (counted s)) := by
  refine congrArg Host.Outcome.next ((keepTaken hoff (by decide) hq).trans ?_)
  rw [keepPump_of_read (w := .read h a.toNat n.toNat) rfl rfl rfl]
  have hempty : { counted s with keep := { s.keep with queue := [] } } = counted s := withQueue_self (s := counted s) hq
  change beginScrub (serveRead _ { counted s with keep := { s.keep with queue := [] } }) = _
  rw [hempty]
  unfold serveRead
  dsimp only
  rw [badCount_of_good (s := counted s) hgood, badCount_of_good (s := counted s) hgood, keepCheck_of_good (s := counted s) hgood]
  refine beginScrub_of_noScrub (noScrub_of_keep (reply_keep ..) fun x hx => ?_)
  exact List.not_mem_nil (hq ▸ hx)

/-- An item that is neither a read nor a scrub takes its place in the empty queue. -/
theorem keepQueued {h : Hdr} {op : Nat} {w : KeepWork} {s : State} (hoff : s.dev.power ≠ .off)
    (hop : (decide (0x20 ≤ op) && decide (op ≤ 0x34) && decide (op ≠ 0x21) && decide (op ≠ 0x32)) = false)
    (hq : s.keep.queue = []) (hw : isRead w = false) (hs : ∀ h, w ≠ .scrub h) :
    runAtTick h op (keepEnqueue w) s = { counted s with keep := { s.keep with queue := [w] } } := by
  rw [keepTaken hoff hop hq, keepPump_of_one (w := w) rfl hw]
  exact beginScrub_of_noScrub fun x hx => hs x (List.mem_singleton.1 hx).symm

/-- A scrub of an array without a bad group has no page to rewrite (18 R401). -/
theorem beginScrub_of_good {h : Hdr} {s : State} (hq : s.keep.queue = [.scrub h]) (hc : s.keep.current = none)
    (hgood : s.keep.badGroups = []) : beginScrub s = { s with keep := { s.keep with
      scrubbing := true,
      current := some { pages := [], now := none, seq := 0, slot := 0, corrected := 0, uncorrectable := 0 } } } := by
  have hpages : scrubPages s = [] := by
    unfold scrubPages
    rw [hgood]
    simp
  have hfixed (ps : List Nat) : (s.keep.badGroups.filter fun g => g.2 && ps.contains (g.1 / 128)).length = 0 := by
    rw [hgood]
    rfl
  unfold beginScrub
  rw [hq, hc]
  dsimp only
  rw [keepCheck_of_good hgood, badCount_of_good hgood, hpages, hfixed]
  rfl

theorem keepScrubs (h : Hdr) (s : State) (hoff : s.dev.power ≠ .off) (hq : s.keep.queue = []) (hc : s.keep.current = none)
    (hgood : s.keep.badGroups = []) : exec (.keepScrub h) s = .next { counted s with keep := { s.keep with
      queue := [.scrub h], scrubbing := true,
      current := some { pages := [], now := none, seq := 0, slot := 0, corrected := 0, uncorrectable := 0 } } } := by
  refine congrArg Host.Outcome.next ((keepTaken hoff (by decide) hq).trans ?_)
  rw [keepPump_of_one (w := .scrub h) rfl rfl]
  exact beginScrub_of_good rfl hc hgood

/-- A ring read of a ring with a slot of the age asked for. -/
theorem serveRead_of_ring {h : Hdr} {r age : Nat} {s : State} {p : Nat × Nat} (hgood : s.keep.badGroups = [])
    (hp : ((validSlots (indexRing r s) r).mergeSort fun p q => q.1 ≤ p.1)[age]? = some p) :
    serveRead (.ringRead h r age) s = reply h 0x53 stOk (word p.1 :: word p.2 :: bytesWords
      (((keepBytes (indexRing r s) (slotAddr r p.2) (ringSlotBytes r)).drop 24).take (4 * (min
        (leNat (((keepBytes (indexRing r s) (slotAddr r p.2) (ringSlotBytes r)).drop 10).take 2)) (ringPayload r) / 4))))
      (indexRing r s) := by
  have hcheck : (indexRing r s).keep.badGroups = [] := (indexRing_storeHeld r s).2.1.trans hgood
  unfold serveRead
  dsimp only
  generalize indexRing r s = u at hp hcheck ⊢
  generalize (validSlots u r).mergeSort (fun p q => decide (q.1 ≤ p.1)) = l at hp ⊢
  cases l with
  | nil => cases hp
  | cons q l =>
    dsimp only
    rw [hp]
    dsimp only
    rw [keepCheck_of_good hcheck]

theorem keepRingReads (h : Hdr) (s : State) (hoff : s.dev.power ≠ .off) (hq : s.keep.queue = [])
    (hgood : s.keep.badGroups = []) (r : BitVec 8) (age : Word) (p : Nat × Nat) (hready : s.keep.ready = true)
    (hp : ((validSlots (indexRing r.toNat (counted s)) r.toNat).mergeSort fun p q => q.1 ≤ p.1)[age.toNat]? = some p) :
    let b := keepBytes s (slotAddr r.toNat p.2) (ringSlotBytes r.toNat)
    exec (.keepRingRead h r age) s = .next (reply h 0x53 stOk (word p.1 :: word p.2 :: bytesWords
      ((b.drop 24).take (4 * (min (leNat ((b.drop 10).take 2)) (ringPayload r.toNat) / 4))))
      (indexRing r.toNat (counted s))) := by
  extract_lets b
  have hbytes : keepBytes (indexRing r.toNat (counted s)) (slotAddr r.toNat p.2) (ringSlotBytes r.toNat) = b :=
    congrArg (fun m => readCells erasedByte m _ _) (indexRing_storeHeld r.toNat (counted s)).1
  have hstall : stalls { counted s with keep := { s.keep with queue := [] } } [] (.ringRead h r.toNat age.toNat) = false := by
    unfold stalls
    dsimp only
    rw [hready]
    rfl
  have hempty : { counted s with keep := { s.keep with queue := [] } } = counted s := withQueue_self (s := counted s) hq
  refine congrArg Host.Outcome.next ((keepTaken hoff (by decide) hq).trans ?_)
  rw [keepPump_of_read (s := { counted s with keep := { s.keep with queue := [.ringRead h r.toNat age.toNat] } })
    (w := .ringRead h r.toNat age.toNat) rfl rfl hstall]
  change beginScrub (serveRead _ { counted s with keep := { s.keep with queue := [] } }) = _
  rw [hempty, serveRead_of_ring (s := counted s) hgood hp, hbytes]
  refine beginScrub_of_noScrub (noScrub_of_keep (reply_keep ..) (indexRing_noScrub _ fun x hx => ?_))
  exact List.not_mem_nil (hq ▸ hx)

/-- Settles O38: with nothing queued a read is served at once, and any other item keeps its place. -/
theorem keepCommandsTaken : Obligations.KeepCommandsTaken :=
  fun h s hoff hq hc hgood => ⟨keepReads h s hoff hq hgood,
    fun _ _ _ => congrArg Host.Outcome.next (keepQueued hoff (by decide) hq rfl (fun _ => KeepWork.noConfusion)),
    fun _ _ => congrArg Host.Outcome.next (keepQueued hoff (by decide) hq rfl (fun _ => KeepWork.noConfusion)),
    fun _ => congrArg Host.Outcome.next (keepQueued hoff (by decide) hq rfl (fun _ => KeepWork.noConfusion)),
    keepScrubs h s hoff hq hc hgood, keepRingReads h s hoff hq hgood⟩

end Sys2Proof.Proofs
end

section
/-! PROOFS. Page writes, scrubs, settlement, the ring index and the counters of the keeping store (18 R393 to R408). -/
namespace Sys2Proof.Proofs

open Sys2Proof Sys2Proof.Machine Sys2Proof.Laws

/-! ### A page write starts (18 R393, R396) -/

/-- VKEEP is measured as a page write is tried. -/
def noteVkeep (v : BitVec 16) (s : State) : State :=
  modKeep (fun k => { k with vkeepMv := v, vkeepOk := 2900 ≤ v.toNat }) s

/-- The item at the head touches a protected address with one of its pages (18 R402). -/
def touchesProtected (s : State) (pages : List (Nat × List (Nat × Byte))) : Bool :=
  pages.any fun p => p.1 ≠ statusPage && p.2.any fun x => protectedFrom s.keep.bp ≤ 128 * p.1 + x.1

/-- An item that is no scrub starts its first page with VKEEP at 2.900 V or above on an unprotected address. -/
theorem tryStart_of_clear {v : BitVec 16} {s : State} {w : KeepWork} {l : List KeepWork} (hq : s.keep.queue = w :: l)
    (hread : isRead w = false) (hscrub : ∀ h, w ≠ .scrub h) (hstall : stalls s [] w = false) (hc : s.keep.current = none)
    (hv : 2900 ≤ v.toNat) (hfree : touchesProtected s (setUp w (noteVkeep v s)).2.pages = false) :
    tryStart v s = startPage (setUp w (noteVkeep v s)).2 (setUp w (noteVkeep v s)).1 := by
  have hgo : ¬ ((isRead w || stalls s [] w || (match s.keep.current with | some b => b.now.isSome | none => false)) = true) := by
    rw [hread, hstall, hc]
    exact Bool.false_ne_true
  unfold tryStart
  rw [hq]
  refine (if_neg hgo).trans ?_
  extract_lets u fresh last held r barred hit
  have hu : u = noteVkeep v s := rfl
  have hfresh : fresh = true := congrArg Option.isNone hc
  have hlast : last = false := by
    change (match s.keep.current with | some b => b.pages.isEmpty | none => false) = false
    rw [hc]
  have hr : r = setUp w u := if_pos hfresh
  rw [← hu] at hfree ⊢
  have hclear : (fresh && touchesProtected s r.2.pages) = false := by rw [hfresh, hr, hfree]; rfl
  have hbar : barred = false := by
    cases w with
    | scrub h => exact absurd rfl (hscrub h)
    | _ => exact hclear
  refine (if_neg ?_).trans ((if_neg (Nat.not_lt.2 hv)).trans ((if_neg ?_).trans ?_))
  · rw [hlast]
    exact Bool.false_ne_true
  · rw [hbar]
    exact Bool.false_ne_true
  · rw [hr]

theorem startPage_of_array {b : KeepBusy} {s : State} {p : Nat × List (Nat × Byte)} {r : List (Nat × List (Nat × Byte))}
    (hp : b.pages = p :: r) (hst : p.1 ≠ statusPage) : startPage b s = modKeep (fun k => { k with
      current := some { b with pages := r, now := some (p.1, mergePage (keepBytes (keepCheck (128 * p.1) 128 s) (128 * p.1) 128) p.2) },
      retryWait := false }) (keepCheck (128 * p.1) 128 s) := by
  unfold startPage
  rw [hp]
  dsimp only
  rw [if_neg hst, if_neg hst]

theorem stalls_of_write (s : State) (h : Hdr) (a : Nat) (d : List Byte) : stalls s [] (.write h a d) = false := rfl

theorem stalls_of_own {s : State} (h : s.keep.ready = true) (r : Nat) (p : List Byte) : stalls s [] (.own r p) = false := by
  unfold stalls
  dsimp only
  rw [h]
  rfl

/-- The bytes of a write below the protected addresses touch none. -/
theorem write_clear {s : State} {a : Nat} {d : List Byte} (h : ∀ i < d.length, a + i < protectedFrom s.keep.bp) :
    touchesProtected s [(a / 128, (d.zipIdx).map fun x => (a % 128 + x.2, x.1))] = false := by
  unfold touchesProtected
  rw [List.any_eq_false]
  intro p hp
  obtain rfl := List.mem_singleton.1 hp
  rw [Bool.and_eq_true, List.any_eq_true, not_and_or]
  refine .inr ?_
  rintro ⟨x, hx, hle⟩
  obtain ⟨y, hy, rfl⟩ := List.mem_map.1 hx
  have hlen : y.2 < d.length := by
    have := List.snd_lt_of_mem_zipIdx hy
    omega
  have hbelow := h y.2 hlen
  have hle : protectedFrom s.keep.bp ≤ 128 * (a / 128) + (a % 128 + y.2) := of_decide_eq_true hle
  omega

theorem pageWriteStarts (h : Hdr) (a : Nat) (d : List Byte) (v : BitVec 16) (s : State) (hq : s.keep.queue = [.write h a d])
    (hc : s.keep.current = none) (hretry : s.keep.retryWait = false) (hgood : s.keep.badGroups = []) (hv : 2900 ≤ v.toNat)
    (ha : a < 524288) (hfree : ∀ i < d.length, a + i < protectedFrom s.keep.bp) :
    ∃ t, exec (.keepPageWriteStart v) s = .next t ∧ t.cmdq = s.cmdq ∧ t.keep = { s.keep with
      vkeepMv := v, vkeepOk := true, current := some {
        pages := [], now := some (a / 128, mergePage (keepBytes s (128 * (a / 128)) 128)
          ((d.zipIdx).map fun x => (a % 128 + x.2, x.1))),
        seq := 0, slot := 0, corrected := 0, uncorrectable := 0 } } := by
  have hpage : a / 128 ≠ statusPage := by
    unfold statusPage
    omega
  have hstart : tryStart v s = _ := tryStart_of_clear hq rfl (fun _ => KeepWork.noConfusion) (stalls_of_write s h a d) hc hv
    (write_clear hfree)
  have hpaged := startPage_of_array (b := (setUp (.write h a d) (noteVkeep v s)).2) (s := noteVkeep v s) (r := []) rfl hpage
  rw [keepCheck_of_good (s := noteVkeep v s) hgood] at hpaged
  refine ⟨_, congrArg Host.Outcome.next ((if_neg ?_).trans (hstart.trans hpaged)), rfl, ?_⟩
  · rw [hretry]
    exact Bool.false_ne_true
  · have hok : decide (2900 ≤ v.toNat) = true := decide_eq_true hv
    change ({ s.keep with
      vkeepMv := v, vkeepOk := decide (2900 ≤ v.toNat), retryWait := false, current := _ } : Keep) = _
    rw [hok, ← hretry]
    rfl

/-! ### A write that waited for VKEEP (18 R396, R404) -/

theorem ringSlots_pos (r : Nat) : 0 < ringSlots r := by
  unfold ringSlots
  split_ifs <;> decide

theorem ringNext_lt (s : State) (r n : Nat) : (ringNext s r n).1 < ringSlots r := by
  unfold ringNext
  dsimp only
  split
  · exact Nat.mod_lt _ (ringSlots_pos r)
  · exact Nat.mod_lt _ (ringSlots_pos r)

/-- The pages of a ring lie in the array. -/
theorem slotPages_lt {r i p : Nat} (hr : r < 80) (hi : i < ringSlots r) (hp : p ∈ slotPages r i) : 128 * p + 127 < 0x80000 := by
  have haddr : slotAddr r i < 0x7FF00 := by
    unfold slotAddr ringBase ringSlotBytes
    unfold ringSlots at hi
    split_ifs at hi ⊢ <;> omega
  have hle : p ≤ slotAddr r i / 128 + 1 := by
    unfold slotPages at hp
    dsimp only at hp
    split at hp
    · simp only [List.mem_cons, List.not_mem_nil, or_false] at hp
      omega
    · simp only [List.mem_cons, List.not_mem_nil, or_false] at hp
      omega
  omega

/-- A part of a slot's content as the bytes of one page. -/
def slotPart (b : List Byte) (p o : Nat) : Nat × List (Nat × Byte) := (p, (((b.drop o).take 128).zipIdx).map fun x => (x.2, x.1))

/-- The pages of a slot with its content: the second is written first (18 R404). -/
def slotParts (b : List Byte) (ps : List Nat) : List (Nat × List (Nat × Byte)) :=
  match ps with
  | [p, q] => [slotPart b q 128, slotPart b p 0]
  | _ => ps.map fun p => slotPart b p 0

theorem setUp_own (r : Nat) (pl : List Byte) (s : State) : ∃ b, (setUp (.own r pl) s).1 = indexRing r s ∧
    (setUp (.own r pl) s).2.pages = slotParts b (slotPages r (ringNext (indexRing r s) r 0).1) := ⟨_, rfl, rfl⟩

theorem slotPart_lt {b : List Byte} {p o : Nat} {x : Nat × Byte} (h : x ∈ (slotPart b p o).2) : x.1 < 128 := by
  obtain ⟨y, hy, rfl⟩ := List.mem_map.1 h
  have hlt := List.snd_lt_of_mem_zipIdx hy
  rw [List.length_take] at hlt
  dsimp only
  omega

theorem mem_slotParts {b : List Byte} {ps : List Nat} {x : Nat × List (Nat × Byte)} (h : x ∈ slotParts b ps) :
    ∃ p ∈ ps, ∃ o, x = slotPart b p o := by
  unfold slotParts at h
  split at h
  · next p q =>
    rcases List.mem_cons.1 h with h | h
    · exact ⟨q, List.mem_cons_of_mem p List.mem_cons_self, 128, h⟩
    · exact ⟨p, List.mem_cons_self, 0, List.mem_singleton.1 h⟩
  · obtain ⟨p, hp, rfl⟩ := List.mem_map.1 h
    exact ⟨p, hp, 0, rfl⟩

theorem slotParts_cons (b : List Byte) (r i : Nat) : ∃ p l, slotParts b (slotPages r i) = p :: l := by
  unfold slotPages
  dsimp only
  split
  · exact ⟨_, _, rfl⟩
  · exact ⟨_, _, rfl⟩

theorem slot_clear {s : State} {b : List Byte} {r i : Nat} (hr : r < 80) (hi : i < ringSlots r) (hbp : s.keep.bp = 0) :
    touchesProtected s (slotParts b (slotPages r i)) = false := by
  unfold touchesProtected
  rw [List.any_eq_false]
  intro x hx
  obtain ⟨p, hp, o, rfl⟩ := mem_slotParts hx
  rw [Bool.and_eq_true, List.any_eq_true, not_and_or]
  refine .inr ?_
  rintro ⟨y, hy, hle⟩
  have hle : protectedFrom s.keep.bp ≤ 128 * p + y.1 := of_decide_eq_true hle
  have hfrom : protectedFrom s.keep.bp = 0x80000 := if_pos hbp
  have hpage := slotPages_lt hr hi hp
  have hbyte := slotPart_lt hy
  omega

/-- The page is checked as its write starts. -/
def pageChecked (n : Nat) (s : State) : State := if n = statusPage then s else keepCheck (128 * n) 128 s

theorem startPage_eq {b : KeepBusy} {p : Nat × List (Nat × Byte)} {l : List (Nat × List (Nat × Byte))}
    (hp : b.pages = p :: l) (s : State) : ∃ content, startPage b s = modKeep (fun k => { k with
      current := some { b with pages := l, now := some (p.1, content) }, retryWait := false }) (pageChecked p.1 s) := by
  unfold startPage
  rw [hp]
  exact ⟨_, rfl⟩

/-- A page write starts: the page is held with what is to be written, and the array stays as it is. -/
theorem startPage_eqs {b : KeepBusy} {s : State} {p : Nat × List (Nat × Byte)} {l : List (Nat × List (Nat × Byte))}
    (hp : b.pages = p :: l) : StoreHeld s (startPage b s) ∧ (startPage b s).keep.retryWait = false ∧
      ∃ c, (startPage b s).keep.current = some c ∧ c.now.isSome = true := by
  obtain ⟨content, h⟩ := startPage_eq hp s
  have hu : StoreHeld s (pageChecked p.1 s) := StoreHeld.ite (StoreHeld.refl s) (keepCheck_storeHeld ..)
  rw [h]
  exact ⟨hu.trans (modKeep_storeHeld _), rfl, _, rfl, rfl⟩

theorem vkeepRetried (r : Nat) (pl : List Byte) (v : BitVec 16) (s : State) (hr : r < 80)
    (hq : s.keep.queue = [.own r pl]) (hc : s.keep.current = none) (hretry : s.keep.retryWait = true)
    (hready : s.keep.ready = true) (hbp : s.keep.bp = 0) (hv : 2900 ≤ v.toNat) :
    ∃ t, exec (.keepVkeepRetry v) s = .next t ∧ t.keep.retryWait = false ∧ t.keep.vkeepMv = v ∧
      t.keep.array = s.keep.array ∧ ∃ b, t.keep.current = some b ∧ b.now.isSome = true := by
  obtain ⟨content, hstate, hpages⟩ := setUp_own r pl (noteVkeep v s)
  obtain ⟨p, l, hcons⟩ := slotParts_cons content r (ringNext (indexRing r (noteVkeep v s)) r 0).1
  have hfree : touchesProtected s (setUp (.own r pl) (noteVkeep v s)).2.pages = false := by
    rw [hpages]
    exact slot_clear hr (ringNext_lt ..) hbp
  have hstart : tryStart v s = _ := tryStart_of_clear hq rfl (fun _ => KeepWork.noConfusion) (stalls_of_own hready r pl) hc hv hfree
  obtain ⟨hheld, hwait, hbusy⟩ := startPage_eqs (s := (setUp (.own r pl) (noteVkeep v s)).1) (hpages.trans hcons)
  rw [hstate] at hheld hwait hbusy hstart
  obtain ⟨harray, -, hmv, -⟩ := (indexRing_storeHeld r (noteVkeep v s)).trans hheld
  exact ⟨_, congrArg Host.Outcome.next ((if_pos hretry).trans hstart), hwait, hmv, harray, hbusy⟩

/-! ### Ends of page writes and scrubs (18 R394, R401) -/

theorem keepDone_of_last {s : State} {w : KeepWork} (h : s.keep.queue = [w]) : keepDone s = { s with keep := { s.keep with
    queue := [], current := none, scrubbing := false, retryWait := false } } := by
  have htail : s.keep.queue.tail = [] := congrArg List.tail h
  unfold keepDone
  rw [keepPump_of_nil (by exact htail)]
  unfold modKeep
  dsimp only
  rw [htail]

theorem pageWriteEnds (h : Hdr) (a : Nat) (d : List Byte) (s : State) (b : KeepBusy) (p : Nat × List Byte)
    (hq : s.keep.queue = [.write h a d]) (hc : s.keep.current = some b) (hnow : b.now = some p) (hlast : b.pages = [])
    (hpage : p.1 ≠ statusPage) :
    ∃ t, exec .keepPageWriteEnd s = .next t ∧ t.cmdq = (reply h 0x51 stOk [] s).cmdq ∧ t.dram = s.dram ∧
      t.keep.array = writeCells erasedByte s.keep.array (128 * p.1) p.2 ∧
      t.keep.writeCnt = satInc s.keep.writeCnt ∧ t.keep.queue = [] ∧ t.keep.current = none := by
  obtain ⟨u, hu⟩ : ∃ u, u = modKeep (fun k => { k with current := some { b with now := none } }) (landPage p s) := ⟨_, rfl⟩
  have hland : landPage p s = { s with keep := { s.keep with
      writeCnt := satInc s.keep.writeCnt, lifeWrites := s.keep.lifeWrites + 1, jMarker := false, jWritten := false,
      array := writeCells erasedByte s.keep.array (128 * p.1) p.2,
      badGroups := s.keep.badGroups.filter fun g => g.1 / 128 ≠ p.1 } } :=
    congrArg (fun k => { s with keep := k }) (if_neg hpage)
  have huq : u.keep.queue = [.write h a d] := by
    rw [hu, hland]
    exact hq
  have hend : endPage s = keepDone (reply h 0x51 stOk [] u) := by
    unfold endPage
    rw [hc]
    dsimp only
    rw [hnow]
    dsimp only
    rw [← hu, huq]
    dsimp only
    rw [hlast]
    rfl
  have hkeep : (reply h 0x51 stOk [] u).keep = u.keep := reply_keep ..
  refine ⟨_, congrArg Host.Outcome.next (hend.trans (keepDone_of_last (by rw [hkeep, huq]))), ?_, ?_, ?_, ?_, rfl, rfl⟩
  · exact reply_cmdq_congr (by rw [hu, hland]; rfl) (by rw [hu, hland]; rfl) _ _ _ _
  · exact (reply_dram ..).trans (by rw [hu, hland]; rfl)
  · change (reply h 0x51 stOk [] u).keep.array = _
    rw [hkeep, hu, hland]
    rfl
  · change (reply h 0x51 stOk [] u).keep.writeCnt = _
    rw [hkeep, hu, hland]
    rfl

theorem scrubEnds (h : Hdr) (s : State) (b : KeepBusy) (hq : s.keep.queue = [.scrub h]) (hc : s.keep.current = some b)
    (hscrub : s.keep.scrubbing = true) (hlast : b.pages = []) (hnow : b.now = none) :
    ∃ t, exec .keepScrubEnd s = .next t ∧
      t.cmdq = (reply h 0x55 stOk [131072, word b.corrected, word b.uncorrectable] s).cmdq ∧
      t.keep = { s.keep with queue := [], current := none, scrubbing := false, retryWait := false } := by
  have hgo : (s.keep.scrubbing && b.pages.isEmpty && b.now.isNone) = true := by
    rw [hscrub, hlast, hnow]
    rfl
  have hkeep : (reply h 0x55 stOk [131072, word b.corrected, word b.uncorrectable] s).keep = s.keep := reply_keep ..
  have hexec : exec .keepScrubEnd s =
      .next (keepDone (reply h 0x55 stOk [131072, word b.corrected, word b.uncorrectable] s)) := by
    change execKeepScrubEnd s = _
    unfold execKeepScrubEnd
    rw [hq, hc]
    exact if_pos hgo
  rw [keepDone_of_last (by rw [hkeep, hq])] at hexec
  refine ⟨_, hexec, rfl, ?_⟩
  dsimp only
  rw [hkeep]

/-! ### Settlement, the ring index, the counters (18 R398, R408) -/

theorem settlement_of_due {s : State} (h : s.keep.settled = false) : exec .keepSettlement s = .next (modKeep settle s) :=
  congrArg Host.Outcome.next (if_neg (by rw [h]; exact Bool.false_ne_true))

/-- A journal page with a marker and a good CRC goes to its target. -/
theorem settle_of_good {k : Keep} (hm : k.jMarker = true) (hg : k.jGood = true) (hst : k.jStatus = false) :
    settle k = { k with
      settled := true, action := 1, page := k.jPage, completions := satInc k.completions, jMarker := false,
      jWritten := false, lifeWrites := k.lifeWrites + 1,
      array := writeCells erasedByte k.array (128 * k.jPage.toNat) k.jData,
      badGroups := k.badGroups.filter fun g => g.1 / 128 ≠ k.jPage.toNat } := by
  unfold settle
  rw [hm, hg, hst]
  rfl

theorem settle_of_bad {k : Keep} (hm : k.jMarker = true) (hg : k.jGood = false) :
    settle k = { k with
      settled := true, action := 3, page := if k.jStatus then 0 else k.jPage, jMarker := false, jWritten := false,
      badDue := true } := by
  unfold settle
  rw [hm, hg]
  rfl

theorem settle_of_unmarked {k : Keep} (hm : k.jMarker = false) (hw : k.jWritten = true) :
    settle k = { k with
      settled := true, action := 2, page := if k.jStatus then 0 else k.jPage, discards := satInc k.discards } := by
  unfold settle
  rw [hm, hw]
  rfl

theorem settles (s : State) :
    (s.keep.settled = false → s.keep.jMarker = true → s.keep.jGood = true → s.keep.jStatus = false →
      ∃ t, exec .keepSettlement s = .next t ∧ t.keep.settled = true ∧ t.keep.action = 1 ∧ t.keep.page = s.keep.jPage ∧
        t.keep.jMarker = false ∧ t.keep.array = writeCells erasedByte s.keep.array (128 * s.keep.jPage.toNat) s.keep.jData ∧
        t.cmdq = s.cmdq) ∧
    (s.keep.settled = false → s.keep.jMarker = true → s.keep.jGood = false →
      ∃ t, exec .keepSettlement s = .next t ∧ t.keep.action = 3 ∧ t.keep.badDue = true ∧ t.keep.array = s.keep.array) ∧
    (s.keep.settled = false → s.keep.jMarker = false → s.keep.jWritten = true →
      ∃ t, exec .keepSettlement s = .next t ∧ t.keep.action = 2 ∧ t.keep.array = s.keep.array ∧
        t.keep.discards = satInc s.keep.discards) := by
  refine ⟨fun h hm hg hst => ⟨_, settlement_of_due h, ?_⟩, fun h hm hg => ⟨_, settlement_of_due h, ?_⟩,
    fun h hm hw => ⟨_, settlement_of_due h, ?_⟩⟩
  · unfold modKeep
    rw [settle_of_good hm hg hst]
    exact ⟨rfl, rfl, rfl, rfl, rfl, rfl⟩
  · unfold modKeep
    rw [settle_of_bad hm hg]
    exact ⟨rfl, rfl, rfl⟩
  · unfold modKeep
    rw [settle_of_unmarked hm hw]
    exact ⟨rfl, rfl, rfl⟩

theorem loadTotals_storeHeld (s : State) : StoreHeld s (loadTotals s) := by
  unfold loadTotals
  extract_lets u v
  have hu : StoreHeld s u := forEach_storeHeld (fun t s => by
    split
    · exact modKeep_storeHeld s
    · exact StoreHeld.refl s) _ s
  have hv : StoreHeld u v := forEach_storeHeld (fun t s => by
    split
    · exact storeHeld_of_keep rfl
    · exact StoreHeld.refl s) _ u
  clear_value v u
  split
  · exact (hu.trans hv).trans (modKeep_storeHeld v)
  · exact hu.trans hv

theorem indexBuilt (s : State) (hset : s.keep.settled = true) (hready : s.keep.ready = false) :
    ∃ t, exec .keepRingIndexBuilt s = .next t ∧ t.keep.ready = true ∧ t.keep.array = s.keep.array := by
  have hdue : (s.keep.settled && !s.keep.ready) = true := by
    rw [hset, hready]
    rfl
  refine ⟨_, congrArg Host.Outcome.next (if_pos hdue), ?_⟩
  obtain ⟨u, hu⟩ : ∃ u, u = loadTotals (forEach (List.range 80) indexRing s) := ⟨_, rfl⟩
  obtain ⟨harray, -⟩ := (forEach_storeHeld indexRing_storeHeld (List.range 80) s).trans (loadTotals_storeHeld _)
  rw [← hu] at harray ⊢
  obtain ⟨harray', -, -, hready'⟩ := keepPump_storeHeld (modKeep (fun k => { k with ready := true }) u)
  exact ⟨hready', harray'.trans harray⟩

theorem put_of_new {r : Nat} (p : List Byte) {l : List KeepWork} (h : ∀ w ∈ l, appendRing w ≠ some r) (busy : Bool) :
    keepOwn.put r p l busy = l ++ [.own r p] := by
  induction l generalizing busy with
  | nil => rfl
  | cons w l ih =>
    have hrest := ih (fun x hx => h x (List.mem_cons_of_mem w hx)) false
    unfold keepOwn.put
    rw [hrest]
    split
    · next q _ =>
      have hring : q ≠ r := fun e => h _ List.mem_cons_self (congrArg some e)
      exact if_neg (by rw [decide_eq_false hring]; exact Bool.false_ne_true)
    · rfl

/-- An own append of a ring of which none is queued joins the queue. -/
theorem keepOwn_of_new {r : Nat} (p : List Byte) {s : State} {l : List KeepWork} (hq : s.keep.queue = l)
    (h : ∀ w ∈ l, appendRing w ≠ some r) :
    keepOwn r p s = { s with keep := { s.keep with queue := l ++ [.own r p] } } := by
  unfold keepOwn modKeep
  dsimp only
  rw [hq, put_of_new p h]

/-- The state with other items in the keeping store's queue. -/
def withQueue (l : List KeepWork) (s : State) : State := { s with keep := { s.keep with queue := l } }

theorem coilPayload_withQueue (l : List KeepWork) (s : State) (i : Nat) : coilPayload (withQueue l s) i = coilPayload s i := rfl

theorem devicePayload_withQueue (l : List KeepWork) (s : State) : devicePayload (withQueue l s) = devicePayload s := rfl

theorem keepOwn_withQueue {r : Nat} (p : List Byte) {s : State} {l : List KeepWork} (h : ∀ w ∈ l, appendRing w ≠ some r) :
    keepOwn r p (withQueue l s) = withQueue (l ++ [.own r p]) s := keepOwn_of_new p rfl h

theorem counterAppend_of_empty (s : State) : counterAppend (withQueue [] s) = modKeep (fun k => { k with appendAge := 0 })
    (withQueue [.own 64 (coilPayload s 0), .own 65 (coilPayload s 1), .own 66 (coilPayload s 2), .own 67 (coilPayload s 3),
      .own 68 (devicePayload s)] s) := by
  have hloop (s : State) : forEach (List.range 4) (fun i s => keepOwn (64 + i) (coilPayload s i) s) s =
      [0, 1, 2, 3].foldl (fun s i => keepOwn (64 + i) (coilPayload s i) s) s := rfl
  unfold counterAppend
  rw [hloop]
  simp only [List.foldl_cons, List.foldl_nil, coilPayload_withQueue]
  rw [keepOwn_withQueue _ (by simp), coilPayload_withQueue, keepOwn_withQueue _ (by simp [appendRing]), coilPayload_withQueue,
    keepOwn_withQueue _ (by simp [appendRing]), coilPayload_withQueue, keepOwn_withQueue _ (by simp [appendRing]),
    devicePayload_withQueue, keepOwn_withQueue _ (by simp [appendRing])]
  rfl

theorem countersAppended (s : State) (hoff : s.dev.power ≠ .off) (hq : s.keep.queue = []) :
    exec .counterAppendTimer s = .next { s with keep := { s.keep with
      appendAge := 0,
      queue := [.own 64 (coilPayload s 0), .own 65 (coilPayload s 1), .own 66 (coilPayload s 2), .own 67 (coilPayload s 3),
        .own 68 (devicePayload s)] } } := by
  have happend := counterAppend_of_empty s
  rw [show withQueue [] s = s from withQueue_self hq] at happend
  exact congrArg Host.Outcome.next ((if_neg hoff).trans happend)

/-- Settles O39: no item but a page that lands writes the array, and what errors add to the queue is no scrub. -/
theorem keepPagesWritten : Obligations.KeepPagesWritten :=
  ⟨⟨pageWriteStarts, pageWriteEnds, fun r pl v s hr hq hc hw hready hbp _ hv => vkeepRetried r pl v s hr hq hc hw hready hbp hv,
      scrubEnds⟩,
    ⟨fun s => (settles s).1, fun s => (settles s).2.1, fun s => (settles s).2.2, indexBuilt, countersAppended⟩⟩

end Sys2Proof.Proofs
end

section
/-! PROOFS. Configuration space, deliveries that are lost, and the events of the link (12 R280 to R289). -/
namespace Sys2Proof.Proofs

open Sys2Proof Sys2Proof.Machine Sys2Proof.Laws

/-! ### Writes to configuration space (12 R280 to R286) -/

/-- The field that a write to configuration space sets. -/
def cfgField (w : CfgSpaceWrite) (h : HostPort) : HostPort :=
  match w with
  | .busMaster on => { h with bme := on }
  | .memorySpace on => { h with mse := on }
  | .msixEnable on => { h with msixEn := on }
  | .functionMask on => { h with funcMask := on }
  | .d3hot on => { h with d3hot := on }
  | .maxPayload code => if code = 3 then h else { h with mps := code }
  | .relaxedOrdering on => { h with roEn := on }
  | .maxReadRequest code => if 5 < code.toNat then h else { h with mrrs := code }
  | .ecrc generate check => { h with ecrcGen := generate, ecrcCheck := check }
  | .aerStatus u c => { h with aerUncorr := h.aerUncorr &&& ~~~u, aerCorr := h.aerCorr &&& ~~~c }
  | .bar0 addr => { h with bar0 := barAddr 26 addr }
  | .bar2 addr => { h with bar2 := barAddr 36 addr }

theorem configWrite_of_ready {s : State} (hready : s.host.cfgReady = true) (hup : s.host.linkUp = true)
    (hflr : s.host.flr = false) (w : CfgSpaceWrite) : configWrite w s = loseDeliveries (modHost (cfgField w) s) := by
  have hgo : (s.host.cfgReady && s.host.linkUp && !s.host.flr) = true := by
    rw [hready, hup, hflr]
    rfl
  exact if_pos hgo

theorem configWrite_of_held {s : State} (h : s.host.cfgReady = false ∨ s.host.flr = true) (w : CfgSpaceWrite) :
    configWrite w s = s := by
  refine if_neg ?_
  rcases h with h | h
  · rw [h]
    exact Bool.false_ne_true
  · rw [h, Bool.not_true, Bool.and_false]
    exact Bool.false_ne_true

theorem streams_cfgField (w : CfgSpaceWrite) (h : HostPort) : (cfgField w h).streams = h.streams := by
  cases w with
  | busMaster on => rfl
  | memorySpace on => rfl
  | msixEnable on => rfl
  | functionMask on => rfl
  | d3hot on => rfl
  | relaxedOrdering on => rfl
  | maxPayload code =>
    change (if code = 3 then h else { h with mps := code }).streams = h.streams
    split
    · rfl
    · rfl
  | maxReadRequest code =>
    change (if 5 < code.toNat then h else { h with mrrs := code }).streams = h.streams
    split
    · rfl
    · rfl
  | ecrc generate check => rfl
  | aerStatus u c => rfl
  | bar0 addr => dsimp only [cfgField]
  | bar2 addr => dsimp only [cfgField]

theorem loseDeliveries_of_none {s : State} (h : ∀ m : Fin 32, (streamOf s m.val).delivery = none) : loseDeliveries s = s := by
  have hnone : (List.range 32).filter (fun m => (streamOf s m).delivery.isSome) = [] := by
    rw [List.filter_eq_nil_iff]
    intro m hm
    rw [h ⟨m, List.mem_range.1 hm⟩]
    exact Bool.false_ne_true
  unfold loseDeliveries
  rw [hnone]
  split
  · rfl
  · rfl

/-- With no delivery under way the write sets its field and nothing else. -/
theorem configWrite_of_idle {s : State} (hready : s.host.cfgReady = true) (hup : s.host.linkUp = true)
    (hflr : s.host.flr = false) (hidle : ∀ m : Fin 32, (streamOf s m.val).delivery = none) (w : CfgSpaceWrite) :
    configWrite w s = modHost (cfgField w) s := by
  refine (configWrite_of_ready hready hup hflr w).trans (loseDeliveries_of_none fun m => ?_)
  have hstreams : (modHost (cfgField w) s).host.streams = s.host.streams := streams_cfgField w s.host
  unfold streamOf
  rw [hstreams]
  exact hidle m

theorem fieldsWritten {s : State} (hready : s.host.cfgReady = true) (hup : s.host.linkUp = true)
    (hflr : s.host.flr = false) (hidle : ∀ m : Fin 32, (streamOf s m.val).delivery = none) :
    (∀ b, exec (.configSpaceWrite (.busMaster b)) s = .next { s with host := { s.host with bme := b } }) ∧
    (∀ b, exec (.configSpaceWrite (.memorySpace b)) s = .next { s with host := { s.host with mse := b } }) ∧
    (∀ b, exec (.configSpaceWrite (.msixEnable b)) s = .next { s with host := { s.host with msixEn := b } }) ∧
    (∀ b, exec (.configSpaceWrite (.functionMask b)) s = .next { s with host := { s.host with funcMask := b } }) ∧
    (∀ b, exec (.configSpaceWrite (.d3hot b)) s = .next { s with host := { s.host with d3hot := b } }) ∧
    (∀ b, exec (.configSpaceWrite (.relaxedOrdering b)) s = .next { s with host := { s.host with roEn := b } }) ∧
    (∀ c, exec (.configSpaceWrite (.maxPayload c)) s = .next { s with host := { s.host with
      mps := if c = 3 then s.host.mps else c } }) ∧
    (∀ c, exec (.configSpaceWrite (.maxReadRequest c)) s = .next { s with host := { s.host with
      mrrs := if 5 < c.toNat then s.host.mrrs else c } }) ∧
    (∀ g c, exec (.configSpaceWrite (.ecrc g c)) s = .next { s with host := { s.host with
      ecrcGen := g, ecrcCheck := c } }) ∧
    (∀ u c, exec (.configSpaceWrite (.aerStatus u c)) s = .next { s with host := { s.host with
      aerUncorr := s.host.aerUncorr &&& ~~~u, aerCorr := s.host.aerCorr &&& ~~~c } }) ∧
    (∀ a, exec (.configSpaceWrite (.bar0 a)) s = .next { s with host := { s.host with bar0 := a >>> 26 <<< 26 } }) ∧
    (∀ a, exec (.configSpaceWrite (.bar2 a)) s = .next { s with host := { s.host with bar2 := a >>> 36 <<< 36 } }) := by
  have hset {w : CfgSpaceWrite} {h : HostPort} (hw : cfgField w s.host = h) :
      exec (.configSpaceWrite w) s = .next { s with host := h } := by
    refine congrArg Host.Outcome.next ((configWrite_of_idle hready hup hflr hidle w).trans ?_)
    unfold modHost
    rw [hw]
  refine ⟨fun _ => hset rfl, fun _ => hset rfl, fun _ => hset rfl, fun _ => hset rfl, fun _ => hset rfl, fun _ => hset rfl,
    fun c => hset ?_, fun c => hset ?_, fun _ _ => hset rfl, fun _ _ => hset rfl, fun _ => hset rfl, fun _ => hset rfl⟩
  · exact (apply_ite (fun x => { s.host with mps := x }) (c = 3) s.host.mps c).symm
  · exact (apply_ite (fun x => { s.host with mrrs := x }) (5 < c.toNat) s.host.mrrs c).symm

/-! ### A delivery that is not made (12 R289) -/

/-- A stream whose delivery under way is not made. -/
def lostStream (x : Stream) : Stream :=
  { x with dropSince := x.dropSince + 1, dropCnt := satInc x.dropCnt, doneNow := true, delivery := none }

/-- What a lost delivery of any stream keeps: DRAM, the bus master's bit, and what makes a stream due. -/
theorem loseDelivery_keeps (j m : Nat) (s : State) : (loseDelivery j s).dram = s.dram ∧
    (loseDelivery j s).host.bme = s.host.bme ∧ streamDue (loseDelivery j s) m = streamDue s m := by
  unfold loseDelivery
  split
  · exact ⟨rfl, rfl, rfl⟩
  · exact ⟨rfl, rfl, rfl⟩

theorem loseDelivery_of_open {m : Nat} (hm : m < 32) {s : State} (hd : (streamOf s m).delivery.isSome = true)
    (ho : (streamOpen s m).isSome = true) : streamOf (loseDelivery m s) m = lostStream (streamOf s m) := by
  have hlose : loseDelivery m s = modStream m (fun x => { x with delivery := none }) (dropFrame m s) :=
    if_pos (by rw [hd, ho]; rfl)
  have hdrop : streamOf (dropFrame m s) m =
      { streamOf s m with dropSince := (streamOf s m).dropSince + 1, dropCnt := satInc (streamOf s m).dropCnt, doneNow := true } :=
    streamOf_modStream_same hm _ s
  rw [hlose, streamOf_modStream_same hm, hdrop]
  rfl

theorem loseDelivery_of_none {m : Nat} {s : State} (hd : (streamOf s m).delivery = none) : loseDelivery m s = s :=
  if_neg (by rw [hd]; exact Bool.false_ne_true)

theorem streamOf_loseDelivery_ne {j m : Nat} (h : m ≠ j) (s : State) : streamOf (loseDelivery j s) m = streamOf s m := by
  unfold loseDelivery
  split
  · exact (streamOf_modStream_ne h _ _).trans (streamOf_modStream_ne h _ s)
  · rfl

theorem streamOpen_congr {s t : State} {m : Nat} (hx : streamOf t m = streamOf s m) (hd : streamDue t m = streamDue s m) :
    streamOpen t m = streamOpen s m := by
  unfold streamOpen
  rw [hx, hd]

/-- Once stream m's delivery is lost, the others leave it so. -/
theorem loseEach_lost {m : Nat} {x : Stream} (hx : x.delivery = none) (l : List Nat) (s : State) (hs : streamOf s m = x) :
    streamOf (forEach l loseDelivery s) m = x := by
  refine forEach_invariant (P := fun s => streamOf s m = x) (fun j t ht => ?_) l s hs
  by_cases h : m = j
  · subst h
    rwa [loseDelivery_of_none (by rw [ht, hx])]
  · rwa [streamOf_loseDelivery_ne h]

theorem loseEach_stream {m : Nat} (hm : m < 32) (l : List Nat) (hl : m ∈ l) (s : State)
    (hd : (streamOf s m).delivery.isSome = true) (ho : (streamOpen s m).isSome = true) :
    streamOf (forEach l loseDelivery s) m = lostStream (streamOf s m) := by
  induction l generalizing s with
  | nil => exact absurd hl List.not_mem_nil
  | cons j l ih =>
    by_cases h : m = j
    · subst h
      exact loseEach_lost rfl l _ (loseDelivery_of_open hm hd ho)
    · have hx := streamOf_loseDelivery_ne h s
      have hopen := streamOpen_congr hx (loseDelivery_keeps j m s).2.2
      refine (ih ((List.mem_cons.1 hl).resolve_left h) (loseDelivery j s) ?_ ?_).trans (congrArg lostStream hx)
      · rwa [hx]
      · rwa [hopen]

theorem loseEach_keeps (l : List Nat) (s : State) :
    (forEach l loseDelivery s).dram = s.dram ∧ (forEach l loseDelivery s).host.bme = s.host.bme :=
  ⟨forEach_keeps (g := State.dram) (fun j t => (loseDelivery_keeps j 0 t).1) l s,
    forEach_keeps (g := fun s => s.host.bme) (fun j t => (loseDelivery_keeps j 0 t).2.1) l s⟩

theorem busMasterCleared (s : State) (m : Fin 32) (hready : s.host.cfgReady = true) (hup : s.host.linkUp = true)
    (hflr : s.host.flr = false) (hd : (streamOf s m.val).delivery.isSome = true)
    (ho : (streamOpen s m.val).isSome = true) :
    ∃ t, exec (.configSpaceWrite (.busMaster false)) s = .next t ∧ t.host.bme = false ∧
      (streamOf t m.val).delivery = none ∧ (streamOf t m.val).dropCnt = satInc (streamOf s m.val).dropCnt ∧
      (streamOf t m.val).prod = (streamOf s m.val).prod ∧ t.dram = s.dram := by
  obtain ⟨u, hu⟩ : ∃ u, u = modHost (cfgField (.busMaster false)) s := ⟨_, rfl⟩
  have hx : streamOf u m.val = streamOf s m.val := by rw [hu]; rfl
  have hopen : streamOpen u m.val = streamOpen s m.val := streamOpen_congr hx (by rw [hu]; rfl)
  have hissue : canIssue u = false := by
    unfold canIssue
    rw [hu]
    change (s.host.linkUp && false && !s.host.d3hot && !s.host.flr) = false
    rw [Bool.and_false]
    rfl
  have hmem : m.val ∈ (List.range 32).filter fun m => (streamOf u m).delivery.isSome :=
    List.mem_filter.2 ⟨List.mem_range.2 m.isLt, by rwa [hx]⟩
  have hexec : configWrite (.busMaster false) s =
      forEach ((List.range 32).filter fun m => (streamOf u m).delivery.isSome) loseDelivery u := by
    rw [configWrite_of_ready hready hup hflr, ← hu]
    exact if_neg (by rw [hissue]; exact Bool.false_ne_true)
  generalize (List.range 32).filter (fun m => (streamOf u m).delivery.isSome) = l at hmem hexec
  obtain ⟨hdram, hbme⟩ := loseEach_keeps l u
  have hlost := loseEach_stream m.isLt l hmem u (by rwa [hx]) (by rwa [hopen])
  refine ⟨_, congrArg Host.Outcome.next hexec, hbme.trans (by rw [hu]; rfl), ?_, ?_, ?_, hdram.trans (by rw [hu]; rfl)⟩
  · rw [hlost]
    rfl
  · rw [hlost, hx]
    rfl
  · rw [hlost, hx]
    rfl

/-! ### Events of the link (12 R280, R288) -/

/-- What every reset of the host port but a fundamental one leaves (12 R288). -/
theorem hostReset_eqs (s : State) : (hostReset s).host.linkUp = s.host.linkUp ∧ (hostReset s).host.wasDown = s.host.wasDown ∧
    (hostReset s).host.flr = s.host.flr ∧ (hostReset s).host.bme = false ∧ (hostReset s).host.pba = 0 ∧
    (hostReset s).host.linkDownCnt = 0 ∧ (hostReset s).cmdq.enable = false ∧ (hostReset s).cmdq.held = [] ∧
    (hostReset s).dram = s.dram ∧ (hostReset s).cfg = s.cfg ∧ (hostReset s).tick = s.tick :=
  ⟨rfl, rfl, rfl, rfl, rfl, rfl, rfl, rfl, rfl, rfl, rfl⟩

theorem linkRises (s : State) (sp : BitVec 3) (w : BitVec 5) (hmode : linkMode sp w = true) (hrel : s.dev.released = true)
    (hdown : s.host.linkUp = false) (hwas : s.host.wasDown = false) :
    exec (.linkUp sp w) s = .next { s with host := { s.host with linkUp := true, speed := sp, width := w } } := by
  have hgo : ¬ ((s.host.linkUp || !s.dev.released || !linkMode sp w) = true) := by
    rw [hdown, hrel, hmode]
    exact Bool.false_ne_true
  have hcalm : ¬ (s.host.wasDown = true) := by rw [hwas]; exact Bool.false_ne_true
  refine congrArg Host.Outcome.next ((if_neg hgo).trans ((if_neg hcalm).trans ?_))
  unfold modHost
  rw [← hwas]

theorem linkFalls (s : State) : (s.host.linkUp = false → linkGone s = s) ∧
    (s.host.linkUp = true → ∃ t, linkGone s = t ∧ t.host.linkUp = false ∧ t.host.wasDown = true ∧
      t.host.bme = false ∧ t.host.pba = 0 ∧ t.host.linkDownSeen = true ∧ t.host.linkDownCnt = 1 ∧
      t.cmdq.enable = false ∧ t.cmdq.held = [] ∧ t.dram = s.dram ∧ t.cfg = s.cfg ∧ t.tick = s.tick) := by
  refine ⟨fun h => if_neg (by rw [h]; exact Bool.false_ne_true), fun h => ⟨_, if_pos h, ?_⟩⟩
  obtain ⟨hup, hwas, -, hbme, hpba, hcnt, hen, hheld, hdram, hcfg, htick⟩ :=
    hostReset_eqs (modHost (fun h => { h with linkUp := false, speed := 0, width := 0, wasDown := true }) s)
  exact ⟨hup, hwas, hbme, hpba, rfl, congrArg satInc hcnt, hen, hheld, hdram, hcfg, htick⟩

theorem linkEvents (s : State) (c : Instr) (hc : c = .linkDown ∨ c = .hotReset ∨ c = .linkDisable) :
    (s.host.linkUp = false → exec c s = .next s) ∧
    (s.host.linkUp = true → ∃ t, exec c s = .next t ∧ t.host.linkUp = false ∧ t.host.wasDown = true ∧
      t.host.bme = false ∧ t.host.pba = 0 ∧ t.host.linkDownSeen = true ∧ t.host.linkDownCnt = 1 ∧
      t.cmdq.enable = false ∧ t.cmdq.held = [] ∧ t.dram = s.dram ∧ t.cfg = s.cfg ∧ t.tick = s.tick) := by
  have hexec : exec c s = .next (linkGone s) := by
    rcases hc with rfl | rfl | rfl <;> rfl
  obtain ⟨hdown, hup⟩ := linkFalls s
  rw [hexec]
  refine ⟨fun h => congrArg Host.Outcome.next (hdown h), fun h => ?_⟩
  obtain ⟨t, ht, hrest⟩ := hup h
  exact ⟨t, congrArg Host.Outcome.next ht, hrest⟩

theorem functionResets (s : State) (hup : s.host.linkUp = true) (hready : s.host.cfgReady = true)
    (hflr : s.host.flr = false) :
    ∃ t, exec .functionLevelReset s = .next t ∧ t.host.linkUp = true ∧ t.host.flr = true ∧ t.host.bme = false ∧
      t.host.pba = 0 ∧ t.cmdq.enable = false ∧ t.cmdq.held = [] ∧ t.dram = s.dram ∧ t.cfg = s.cfg ∧ t.tick = s.tick := by
  have hgo : (s.host.linkUp && s.host.cfgReady && !s.host.flr) = true := by
    rw [hup, hready, hflr]
    rfl
  obtain ⟨hlink, -, hreset, hbme, hpba, -, hen, hheld, hdram, hcfg, htick⟩ :=
    hostReset_eqs (modHost (fun h => { h with flr := true }) s)
  exact ⟨_, congrArg Host.Outcome.next (if_pos hgo), hlink.trans hup, hreset, hbme, hpba, hen, hheld, hdram, hcfg, htick⟩

/-- Settles O47: the streams lose their deliveries one by one, and each reset of the host port leaves the rest of the
device. -/
theorem linkAndConfigurationSpace : Obligations.LinkAndConfigurationSpace :=
  ⟨fun s => ⟨fun w h => congrArg Host.Outcome.next (configWrite_of_held h w), fieldsWritten, busMasterCleared s⟩,
    fun s => ⟨linkRises s, linkEvents s, functionResets s, rfl, fun h => congrArg Host.Outcome.next (if_pos h)⟩⟩

end Sys2Proof.Proofs
end

section
/-! PROOFS. TABLE_LOAD, its check, TABLE_SAVE and the end of a save (05 R146; 13 R318, R319). -/
namespace Sys2Proof.Proofs

open Sys2Proof Sys2Proof.Machine Sys2Proof.Laws

/-! ### TABLE_LOAD (13 R318) -/

theorem tableLoads (h : Hdr) (w : Word) (base : BitVec 64) (crc : Option Word) (s : State) (b : Bank)
    (hp : s.dev.power = .parked ∨ s.dev.power = .imaging) (hb : activeSet s = some b) (hno : noTable b w = false)
    (hbar : tableBarred s b w true = false)
    (hbad : badRegion s ((regionsInUse s).filter fun r => !ownRegion w r) base.toNat (saveBytes b w) = false) :
    exec (.tableLoad h w base crc) s = .next (reply h 0x22 stOk
      [crc.getD 0, lo32 (tableBase s b w), hi32 (tableBase s b w)] (takeTable w base (counted s))) ∧
    (twKind w = 2 → takeTable w base (counted s) =
      modLane (twTile w) (fun l => { l with g := base, freshNext := true }) (counted s)) := by
  have hlow : ¬ ((counted s).dev.power = .low) := by
    change ¬ (s.dev.power = .low)
    rcases hp with e | e <;> simp [e]
  have hactive : activeSet (counted s) = some b := hb
  have hhas : ¬ (noTable b w = true) := by rw [hno]; exact Bool.false_ne_true
  have hfits : ¬ ((tableBarred (counted s) b w true || badRegion (counted s)
      ((regionsInUse (counted s)).filter fun r => !ownRegion w r) base.toNat (saveBytes b w)) = true) := by
    change ¬ ((tableBarred s b w true || badRegion s
      ((regionsInUse s).filter fun r => !ownRegion w r) base.toNat (saveBytes b w)) = true)
    rw [hbar, hbad]
    exact Bool.false_ne_true
  have hload : tableLoad h w base crc s = reply h 0x22 stOk
      [crc.getD 0, lo32 (tableBase s b w), hi32 (tableBase s b w)] (takeTable w base (counted s)) := by
    refine (runAtTick_of_running hp).trans ((if_neg hlow).trans ?_)
    rw [hactive]
    exact (if_neg hhas).trans (if_neg hfits)
  refine ⟨congrArg Host.Outcome.next hload, fun hk => ?_⟩
  unfold takeTable
  dsimp only
  rw [hk]
  rfl

/-- The oldest check, its CRC not matching: the command is rejected with BAD_PARAM. -/
theorem endLoadCheck_of_mismatch {x : LoadCheck} {r : List LoadCheck} {hits : List (Nat × EccHit)} {s : State}
    (hx : s.cmdq.checks = x :: r) (hi : MemoryIdle s) (hh : Correctable hits)
    (hc : crc32 (dramRead s x.region.1 x.region.2) ≠ x.q.params.getD 4 0) :
    ∃ p c, endLoadCheck hits s = setPorts p c (replyReject x.q.hdr 0x22 stBadParam (withChecks r s)) := by
  obtain ⟨hquiet, hfrozen, hreqs⟩ := hi
  obtain ⟨p, c, ht⟩ := (onlyPorts_iff_setPorts _ _).1
    (onlyPorts_traffic 10 hits [reads x.region.1 x.region.2] s hreqs hh)
  have hfrozen' : (setPorts p c s).memc.frozen = false := hfrozen
  have hcrc : crc32 (dramRead (withChecks r s) x.region.1 x.region.2) ≠ x.q.params.getD 4 0 := hc
  refine ⟨p, c, ?_⟩
  unfold endLoadCheck
  simp only [hx, hquiet, hfrozen, spansWait_idle hreqs, ht, hfrozen', Bool.or_self, Bool.false_eq_true, if_false,
    modCmdq_setPorts, dramRead_setPorts]
  exact (if_pos hcrc).trans (replyReject_setPorts ..)

theorem loadChecked (s : State) (x : LoadCheck) (r : List LoadCheck) (hits : List (Nat × EccHit))
    (hx : s.cmdq.checks = x :: r) (hi : MemoryIdle s) (hh : Correctable hits) :
    (crc32 (dramRead s x.region.1 x.region.2) ≠ x.q.params.getD 4 0 →
      ∃ t, exec (.tableLoadCheckEnd hits) s = .next t ∧ t.tick = s.tick ∧
        t.cmdq = (replyReject x.q.hdr 0x22 stBadParam { s with cmdq := { s.cmdq with checks := r } }).cmdq) ∧
    (∀ f, crc32 (dramRead s x.region.1 x.region.2) = x.q.params.getD 4 0 → resolveFrame s x.eff = some f →
      s.tick.queue.length < 256 →
      ∃ t, exec (.tableLoadCheckEnd hits) s = .next t ∧ t.cmdq = { s.cmdq with checks := r } ∧
        t.tick.queue = s.tick.queue ++ [{ x.q with hdr := { x.q.hdr with sfn := f }, acc := s.tick.accNext }]) := by
  refine ⟨fun hc => ?_, fun f hc hf hq => ?_⟩
  · obtain ⟨p, c, hend⟩ := endLoadCheck_of_mismatch hx hi hh hc
    exact ⟨_, congrArg Host.Outcome.next hend, replyReject_tick .., rfl⟩
  · obtain ⟨p, c, hexec⟩ := exec_tableLoadCheckEnd_of_match hx hi hh hc
    rw [takeIn_of_room (s := setPorts p c (withChecks r s)) hf hq] at hexec
    exact ⟨_, hexec, rfl, rfl⟩

/-! ### TABLE_SAVE (13 R319) -/

/-- What a save is kept as until it ends. -/
def saveOf (h : Hdr) (w : Word) (dest : BitVec 64) (crc : Bool) (b : Bank) (copy : Bool) (s : State) : Save :=
  { hdr := h, at_ := s.tick.sfn, table := w, base := tableBase s b w, dest, bytes := saveBytes b w, copy, crc }

/-- The table is saved by moving its write base. -/
def movesTable (b : Bank) (w : Word) : Bool :=
  twKind w = 0 || twKind w = 4 || (twKind w = 5 && (dbufOf b (twDbuf w)).writable)

theorem tableSave_of_accepted {h : Hdr} {w : Word} {dest : BitVec 64} {crc : Bool} {s : State} {b : Bank}
    (hp : s.dev.power = .parked ∨ s.dev.power = .imaging) (hb : activeSet s = some b) (hno : noTable b w = false)
    (hbar : tableBarred s b w false = false)
    (hbad : badRegion s (regionsInUse s) dest.toNat (saveBytes b w) = false) :
    tableSave h w dest crc s = modCfg (fun c => { c with saves := c.saves ++ [saveOf h w dest crc b (!movesTable b w) s] })
      (if !movesTable b w then dramWrite dest.toNat (dramRead s (tableBase s b w).toNat (saveBytes b w)) (counted s)
       else if twKind w = 5 then setDbufNext (twDbuf w) { base := tableBase s b w, write := dest } (counted s)
       else redirect w dest (counted s)) := by
  have hlow : ¬ ((counted s).dev.power = .low) := by
    change ¬ (s.dev.power = .low)
    rcases hp with e | e <;> simp [e]
  have hactive : activeSet (counted s) = some b := hb
  have hhas : ¬ (noTable b w = true) := by rw [hno]; exact Bool.false_ne_true
  have hfits : ¬ ((tableBarred (counted s) b w false || badRegion (counted s) (regionsInUse (counted s)) dest.toNat
      (saveBytes b w)) = true) := by
    change ¬ ((tableBarred s b w false || badRegion s (regionsInUse s) dest.toNat (saveBytes b w)) = true)
    rw [hbar, hbad]
    exact Bool.false_ne_true
  refine (runAtTick_of_running hp).trans ((if_neg hlow).trans ?_)
  rw [hactive]
  exact (if_neg hhas).trans (if_neg hfits)

/-- A lane's save moves a write base of the tile, and changes nothing else. -/
theorem redirect_eqs (w : Word) (dest : BitVec 64) (s : State) : redirect w dest (counted s) = counted (redirect w dest s) ∧
    (redirect w dest s).dram = s.dram ∧ (redirect w dest s).cfg = s.cfg ∧ (redirect w dest s).cmdq = s.cmdq := by
  unfold redirect
  dsimp only
  split
  · exact ⟨rfl, rfl, rfl, rfl⟩
  · exact ⟨rfl, rfl, rfl, rfl⟩

theorem dramWrite_counted (a : Nat) (bs : List Byte) (s : State) :
    dramWrite a bs (counted s) = counted (dramWrite a bs s) := by
  unfold dramWrite
  rw [apply_ite counted]
  rfl

theorem tableSaves (h : Hdr) (w : Word) (dest : BitVec 64) (crc : Bool) (s : State) (b : Bank)
    (hp : s.dev.power = .parked ∨ s.dev.power = .imaging) (hb : activeSet s = some b) (hno : noTable b w = false)
    (hbar : tableBarred s b w false = false)
    (hbad : badRegion s (regionsInUse s) dest.toNat (saveBytes b w) = false) :
    ((twKind w = 0 ∨ twKind w = 4) → ∃ t, exec (.tableSave h w dest crc) s = .next t ∧ t.dram = s.dram ∧
      t.cmdq = (counted s).cmdq ∧ t.tiles = (redirect w dest s).tiles ∧
      t.cfg = { s.cfg with saves := s.cfg.saves ++ [{
        hdr := h, at_ := s.tick.sfn, table := w, base := tableBase s b w, dest, bytes := saveBytes b w, copy := false, crc }] }) ∧
    ((twKind w = 1 ∨ twKind w = 2 ∨ twKind w = 3) → ∃ t, exec (.tableSave h w dest crc) s = .next t ∧ t.tiles = s.tiles ∧
      t.dram = (dramWrite dest.toNat (dramRead s (tableBase s b w).toNat (saveBytes b w)) s).dram ∧
      t.cfg = { s.cfg with saves := s.cfg.saves ++ [{
        hdr := h, at_ := s.tick.sfn, table := w, base := tableBase s b w, dest, bytes := saveBytes b w, copy := true, crc }] }) := by
  have hsave := tableSave_of_accepted (h := h) (crc := crc) hp hb hno hbar hbad
  refine ⟨fun hk => ?_, fun hk => ?_⟩
  · have hmove : movesTable b w = true := by
      unfold movesTable
      rcases hk with e | e <;> rw [e] <;> rfl
    have hbuf : twKind w ≠ 5 := by rcases hk with e | e <;> rw [e] <;> decide
    obtain ⟨hcount, hdram, hcfg, hcmdq⟩ := redirect_eqs w dest s
    rw [hmove, Bool.not_true, if_neg Bool.false_ne_true, if_neg hbuf, hcount] at hsave
    refine ⟨_, congrArg Host.Outcome.next hsave, hdram, ?_, rfl, ?_⟩
    · exact congrArg (fun q : Cmdq => { q with execCnt := satInc q.execCnt }) hcmdq
    · exact congrArg (fun c : CfgBanks => { c with saves := c.saves ++ [saveOf h w dest crc b false s] }) hcfg
  · have hcopy : movesTable b w = false := by
      unfold movesTable
      rcases hk with e | e | e <;> rw [e] <;> rfl
    rw [hcopy, Bool.not_false, if_pos rfl, dramWrite_counted] at hsave
    refine ⟨_, congrArg Host.Outcome.next hsave, dramWrite_tiles .., rfl, ?_⟩
    exact congrArg (fun c : CfgBanks => { c with saves := c.saves ++ [saveOf h w dest crc b true s] }) (dramWrite_cfg ..)

/-! ### A save ends (05 R146, 13 R319) -/

/-- A save that is done, with the memory idle, ends as its kind does after its reads. -/
theorem saveCopyEnd_of_done {w : Word} {p : Save} {hits : List (Nat × EccHit)} {s : State}
    (hp : s.cfg.saves.find? (fun x => x.table = w) = some p) (hi : MemoryIdle s) (hf : s.err.freezeNext ≠ 1)
    (hh : Correctable hits) (hdone : saveDone s p = true) :
    ∃ q c, saveCopyEnd w hits s =
      if p.copy || twKind w = 5 then endSave p (setPorts q c s) else endLaneSave p (setPorts q c s) := by
  obtain ⟨hquiet, hfrozen, hreqs⟩ := hi
  obtain ⟨q, c, ht⟩ := (onlyPorts_iff_setPorts _ _).1 (onlyPorts_traffic 10 hits (saveSpans p) s hreqs hh)
  have hgo : ¬ ((s.memc.quiet || !saveDone s p || spansWait s 10 (saveSpans p)) = true) := by
    rw [hquiet, hdone, spansWait_idle hreqs]
    exact Bool.false_ne_true
  refine ⟨q, c, ?_⟩
  unfold saveCopyEnd
  rw [hp]
  dsimp only
  rw [ht]
  exact (if_neg hgo).trans (if_neg hf)

theorem endSave_eqs (p : Save) (q : Vector ReqPort 12) (c : Vector Memch 8) (s : State) :
    (endSave p (setPorts q c s)).dram = s.dram ∧ (endSave p (setPorts q c s)).tiles = s.tiles ∧
      (endSave p (setPorts q c s)).cfg = { s.cfg with saves := s.cfg.saves.erase p } ∧
      (endSave p (setPorts q c s)).cmdq = (reply p.hdr 0x23 stOk (saveWords s p) s).cmdq := by
  have hwords : saveWords (setPorts q c s) p = saveWords s p := rfl
  unfold endSave
  rw [hwords, reply_dram, reply_tiles, reply_cfg]
  exact ⟨rfl, rfl, rfl, reply_cmdq_congr (by rfl) (by rfl) _ _ _ _⟩

/-- A lane's save whose tile has read its frame ends as a copy does: its lane has written the table. -/
theorem endLaneSave_of_read {p : Save} {s : State} (hmode : (tileOf s (twTile p.table)).lane.work.mode = .read)
    (hrun : (tileOf s (twTile p.table)).lane.work.overrun = false)
    (hcross : s.tick.crossLanes.getLsbD (twTile p.table) = false) : endLaneSave p s = endSave p s := by
  have hclean : ¬ (((tileOf s (twTile p.table)).lane.work.overrun || s.tick.crossLanes.getLsbD (twTile p.table)) = true) := by
    rw [hrun, hcross]
    exact Bool.false_ne_true
  have hcopy : copyUnread p s = s := by
    unfold copyUnread
    dsimp only
    rw [hmode]
    rfl
  unfold endLaneSave
  dsimp only
  rw [if_neg hclean, hcopy]
  rfl

/-- An incomplete save leaves DRAM, and takes itself off the list of saves. -/
theorem failSave_eqs (st : BitVec 16) (p : Save) (q : Vector ReqPort 12) (c : Vector Memch 8) (s : State) :
    (failSave st p (setPorts q c s)).dram = s.dram ∧ (failSave st p (setPorts q c s)).cfg.saves = s.cfg.saves.erase p ∧
      (failSave st p (setPorts q c s)).cmdq = (reply p.hdr 0x23 st [0, lo32 p.base, hi32 p.base, 1] s).cmdq := by
  have hback (s : State) : (unredirect p s).dram = s.dram ∧ (unredirect p s).cfg.saves = s.cfg.saves ∧
      (unredirect p s).cmdq = s.cmdq ∧ (unredirect p s).host = s.host := by
    unfold unredirect
    dsimp only
    split
    · exact ⟨rfl, rfl, rfl, rfl⟩
    · split
      · exact ⟨rfl, rfl, rfl, rfl⟩
      · split
        · exact ⟨rfl, rfl, rfl, rfl⟩
        · exact ⟨rfl, rfl, rfl, rfl⟩
  unfold failSave
  extract_lets u v
  obtain ⟨hdram, hsaves, hcmdq, hhost⟩ := hback (dropSave p (setPorts q c s))
  have hv : v.dram = u.dram ∧ v.cfg = u.cfg ∧ v.cmdq = u.cmdq ∧ v.host = u.host := by
    unfold v
    split
    · exact ⟨rfl, rfl, rfl, rfl⟩
    · exact ⟨rfl, rfl, rfl, rfl⟩
  obtain ⟨hvd, hvc, hvq, hvh⟩ := hv
  clear_value v
  rw [reply_dram, reply_cfg, hvc]
  refine ⟨hvd.trans hdram, hsaves, ?_⟩
  exact reply_cmdq_congr (t := s) (hvq.trans hcmdq) (hvh.trans hhost) _ _ _ _

theorem savesEnd (s : State) (w : Word) (p : Save) (hits : List (Nat × EccHit))
    (hp : s.cfg.saves.find? (fun x => x.table = w) = some p) (hi : MemoryIdle s) (hf : s.err.freezeNext ≠ 1)
    (hh : Correctable hits) :
    let work := (tileOf s (twTile w)).lane.work
    ((p.copy = true ∨ (twKind w ≠ 5 ∧ work.mode = .read ∧ work.done = true ∧ work.overrun = false ∧
        s.tick.crossLanes.getLsbD (twTile w) = false)) →
      ∃ t, exec (.tableSaveCopyEnd w hits) s = .next t ∧ t.dram = s.dram ∧ t.tiles = s.tiles ∧
        t.cfg = { s.cfg with saves := s.cfg.saves.erase p } ∧
        t.cmdq = (reply p.hdr 0x23 stOk (saveWords s p) s).cmdq) ∧
    (p.copy = false → twKind w ≠ 5 → work.done = true → work.overrun = true →
      ∃ t, exec (.tableSaveCopyEnd w hits) s = .next t ∧ t.dram = s.dram ∧ t.cfg.saves = s.cfg.saves.erase p ∧
        t.cmdq = (reply p.hdr 0x23 stRefused [0, lo32 p.base, hi32 p.base, 1] s).cmdq) := by
  have htable : p.table = w := of_decide_eq_true (List.find?_some hp :)
  have hlane (hk : twKind w ≠ 5) (hd : (tileOf s (twTile w)).lane.work.done = true) : saveDone s p = true := by
    unfold saveDone
    dsimp only
    rw [htable, hd, if_neg hk]
    simp
  extract_lets work
  refine ⟨fun h => ?_, fun hcopy hk hd hrun => ?_⟩
  · have hdone : saveDone s p = true := by
      rcases h with h | ⟨hk, -, hd, -⟩
      · exact if_pos h
      · exact hlane hk hd
    obtain ⟨q, c, hend⟩ := saveCopyEnd_of_done hp hi hf hh hdone
    have hsave : (if p.copy || twKind w = 5 then endSave p (setPorts q c s) else endLaneSave p (setPorts q c s)) =
        endSave p (setPorts q c s) := by
      by_cases hc : p.copy = true
      · exact if_pos (by rw [hc]; rfl)
      · obtain ⟨hk, hmode, -, hrun, hcross⟩ := h.resolve_left hc
        refine (if_neg ?_).trans (endLaneSave_of_read ?_ ?_ ?_)
        · simp [hc, hk]
        · rw [htable]
          exact hmode
        · rw [htable]
          exact hrun
        · rw [htable]
          exact hcross
    exact ⟨_, congrArg Host.Outcome.next (hend.trans hsave), endSave_eqs p q c s⟩
  · obtain ⟨q, c, hend⟩ := saveCopyEnd_of_done hp hi hf hh (hlane hk hd)
    have hsave : (if p.copy || twKind w = 5 then endSave p (setPorts q c s) else endLaneSave p (setPorts q c s)) =
        failSave stRefused p (setPorts q c s) := by
      refine (if_neg (by simp [hcopy, hk])).trans (if_pos ?_)
      have hover : (tileOf (setPorts q c s) (twTile p.table)).lane.work.overrun = true := by
        rw [htable]
        exact hrun
      rw [hover]
      rfl
    exact ⟨_, congrArg Host.Outcome.next (hend.trans hsave), failSave_eqs stRefused p q c s⟩

/-- Settles O27: a load or save that its checks accept, and the end of a check or a save by what it finds. -/
theorem tablesLoadedAndSaved : Obligations.TablesLoadedAndSaved :=
  ⟨⟨tableLoads, loadChecked⟩, tableSaves, savesEnd⟩

end Sys2Proof.Proofs
end
